-- ==== Sys2Proof/Word.lean ====
section
/-! DEFINITION. The word types of the Zorruson model: bytes, 64-bit registers, and little-endian byte strings (R8). -/

namespace Sys2Proof

/-- A byte of memory or of a message. -/
abbrev Byte := BitVec 8

/-- A 64-bit register or clapper counter (R8: every register is 64 bits wide). -/
abbrev U64 := BitVec 64

/-- The value of a little-endian byte string (R8: multi-byte fields are little-endian). -/
def leNat : List Byte → Nat
  | [] => 0
  | b :: bs => b.toNat + 256 * leNat bs

/-- The `n` little-endian bytes of a value (R8). -/
def leBytes : Nat → Nat → List Byte
  | 0, _ => []
  | n + 1, v => BitVec.ofNat 8 v :: leBytes n (v / 256)

end Sys2Proof
end

