-- ==== Sys2Proof/Syntax.lean ====
section
/-! DEFINITION. The commands of the Zorruson: one constructor per row of spec/opcode_table.json, with the operands the spec gives the row. -/

namespace Sys2Proof

/-- A command queue: the operator queue, or queue k of a tent (R32, Table 13.8). -/
inductive QId where
  | operator
  | tent (t : BitVec 7) (k : BitVec 4)
deriving DecidableEq, Repr

/-- A 64-byte command descriptor without its OPCODE, which the constructor gives (Table 2.7). -/
structure Desc where
  stage : Bool
  fence : Bool
  complInt : Bool
  /-- The 38 reserved bits of bytes 2, 3 and 12 to 15. -/
  rsv : BitVec 38
  tag : BitVec 32
  takeId : BitVec 32
  tent : BitVec 7
  /-- OPERANDS, bytes 16 to 63; byte b of the descriptor is bits [8(b-16)+7 : 8(b-16)]. -/
  ops : BitVec 384
deriving DecidableEq, Repr

/-- The protocol in which a message arrives on a fabric port (Table 16.1, Table 16.4). -/
inductive Proto where
  | native | cxlMem | cxlIo | cxlCache
deriving DecidableEq, Repr

/-- A message on a fabric port: the fields of the native header (Table 16.5) but TYPE, which the constructor gives, with its data.
A request in a CXL protocol fills the fields its own header has. -/
structure Msg where
  proto : Proto := .native
  contrib : Bool := false
  gsb : Bool := false
  hint : Bool := false
  hintAgent : BitVec 5 := 0
  hops : BitVec 3 := 6
  tc : BitVec 3 := 0
  pline : Bool := false
  /-- A reserved bit of the header is set. -/
  rsv : Bool := false
  op : Byte := 0
  /-- CXL.cache CacheID of a coherence message (Table 16.6). -/
  cacheId : BitVec 4 := 0
  snode : BitVec 14 := 0
  tag : BitVec 16 := 0
  addr : BitVec 64 := 0
  length : BitVec 13 := 0
  storedLen : BitVec 16 := 0
  status : BitVec 16 := 0
  seq : BitVec 16 := 0
  mask : BitVec 64 := 0
  data : List Byte := []
deriving DecidableEq, Repr

/-- A cell: crew 0 to 127, cell 0 to 31 (Table 0.5). -/
structure CellId where
  crew : BitVec 7
  cell : BitVec 5
deriving DecidableEq, Repr

/-- Condition codes of cmp and cmpi (Table 8.7). -/
inductive CC where
  | eq | ne | lt | ge | ltu | geu
deriving DecidableEq, Repr

/-- What a JTAG access asks for (Table 14.11). -/
inductive JtagOp where
  /-- Boundary scan, always available. -/
  | boundary
  /-- Crew memory or scratch of a crew: crew, local offset, value to write or none to read. -/
  | crewMem (crew : BitVec 7) (off : BitVec 21) (v : Option Byte)
  | scratch (c : CellId) (off : BitVec 16) (v : Option Byte)
  /-- Tier 0 by pooled-memory offset. -/
  | tier0 (off : BitVec 48) (v : Option Byte)
  /-- brk of a cell. -/
  | brk (c : CellId)
  /-- Single-step of a cell. -/
  | step (c : CellId)
deriving DecidableEq, Repr

/-- The commands: the Burpor instructions, the descriptors, then the other commands, each group in the order of the opcode table. -/
inductive Instr where
  /-- Scalar add. (R169) -/
  | add (c : CellId) (d s1 s2 : BitVec 5)
  /-- Scalar subtract. (R169) -/
  | sub (c : CellId) (d s1 s2 : BitVec 5)
  /-- Scalar bitwise AND. (R169) -/
  | and (c : CellId) (d s1 s2 : BitVec 5)
  /-- Scalar bitwise OR. (R169) -/
  | or (c : CellId) (d s1 s2 : BitVec 5)
  /-- Scalar bitwise XOR. (R169) -/
  | xor (c : CellId) (d s1 s2 : BitVec 5)
  /-- Scalar left shift. (R169) -/
  | shl (c : CellId) (d s1 s2 : BitVec 5)
  /-- Scalar zero-fill right shift. (R169) -/
  | shr (c : CellId) (d s1 s2 : BitVec 5)
  /-- Scalar sign-fill right shift. (R169) -/
  | sra (c : CellId) (d s1 s2 : BitVec 5)
  /-- Signed set-less-than. (R169) -/
  | slt (c : CellId) (d s1 s2 : BitVec 5)
  /-- Unsigned set-less-than. (R169) -/
  | sltu (c : CellId) (d s1 s2 : BitVec 5)
  /-- Signed minimum. (R169) -/
  | min (c : CellId) (d s1 s2 : BitVec 5)
  /-- Signed maximum. (R169) -/
  | max (c : CellId) (d s1 s2 : BitVec 5)
  /-- Unsigned minimum. (R169) -/
  | minu (c : CellId) (d s1 s2 : BitVec 5)
  /-- Unsigned maximum. (R169) -/
  | maxu (c : CellId) (d s1 s2 : BitVec 5)
  /-- Low 64 bits of a product. (R169) -/
  | mul (c : CellId) (d s1 s2 : BitVec 5)
  /-- High 64 bits of a signed product. (R169) -/
  | mulh (c : CellId) (d s1 s2 : BitVec 5)
  /-- High 64 bits of an unsigned product. (R169) -/
  | mulhu (c : CellId) (d s1 s2 : BitVec 5)
  /-- Signed divide. (R169) -/
  | div (c : CellId) (d s1 s2 : BitVec 5)
  /-- Unsigned divide. (R169) -/
  | divu (c : CellId) (d s1 s2 : BitVec 5)
  /-- Signed remainder. (R169) -/
  | rem (c : CellId) (d s1 s2 : BitVec 5)
  /-- Unsigned remainder. (R169) -/
  | remu (c : CellId) (d s1 s2 : BitVec 5)
  /-- Population count. (R169) -/
  | popc (c : CellId) (d s1 : BitVec 5)
  /-- Count leading zeros. (R169) -/
  | clz (c : CellId) (d s1 : BitVec 5)
  /-- Count trailing zeros. (R169) -/
  | ctz (c : CellId) (d s1 : BitVec 5)
  /-- Add an immediate. (R169) -/
  | addi (c : CellId) (d s1 : BitVec 5) (imm : BitVec 12)
  /-- AND with an immediate. (R169) -/
  | andi (c : CellId) (d s1 : BitVec 5) (imm : BitVec 12)
  /-- OR with an immediate. (R169) -/
  | ori (c : CellId) (d s1 : BitVec 5) (imm : BitVec 12)
  /-- XOR with an immediate. (R169) -/
  | xori (c : CellId) (d s1 : BitVec 5) (imm : BitVec 12)
  /-- Left shift by an immediate. (R169) -/
  | shli (c : CellId) (d s1 : BitVec 5) (imm : BitVec 6)
  /-- Zero-fill right shift by an immediate. (R169) -/
  | shri (c : CellId) (d s1 : BitVec 5) (imm : BitVec 6)
  /-- Sign-fill right shift by an immediate. (R169) -/
  | srai (c : CellId) (d s1 : BitVec 5) (imm : BitVec 6)
  /-- Compare registers into a predicate. (R169) -/
  | cmp (c : CellId) (cc : CC) (pd : BitVec 3) (s1 s2 : BitVec 5)
  /-- Compare with an immediate into a predicate. (R169) -/
  | cmpi (c : CellId) (cc : CC) (pd : BitVec 3) (s1 : BitVec 5) (imm : BitVec 12)
  /-- Predicate AND. (R169) -/
  | pand (c : CellId) (pd p1 p2 : BitVec 3)
  /-- Predicate OR. (R169) -/
  | por (c : CellId) (pd p1 p2 : BitVec 3)
  /-- Predicate XOR. (R169) -/
  | pxor (c : CellId) (pd p1 p2 : BitVec 3)
  /-- Predicate AND-NOT. (R169) -/
  | pandn (c : CellId) (pd p1 p2 : BitVec 3)
  /-- Select between registers by a predicate. (R169) -/
  | sel (c : CellId) (d s1 s2 : BitVec 5) (p : BitVec 3)
  /-- Move a predicate into a register. (R169) -/
  | pmov (c : CellId) (d : BitVec 5) (p1 : BitVec 3)
  /-- Set a predicate from a register. (R169) -/
  | pset (c : CellId) (pd : BitVec 3) (s1 : BitVec 5)
  /-- Load an upper immediate. (R169) -/
  | lui (c : CellId) (d : BitVec 5) (imm : BitVec 20)
  /-- Shift in 20 immediate bits. (R169) -/
  | lsh (c : CellId) (d : BitVec 5) (imm : BitVec 20)
  /-- Jump and link. (R170) -/
  | jal (c : CellId) (d : BitVec 5) (imm : BitVec 20)
  /-- PC-relative address. (R169) -/
  | lpc (c : CellId) (d : BitVec 5) (imm : BitVec 20)
  /-- Branch if equal. (R170) -/
  | beq (c : CellId) (s1 s2 : BitVec 5) (off : BitVec 12)
  /-- Branch if not equal. (R170) -/
  | bne (c : CellId) (s1 s2 : BitVec 5) (off : BitVec 12)
  /-- Branch if signed less. (R170) -/
  | blt (c : CellId) (s1 s2 : BitVec 5) (off : BitVec 12)
  /-- Branch if signed greater or equal. (R170) -/
  | bge (c : CellId) (s1 s2 : BitVec 5) (off : BitVec 12)
  /-- Branch if unsigned less. (R170) -/
  | bltu (c : CellId) (s1 s2 : BitVec 5) (off : BitVec 12)
  /-- Branch if unsigned greater or equal. (R170) -/
  | bgeu (c : CellId) (s1 s2 : BitVec 5) (off : BitVec 12)
  /-- Branch if the predicate is set. (R170) -/
  | bp (c : CellId) (p : BitVec 3) (off : BitVec 12)
  /-- Branch if the predicate is clear. (R170) -/
  | bnp (c : CellId) (p : BitVec 3) (off : BitVec 12)
  /-- Jump to a register target and link. (R170) -/
  | jalr (c : CellId) (d s1 : BitVec 5) (imm : BitVec 12)
  /-- Load a byte, sign-extended. (R171) -/
  | lb (c : CellId) (r b : BitVec 5) (off : BitVec 12)
  /-- Load a half, sign-extended. (R171) -/
  | lh (c : CellId) (r b : BitVec 5) (off : BitVec 12)
  /-- Load a word, sign-extended. (R171) -/
  | lw (c : CellId) (r b : BitVec 5) (off : BitVec 12)
  /-- Load a doubleword. (R171) -/
  | ld (c : CellId) (r b : BitVec 5) (off : BitVec 12)
  /-- Load a byte, zero-extended. (R171) -/
  | lbu (c : CellId) (r b : BitVec 5) (off : BitVec 12)
  /-- Load a half, zero-extended. (R171) -/
  | lhu (c : CellId) (r b : BitVec 5) (off : BitVec 12)
  /-- Load a word, zero-extended. (R171) -/
  | lwu (c : CellId) (r b : BitVec 5) (off : BitVec 12)
  /-- Store a byte. (R171) -/
  | sb (c : CellId) (r b : BitVec 5) (off : BitVec 12)
  /-- Store a half. (R171) -/
  | sh (c : CellId) (r b : BitVec 5) (off : BitVec 12)
  /-- Store a word. (R171) -/
  | sw (c : CellId) (r b : BitVec 5) (off : BitVec 12)
  /-- Store a doubleword. (R171) -/
  | st (c : CellId) (r b : BitVec 5) (off : BitVec 12)
  /-- Zero a local line and clear its poison mark. (R173) -/
  | zline (c : CellId) (b : BitVec 5) (off : BitVec 12)
  /-- Check and submit a dolly descriptor, returning a ticket. (R174) -/
  | dsub (c : CellId) (d s1 : BitVec 5)
  /-- Wait until the retired count reaches a ticket. (R176) -/
  | dwait (c : CellId) (s1 : BitVec 5)
  /-- Read the retired count. (R176) -/
  | dpoll (c : CellId) (d : BitVec 5)
  /-- Add to a clapper of the tent. (R177) -/
  | cadd (c : CellId) (d s1 s2 : BitVec 5)
  /-- Read a clapper of the tent. (R177) -/
  | cld (c : CellId) (d s1 : BitVec 5)
  /-- Wait until a clapper reaches a threshold. (R177) -/
  | cwait (c : CellId) (d s1 s2 : BitVec 5)
  /-- Enqueue an entry on a hardware queue. (R310) -/
  | qput (c : CellId) (d s1 s2 : BitVec 5)
  /-- Dequeue an entry from a hardware queue. (R310) -/
  | qget (c : CellId) (d s1 s2 : BitVec 5)
  /-- Wait for the cell's earlier stores, transfers, clapper and queue operations. (R179) -/
  | fence (c : CellId)
  /-- Fence, then wait at the crew barrier. (R179) -/
  | bar (c : CellId)
  /-- Fence, enter HALTED and add to the DONE clapper. (R181) -/
  | halt (c : CellId)
  /-- Raise TRAP with a value. (R180) -/
  | trap (c : CellId) (s1 : BitVec 5)
  /-- Raise BREAK. (R180) -/
  | brk (c : CellId)
  /-- Vector add. (R198) -/
  | vadd (c : CellId) (vd vs1 vs2 : BitVec 4) (t : BitVec 4) (p : BitVec 3)
  /-- Vector subtract. (R198) -/
  | vsub (c : CellId) (vd vs1 vs2 : BitVec 4) (t : BitVec 4) (p : BitVec 3)
  /-- Vector multiply. (R198) -/
  | vmul (c : CellId) (vd vs1 vs2 : BitVec 4) (t : BitVec 4) (p : BitVec 3)
  /-- Vector fused multiply-add. (R198) -/
  | vfma (c : CellId) (vd vs1 vs2 : BitVec 4) (t : BitVec 4) (p : BitVec 3)
  /-- Vector minimum. (R198) -/
  | vmin (c : CellId) (vd vs1 vs2 : BitVec 4) (t : BitVec 4) (p : BitVec 3)
  /-- Vector maximum. (R198) -/
  | vmax (c : CellId) (vd vs1 vs2 : BitVec 4) (t : BitVec 4) (p : BitVec 3)
  /-- Vector absolute value. (R198) -/
  | vabs (c : CellId) (vd vs1 : BitVec 4) (t : BitVec 4) (p : BitVec 3)
  /-- Vector negate. (R198) -/
  | vneg (c : CellId) (vd vs1 : BitVec 4) (t : BitVec 4) (p : BitVec 3)
  /-- Vector bitwise AND. (R198) -/
  | vand (c : CellId) (vd vs1 vs2 : BitVec 4) (t : BitVec 4) (p : BitVec 3)
  /-- Vector bitwise OR. (R198) -/
  | vor (c : CellId) (vd vs1 vs2 : BitVec 4) (t : BitVec 4) (p : BitVec 3)
  /-- Vector bitwise XOR. (R198) -/
  | vxor (c : CellId) (vd vs1 vs2 : BitVec 4) (t : BitVec 4) (p : BitVec 3)
  /-- Vector left shift. (R198) -/
  | vshl (c : CellId) (vd vs1 vs2 : BitVec 4) (t : BitVec 4) (p : BitVec 3)
  /-- Vector zero-fill right shift. (R198) -/
  | vshr (c : CellId) (vd vs1 vs2 : BitVec 4) (t : BitVec 4) (p : BitVec 3)
  /-- Vector sign-fill right shift. (R198) -/
  | vsra (c : CellId) (vd vs1 vs2 : BitVec 4) (t : BitVec 4) (p : BitVec 3)
  /-- Vector compare equal into a predicate. (R199) -/
  | vceq (c : CellId) (pd : BitVec 3) (vs1 vs2 : BitVec 4) (t : BitVec 4) (p : BitVec 3)
  /-- Vector compare less-than into a predicate. (R199) -/
  | vclt (c : CellId) (pd : BitVec 3) (vs1 vs2 : BitVec 4) (t : BitVec 4) (p : BitVec 3)
  /-- Vector compare less-or-equal into a predicate. (R199) -/
  | vcle (c : CellId) (pd : BitVec 3) (vs1 vs2 : BitVec 4) (t : BitVec 4) (p : BitVec 3)
  /-- Vector select by a predicate. (R198) -/
  | vsel (c : CellId) (vd vs1 vs2 : BitVec 4) (t : BitVec 4) (p : BitVec 3)
  /-- Vector base-2 exponential. (R200) -/
  | vexp2 (c : CellId) (vd vs1 : BitVec 4) (t : BitVec 4) (p : BitVec 3)
  /-- Vector base-2 logarithm. (R200) -/
  | vlog2 (c : CellId) (vd vs1 : BitVec 4) (t : BitVec 4) (p : BitVec 3)
  /-- Vector reciprocal. (R200) -/
  | vrcp (c : CellId) (vd vs1 : BitVec 4) (t : BitVec 4) (p : BitVec 3)
  /-- Vector reciprocal square root. (R200) -/
  | vrsqrt (c : CellId) (vd vs1 : BitVec 4) (t : BitVec 4) (p : BitVec 3)
  /-- Vector square root. (R200) -/
  | vsqrt (c : CellId) (vd vs1 : BitVec 4) (t : BitVec 4) (p : BitVec 3)
  /-- Vector move. (R198) -/
  | vmov (c : CellId) (vd vs1 : BitVec 4) (p : BitVec 3)
  /-- Dot product into fp32 or int32 lanes. (R201) -/
  | vdot (c : CellId) (vd vs1 vs2 : BitVec 4) (t : BitVec 4) (p : BitVec 3)
  /-- Dot product with the first operand taken from local memory. (R202) -/
  | vdotm (c : CellId) (vd n vs2 : BitVec 4) (t : BitVec 4) (p : BitVec 3)
  /-- VDOTM with a post-increment of the address. (R202) -/
  | vdotmPlus (c : CellId) (vd n vs2 : BitVec 4) (t : BitVec 4) (p : BitVec 3)
  /-- Vector format conversion. (R204) -/
  | vcvt (c : CellId) (vd vs1 x : BitVec 4) (t : BitVec 4) (p : BitVec 3) (op : BitVec 6)
  /-- Ordered-tree sum reduction. (R205) -/
  | vredsum (c : CellId) (vd vs1 : BitVec 4) (t : BitVec 4) (p : BitVec 3)
  /-- Maximum reduction. (R205) -/
  | vredmax (c : CellId) (vd vs1 : BitVec 4) (t : BitVec 4) (p : BitVec 3)
  /-- Minimum reduction. (R205) -/
  | vredmin (c : CellId) (vd vs1 : BitVec 4) (t : BitVec 4) (p : BitVec 3)
  /-- Bitwise OR reduction. (R205) -/
  | vredor (c : CellId) (vd vs1 : BitVec 4) (t : BitVec 4) (p : BitVec 3)
  /-- Byte permute. (R198) -/
  | vperm (c : CellId) (vd vs1 vs2 : BitVec 4) (p : BitVec 3)
  /-- Vector load. (R207) -/
  | vld (c : CellId) (v : BitVec 4) (b : BitVec 5) (off : BitVec 12)
  /-- Vector store. (R207) -/
  | vst (c : CellId) (v : BitVec 4) (b : BitVec 5) (off : BitVec 12)
  /-- Load an accumulator record. (R207) -/
  | xld (c : CellId) (x : BitVec 2) (b : BitVec 5) (off : BitVec 12)
  /-- Store an accumulator record. (R207) -/
  | xst (c : CellId) (x : BitVec 2) (b : BitVec 5) (off : BitVec 12)
  /-- Insert a 64-bit element into a vector. (R198) -/
  | vins (c : CellId) (vd : BitVec 4) (s1 s2 : BitVec 5)
  /-- Extract a 64-bit element from a vector. (R198) -/
  | vext (c : CellId) (d : BitVec 5) (vs1 : BitVec 4) (s2 : BitVec 5)
  /-- Broadcast a scalar into every element. (R198) -/
  | vsplat (c : CellId) (vd : BitVec 4) (s1 : BitVec 5) (t : BitVec 4)
  /-- Read out an exact accumulator with one rounding. (R212) -/
  | xrd (c : CellId) (d : BitVec 5) (xs : BitVec 2) (t : BitVec 4)
  /-- Read an accumulator's COUNT and FLAGS. (R209) -/
  | xflg (c : CellId) (d : BitVec 5) (xs : BitVec 2)
  /-- Compute a candidate MX block scale. (R197) -/
  | vmxexp (c : CellId) (d : BitVec 5) (vs1 : BitVec 4) (t : BitVec 4)
  /-- Empty an exact accumulator. (R209) -/
  | xclr (c : CellId) (xd : BitVec 2)
  /-- Add the governed elements exactly into an accumulator. (R210) -/
  | xadd (c : CellId) (xd : BitVec 2) (vs1 : BitVec 4) (t : BitVec 4) (p : BitVec 3)
  /-- Subtract the governed elements exactly from an accumulator. (R210) -/
  | xsub (c : CellId) (xd : BitVec 2) (vs1 : BitVec 4) (t : BitVec 4) (p : BitVec 3)
  /-- Merge one accumulator into another. (R211) -/
  | xmrg (c : CellId) (xd xs : BitVec 2)
  /-- A fetched descriptor whose opcode is not in the command set completes with BAD_OPCODE and has no effect. (R31) -/
  | badOpcode (opcode : BitVec 16) (q : QId) (d : Desc)
  /-- Returns the boot stage, the tamper lock bit and the current epoch; it is served even in tamper lockdown. (R31) -/
  | status (q : QId) (d : Desc)
  /-- Writes the 4 KiB identity page to the address given in the operands. (R31) -/
  | identify (q : QId) (d : Desc)
  /-- Returns the feature-disable fuse bitmap. (R445) -/
  | featureQuery (q : QId) (d : Desc)
  /-- Reads a register by CSR address and clears its RC fields. (R437) -/
  | csrRead (q : QId) (d : Desc)
  /-- Writes a register under a mask; a direct register is written at once, and a map register at a commit boundary. (R437) -/
  | csrWrite (q : QId) (d : Desc)
  /-- Copies entries of the RAS log or the rushes log into the operator window. (R359) -/
  | logRead (q : QId) (d : Desc)
  /-- Opens a take with a lease and returns its identifier. (R41) -/
  | takeBegin (q : QId) (d : Desc)
  /-- Validates the staged commands against the committed state and the whole-state checks, then flips the epoch or fails. (R44) -/
  | takeCommit (q : QId) (d : Desc)
  /-- Discards an open or failed take. (R42) -/
  | takeRollback (q : QId) (d : Desc)
  /-- Returns the state of a take, its staged count and the lease left. (R43) -/
  | takeQuery (q : QId) (d : Desc)
  /-- Creates a tent with its hash parameters, source list and keeper-generated slot key. (R317) -/
  | tentCreate (q : QId) (d : Desc)
  /-- Fences a tent, moves it to CLEARING and removes all of its objects. (R318) -/
  | tentDestroy (q : QId) (d : Desc)
  /-- Adds a range-gate entry, for the self node or an EDGE entry for an attached node. (R449) -/
  | rngAdd (q : QId) (d : Desc)
  /-- Removes a range-gate entry. (R321) -/
  | rngRemove (q : QId) (d : Desc)
  /-- Changes the RD, WR and ENG permissions of a range-gate entry. (R321) -/
  | rngModify (q : QId) (d : Desc)
  /-- Sets the role, mode and IDE setting of a fabric port; a changed port retrains. (R362) -/
  | portSetRole (q : QId) (d : Desc)
  /-- Admits or refuses traffic on a fabric port. (R363) -/
  | portEnable (q : QId) (d : Desc)
  /-- Retrains a link at MAX_RATE or below and reports the width and rate reached. (R364) -/
  | portRetrain (q : QId) (d : Desc)
  /-- Writes a NODE, DECODER, ATTACH or SELF route-table entry. (R63) -/
  | routeSet (q : QId) (d : Desc)
  /-- Clears a route-table entry. (R63) -/
  | routeClear (q : QId) (d : Desc)
  /-- Creates a zero-filled region in a tier, owned by TENT and holding the tent's hash parameters. (R86) -/
  | regionCreate (q : QId) (d : Desc)
  /-- Deletes a region at the boundary, closes its reader handles and frees its granules after the drain. (R87) -/
  | regionRelease (q : QId) (d : Desc)
  /-- Hands a region to another tent and removes the old owner's overlapping range-gate entries. (R52) -/
  | regionSetOwner (q : QId) (d : Desc)
  /-- Opens a region for reading by binding a reel, or for writing by creating a head, possibly waiting for a reel slot. (R90) -/
  | reelOpen (q : QId) (d : Desc)
  /-- Publishes the writer's head as the new current reel, closing the handle or reopening a head. (R93) -/
  | reelCommit (q : QId) (d : Desc)
  /-- Closes a reader handle or discards a writer's head. (R95) -/
  | reelClose (q : QId) (d : Desc)
  /-- Pairs a region with a mirror region on a partner switch. (R339) -/
  | guyLink (q : QId) (d : Desc)
  /-- Breaks a guy line; on a secondary this promotes the region. (R347) -/
  | guyUnlink (q : QId) (d : Desc)
  /-- Accepts a placement hint that moves the tiles of a range to a target tier. (R128) -/
  | placeHint (q : QId) (d : Desc)
  /-- Crypto-erases a region and zero-fills it. (R329) -/
  | memClear (q : QId) (d : Desc)
  /-- Reports the per-tier residency of a range and writes a summary. (R133) -/
  | tierQuery (q : QId) (d : Desc)
  /-- Enables or disables GSB compression for a region and starts its conversion. (R153) -/
  | cmpSetRegion (q : QId) (d : Desc)
  /-- Creates a hardware queue. (R306) -/
  | queueCreate (q : QId) (d : Desc)
  /-- Deletes a hardware queue; operations on it not yet applied fail. (R307) -/
  | queueDestroy (q : QId) (d : Desc)
  /-- Creates a tent command queue. (R314) -/
  | cmdqCreate (q : QId) (d : Desc)
  /-- Deletes a tent command queue and discards the commands it has not fetched. (R314) -/
  | cmdqDestroy (q : QId) (d : Desc)
  /-- Writes or deletes a two-bucket shaper entry. (R301) -/
  | shaperSet (q : QId) (d : Desc)
  /-- Allocates a clapper with an initial value. (R454) -/
  | clapAlloc (q : QId) (d : Desc)
  /-- Frees a clapper and aborts the waits on it. (R454) -/
  | clapFree (q : QId) (d : Desc)
  /-- Sets a clapper's counter and clears its overflow flag. (R53) -/
  | clapSet (q : QId) (d : Desc)
  /-- Adds to a clapper's counter, saturating on overflow. (R53) -/
  | clapAdd (q : QId) (d : Desc)
  /-- Completes at once if the threshold is met, otherwise arms a wait in a wait slot. (R54) -/
  | clapWait (q : QId) (d : Desc)
  /-- Returns a clapper's counter and its overflow flag. (R454) -/
  | clapRead (q : QId) (d : Desc)
  /-- Assigns crews to a tent or releases them from it. (R184) -/
  | crewAssign (q : QId) (d : Desc)
  /-- Loads a Burpor image into crews and adds its digest to the slate. (R186) -/
  | imageLoad (q : QId) (d : Desc)
  /-- Starts the selected cells of crews at an entry point. (R187) -/
  | crewStart (q : QId) (d : Desc)
  /-- Moves the running or waiting cells of crews to STOPPING. (R188) -/
  | crewStop (q : QId) (d : Desc)
  /-- Relocks the clocks of crew groups at a new frequency. (R402) -/
  | crewSetFreq (q : QId) (d : Desc)
  /-- Opens a collective window in a slot and binds its accumulator areas. (R223) -/
  | collOpen (q : QId) (d : Desc)
  /-- Closes a window, or rearms it for a new round. (R237) -/
  | collClose (q : QId) (d : Desc)
  /-- Writes the arrival report of a window. (R238) -/
  | collReport (q : QId) (d : Desc)
  /-- Defines or deletes an embedding table. (R247) -/
  | embDefine (q : QId) (d : Desc)
  /-- Replaces table rows while serving, each row at its own swap point. (R256) -/
  | embRowReplace (q : QId) (d : Desc)
  /-- Binds or unbinds a bag set of a table. (R250) -/
  | embBagSet (q : QId) (d : Desc)
  /-- Defines or deletes a paged KV cache. (R259) -/
  | kvDefine (q : QId) (d : Desc)
  /-- Maps pages, sets a sequence's length and binds or unbinds a view, all at one map point. (R261) -/
  | kvPageMap (q : QId) (d : Desc)
  /-- Starts split-softmax partial decode attention on crews. (R266) -/
  | attnDecode (q : QId) (d : Desc)
  /-- Writes a near-bank micro-program into an allotment's store slot on every unit. (R282) -/
  | nbuProgram (q : QId) (d : Desc)
  /-- Checks a near-bank run and queues it at the module. (R283) -/
  | nbuRun (q : QId) (d : Desc)
  /-- Resets a module's near-bank units. (R287) -/
  | nbuReset (q : QId) (d : Desc)
  /-- Turns a switched power domain on or off, or stops or runs its clock. (R404) -/
  | pwrSetDomain (q : QId) (d : Desc)
  /-- Starts the idle-then-reset sequence of one block, or a software device reset. (R395) -/
  | blockReset (q : QId) (d : Desc)
  /-- Enters SLEEP1 or SLEEP2. (R408) -/
  | pwrSleep (q : QId) (d : Desc)
  /-- Claims a function-switched pin and sets its function. (R424) -/
  | pinSetFunction (q : QId) (d : Desc)
  /-- Claims an interval timer. (R447) -/
  | timerClaim (q : QId) (d : Desc)
  /-- Claims a trace buffer or a multicast replication buffer. (R447) -/
  | bufferClaim (q : QId) (d : Desc)
  /-- Releases a resource claim. (R424) -/
  | resRelease (q : QId) (d : Desc)
  /-- Produces a signed slate, first measuring a held reel if one is named. (R332) -/
  | slateGet (q : QId) (d : Desc)
  /-- Verifies a debug-consent token and activates consent. (R333) -/
  | debugConsent (q : QId) (d : Desc)
  /-- Withdraws active debug consent. (R333) -/
  | debugRevoke (q : QId) (d : Desc)
  /-- Starts a shadow-compare session as the working switch or the candidate. (R351) -/
  | rushesBegin (q : QId) (d : Desc)
  /-- Ends a shadow-compare session. (R354) -/
  | rushesEnd (q : QId) (d : Desc)
  /-- Sets or removes the replica-aware read targets of a region. (R349) -/
  | replicaSet (q : QId) (d : Desc)
  /-- An open or failed take reaches the end of its lease and is rolled back, with TAKE_EXPIRED logged. (R43) -/
  | takeLeaseExpiry (take : BitVec 32)
  /-- The count of old-epoch requests reaches zero; the old map is freed, the drain clapper is advanced and a held commit flips. (R48) -/
  | oldMapFreed
  /-- 2 ms after the boundary, the old-epoch requests still in flight complete with an error and the old map is freed. (R48) -/
  | drainLimitExpiry
  /-- A write of a new tail index to a command queue's doorbell is validated; an invalid value sets ERROR. (R33) -/
  | cmdqDoorbell (q : QId) (v : BitVec 64)
  /-- A write of CQ_HEAD frees completion entries, or sets ERROR if the value is invalid. (R36) -/
  | cqHeadWrite (q : QId) (v : BitVec 64)
  /-- Setting ENABLE reads the ring base and size and starts fetching. (R451) -/
  | cmdqEnable (q : QId)
  /-- Clearing ENABLE discards the commands not yet fetched and empties the ring. (R33) -/
  | cmdqDisable (q : QId)
  /-- A doorbell-page write of TAIL publishes entries of a hardware queue and advances PUT_CLAPPER. (R309) -/
  | queueTailWrite (queue : BitVec 20) (v : BitVec 32)
  /-- A doorbell-page write of HEAD with RESET 0 frees entries and advances GET_CLAPPER. (R309) -/
  | queueHeadWrite (queue : BitVec 20) (v : BitVec 32)
  /-- A HEAD write with RESET 1 sets HEAD and TAIL and clears ERROR. (R309) -/
  | queueHeadReset (queue : BitVec 20) (v : BitVec 32)
  /-- A native or CXL read request is routed, checked at the range gate and served from its target. (R65) -/
  | read (port : BitVec 5) (m : Msg)
  /-- A native or CXL write request is routed, checked at the range gate and applied at its target. (R65) -/
  | write (port : BitVec 5) (m : Msg)
  /-- A one-line write under byte enables. (R373) -/
  | writePartial (port : BitVec 5) (m : Msg)
  /-- A native FENCE completes after every earlier request of the source through the port. (R72) -/
  | fenceRequest (port : BitVec 5) (m : Msg)
  /-- A native credit return. (R372) -/
  | credit (port : BitVec 5) (ret : BitVec 128)
  /-- The link-up grant of the first credits. (R372) -/
  | init (port : BitVec 5) (ret : BitVec 128)
  /-- A write, fence or error completion returns to its requester or to the engine that issued the request. (R374) -/
  | completion (port : BitVec 5) (m : Msg)
  /-- A read completion that carries data. (R374) -/
  | completionData (port : BitVec 5) (m : Msg)
  /-- A CXL.io configuration request, answered with retry status until boot stage 6: a write or a read of one 4-byte register of the configuration space. (R377, R453) -/
  | configRequest (port : BitVec 5) (tag : BitVec 16) (write : Bool) (reg : BitVec 10)
  /-- A tray module's CXL.mem response arrives with its tag-slot status. (R379) -/
  | trayResponse (tray : BitVec 3) (tag : BitVec 32) (status : BitVec 2) (poison : BitVec 64)
  /-- The secondary applies a mirrored write in sequence order. (R342) -/
  | mirror (port : BitVec 5) (m : Msg)
  /-- The secondary applies a commit point sent in sequence. (R103) -/
  | mirrorCommit (port : BitVec 5) (m : Msg)
  /-- The secondary's acknowledgement completes a mirrored write or a sync granule. (R342) -/
  | mirrorAck (port : BitVec 5) (m : Msg)
  /-- A guy-line link message is checked against the local guy line. (R340) -/
  | link (port : BitVec 5) (m : Msg)
  /-- A guy-line keep-alive from the partner arrives. (R343) -/
  | keepalive (port : BitVec 5) (m : Msg)
  /-- The partner reports that it has no such guy line. (R340) -/
  | notLinked (port : BitVec 5) (m : Msg)
  /-- The candidate applies a copied request in sequence order. (R352) -/
  | shadowCopy (port : BitVec 5) (m : Msg)
  /-- The working switch compares the candidate's response with its own. (R352) -/
  | shadowResult (port : BitVec 5) (m : Msg)
  /-- An agent requests a coherent line for sharing. (R111) -/
  | rdShared (port : BitVec 5) (cacheId : BitVec 4) (m : Msg)
  /-- An agent requests ownership of a coherent line. (R111) -/
  | rdOwn (port : BitVec 5) (cacheId : BitVec 4) (m : Msg)
  /-- An agent requests ownership without data. (R111) -/
  | ownNodata (port : BitVec 5) (cacheId : BitVec 4) (m : Msg)
  /-- An agent evicts a clean line. (R111) -/
  | evictClean (port : BitVec 5) (cacheId : BitVec 4) (m : Msg)
  /-- An agent evicts a dirty line. (R111) -/
  | evictDirty (port : BitVec 5) (cacheId : BitVec 4) (m : Msg)
  /-- An agent's snoop response leaves it in I. (R111) -/
  | ackI (port : BitVec 5) (cacheId : BitVec 4) (m : Msg)
  /-- An agent's snoop response leaves it in S. (R111) -/
  | ackS (port : BitVec 5) (cacheId : BitVec 4) (m : Msg)
  /-- The agent installs the hinted line in E. (R112) -/
  | hintAccept (port : BitVec 5) (cacheId : BitVec 4) (m : Msg)
  /-- The agent declines the hinted line. (R112) -/
  | hintDecline (port : BitVec 5) (cacheId : BitVec 4) (m : Msg)
  /-- Clean line data from an agent. (R110) -/
  | clean (port : BitVec 5) (cacheId : BitVec 4) (m : Msg)
  /-- Dirty line data from an agent, forwarded to the requester and written back. (R110) -/
  | dirty (port : BitVec 5) (cacheId : BitVec 4) (m : Msg)
  /-- A Snoop or Hint stays unanswered for SNOOP_TIMEOUT_US. (R119) -/
  | snoopTimeout (line : BitVec 48) (agent : BitVec 5)
  /-- The directory walk of a flush ends and the region or agent leaves the domain. (R118) -/
  | flushEnd (ofAgent : Bool) (n : BitVec 18)
  /-- A near-bank unit acknowledges a down message. (R277) -/
  | ack (tray : BitVec 3) (body : BitVec 512)
  /-- A near-bank unit returns register bytes. (R277) -/
  | regData (tray : BitVec 3) (body : BitVec 512)
  /-- A unit finishes a step; the run advances once every unit has reported. (R285) -/
  | stepDone (tray : BitVec 3) (body : BitVec 512)
  /-- A module reports that its near-bank reset is complete. (R287) -/
  | resetDone (tray : BitVec 3) (body : BitVec 512)
  /-- A module reports that calibration of a unit began or ended. (R289) -/
  | cal (tray : BitVec 3) (body : BitVec 512)
  /-- A module fails to answer a channel message within its time limit. (R282) -/
  | nbuAckTimeout (tray : BitVec 3) (tag : BitVec 16)
  /-- The module becomes free; the next run is chosen by fair queuing and starts. (R284) -/
  | runDequeue (tray : BitVec 3)
  /-- A unit has not sent STEP_DONE within STEP_TIMEOUT_MS; the run ends and the module is reset. (R286) -/
  | stepTimeout (tray : BitVec 3)
  /-- SPDM request served by the responder. (R383) -/
  | getVersion (params : List Byte)
  /-- SPDM request served by the responder. (R383) -/
  | getCapabilities (params : List Byte)
  /-- SPDM request served by the responder. (R383) -/
  | negotiateAlgorithms (params : List Byte)
  /-- SPDM request served by the responder. (R383) -/
  | getDigests (params : List Byte)
  /-- SPDM request that returns the attestation certificate chain. (R383) -/
  | getCertificate (params : List Byte)
  /-- SPDM challenge served by the responder. (R383) -/
  | challenge (params : List Byte)
  /-- SPDM request that returns measurement blocks 1 to 4. (R383) -/
  | getMeasurements (params : List Byte)
  /-- SPDM key exchange that opens a secured session. (R383) -/
  | keyExchange (params : List Byte)
  /-- SPDM FINISH that completes the session handshake. (R383) -/
  | finish (params : List Byte)
  /-- SPDM request that ends a secured session. (R383) -/
  | endSession (params : List Byte)
  /-- An armed wait's threshold is first met and the wait completes with SUCCESS. (R54) -/
  | clapWaitFired (slot : BitVec 18)
  /-- An armed wait's TIMEOUT_US expires first and it completes with TIMEOUT. (R54) -/
  | clapWaitTimeout (slot : BitVec 18)
  /-- A reel ceases to exist, and the waiting write open creates its head in the next cycle. (R92) -/
  | reelOpenWaitEnd (region : BitVec 18)
  /-- A waiting write open expires with TIMEOUT. (R92) -/
  | reelOpenTimeout (region : BitVec 18)
  /-- A reel ceases to exist, and the waiting commit commits and reopens in the next cycle. (R94) -/
  | reelCommitWaitEnd (region : BitVec 18)
  /-- A waiting commit expires with TIMEOUT and the writer stays open. (R94) -/
  | reelCommitTimeout (region : BitVec 18)
  /-- A copy-on-write copy ends and the writes that waited for it take effect. (R98) -/
  | copyComplete (region : BitVec 18) (granule : BitVec 24)
  /-- A promotion to tier 0 ends and the write that triggered it is applied. (R126) -/
  | promotionComplete (region : BitVec 18) (granule : BitVec 24)
  /-- A tile move's copy ends and its map entry switches to the target in one cycle. (R130) -/
  | tileSwitchOver (hint : BitVec 8) (tile : Nat)
  /-- The last copy of a whole-tensor move ends and the whole group switches over. (R131) -/
  | wholeTensorSwitchOver (hint : BitVec 8)
  /-- A tile rewritten by GSB conversion switches to its new form. (R154) -/
  | conversionSwitchOver (region : BitVec 18) (granule : BitVec 24)
  /-- A block re-encode begins once no further store waits, or after 128 merged stores. (R157) -/
  | reencodeStart (tile : Nat) (block : BitVec 5)
  /-- The new payload and header are in the write path; the merged stores complete. (R156) -/
  | reencodeComplete (tile : Nat) (block : BitVec 5)
  /-- A refresh that a tier-0 channel requires falls due. (R135) -/
  | hbmRefresh (channel : BitVec 7)
  /-- A scrub read of the next granule of a channel corrects errors or poisons lines. (R136) -/
  | scrubRead (channel : BitVec 7) (corrected : Bool) (lines : BitVec 4)
  /-- A telemetry counter is sampled on the internal management bus. (R135) -/
  | telemetrySample (addr : BitVec 24)
  /-- At the end of a 1-second interval, a channel's corrected-error count is compared with CE_ALERT. (R357) -/
  | ceAlertInterval (channel : BitVec 7)
  /-- The clear engine zeroes an uncleared or freed tile and returns it to the free pool. (R392) -/
  | clearEngineTile (store : BitVec 4)
  /-- A round's time reaches TIMEOUT_US and the window fails. (R243) -/
  | windowTimeout (slot : BitVec 16)
  /-- The fp64 ordered-tree sums of the window are computed. (R234) -/
  | f64TreeDone (slot : BitVec 16)
  /-- A filter's scan and output writes end. (R241) -/
  | filterScanDone (slot : BitVec 16)
  /-- A pooled-row output is dropped when BUF_HOLD_US has passed since it was computed. (R255) -/
  | bufHoldExpiry (entry : BitVec 32)
  /-- The decode kernel ends; the crews are zeroed and the command completes. (R267) -/
  | attnDecodeDone (op : BitVec 32)
  /-- Every 10 ms, a LINKING side sends a link message. (R340) -/
  | guyLinkTick (region : BitVec 18)
  /-- An idle SOLO primary sends a keep-alive every MIRROR_TIMEOUT_US / 4. (R343) -/
  | keepaliveTick (region : BitVec 18)
  /-- A mirror message stays unacknowledged for MIRROR_TIMEOUT_US and the primary enters SOLO. (R343) -/
  | mirrorTimeout (region : BitVec 18) (seq : BitVec 16)
  /-- The secondary hears nothing for MIRROR_TIMEOUT_US and enters STALE. (R345) -/
  | secondarySilence (region : BitVec 18)
  /-- A candidate response is more than 10 ms late; the session fails. (R354) -/
  | shadowResponseLate (seq : BitVec 64)
  /-- The dolly issues the next fabric request of a transfer, in submission order. (R175) -/
  | dollyRequestIssue (c : CellId)
  /-- A transfer retires: it writes its status, makes its writes visible and adds to its clapper. (R176) -/
  | dollyRetire (c : CellId) (ticket : BitVec 64)
  /-- After a faulted cell's transfers retire, the fault record is written and the FAULT clapper is advanced. (R180) -/
  | faultRecordWrite (c : CellId)
  /-- A stopping cell's begun work completes and the cell becomes IDLE. (R182) -/
  | cellStopComplete (c : CellId)
  /-- A released crew's memories are zeroed and the crew becomes free. (R184) -/
  | crewClearDone (crew : BitVec 7)
  /-- A crew group's PLL relocks at its new frequency and the group resumes. (R402) -/
  | pllRelockDone (group : BitVec 3)
  /-- An unassigned or malformed instruction raises ILLEGAL. (R168) -/
  | illegalInstruction (c : CellId) (w : BitVec 32)
  /-- A forwarded request exceeds TRANSIT_AGE_US and is discarded with a transit error. (R76) -/
  | transitAgeExpiry (txn : BitVec 32)
  /-- The hold on a path group ends; the held requests take paths over the new usable set. (R77) -/
  | failoverQuietEnd (ports : BitVec 20)
  /-- A port reaches L0; it becomes usable, starts its hold and authenticates sealed sources or admits a tray module. (R366) -/
  | linkUp (tray : Bool) (port : BitVec 5) (rate : BitVec 2) (width : BitVec 5) (dvsec : BitVec 128)
  /-- A port fails, by surprise down, viral, credit overflow or protocol violation, and its requests in flight complete with errors. (R79) -/
  | linkDown (tray : Bool) (port : BitVec 5)
  /-- A flit fails its CRC or FEC; a NAK is sent and the flits are replayed, retraining after 4 failures. (R375) -/
  | crcReplay (tray : Bool) (port : BitVec 5) (again : Bool)
  /-- A retraining port does not reach L0 within RETRAIN_LIMIT_MS and becomes unusable. (R367) -/
  | retrainLimitExpiry (tray : Bool) (port : BitVec 5)
  /-- The IDE_KM exchange completes and the port accepts requests. (R330) -/
  | ideKeysReady (port : BitVec 5)
  /-- An IDE integrity failure fails the port. (R375) -/
  | ideIntegrityFailure (port : BitVec 5)
  /-- A module's SPDM session ends; the module counts as UNITS 0 and its tiles are refused. (R382) -/
  | moduleSessionEnd (tray : BitVec 3)
  /-- At its staggered start time, a port turns on its terminations and begins training. (R376) -/
  | portStart (tray : Bool) (port : BitVec 5)
  /-- A start-up step completes and the boot stage advances. (R376) -/
  | bootStageAdvance (blob0 blob1 : List Byte)
  /-- The auxiliary rail rises or browns out, resetting everything including PD 0. (R387) -/
  | auxPor
  /-- The main rails rise while the auxiliary rail is present. (R387) -/
  | powerOn
  /-- A main rail stays below its brown-out level for 1 µs. (R415) -/
  | brownOut (rail : BitVec 3)
  /-- RST_N is asserted for at least 1 µs and the device is held in reset. (R387) -/
  | resetPin
  /-- The reset is released and the blocks leave reset in order. (R394) -/
  | resetRelease (straps : BitVec 5)
  /-- The watchdog period elapses without a kick. (R390) -/
  | watchdogExpiry
  /-- A write of 0x5A to KICK restarts the watchdog period. (R390) -/
  | watchdogKick
  /-- A write of 0xA5 to RST_CTL.DEVICE_RESET starts a device reset. (R387) -/
  | softwareDeviceReset
  /-- The JTAG DEVICE_RESET instruction resets the device. (R387) -/
  | debugDeviceReset
  /-- The gaffer or keeper double-faults or stalls for 10 ms, resetting the device. (R387) -/
  | lockup (keeper : Bool)
  /-- A critical-state error during start-up, test or recovery resets the device or halts boot. (R389) -/
  | critState (store : BitVec 4)
  /-- An uncorrectable error in both copies of a routing-map entry in normal service. (R356) -/
  | mapUncorrectable (table : BitVec 16) (entry : BitVec 64)
  /-- An uncorrectable key-slot error fences the slot's tent. (R355) -/
  | keySlotError (slot : BitVec 7)
  /-- A 10 µs measurement window of a clock ends and is judged. (R400) -/
  | clockMonitorWindow (clock : BitVec 5) (inRange : Bool)
  /-- A PLL loses lock, a clock leaves its range or a reference loses its edges; a device or block reset follows. (R401) -/
  | clockFailure (clock : BitVec 5)
  /-- A block being reset or powered down goes idle. (R395) -/
  | blockIdle (domain : Bool) (code : Byte)
  /-- The idle timeout passes and the work still in flight completes with an error. (R395) -/
  | idleTimeout (domain : Bool) (code : Byte)
  /-- After 64 cycles, reset is released and the block returns to service. (R395) -/
  | resetHoldEnd (code : Byte)
  /-- A STARTING domain finishes start-up and becomes ON. (R403) -/
  | domainStartupDone (d : BitVec 5)
  /-- A keeper operation ends and a deferred removal proceeds. (R406) -/
  | keeperOpEnd (d : BitVec 5)
  /-- The 1 ms deadline passes; the keeper aborts, zeroises keys, fences tents and releases the domain. (R406) -/
  | keeperDeadline (d : BitVec 5)
  /-- The WAKE_N pin ends SLEEP1, or wakes SLEEP2 as a device reset. (R409) -/
  | wakeN
  /-- A write of 1 to PWR_SLEEP_CTL.WAKE ends SLEEP1. (R409) -/
  | wakeBit
  /-- The sleep wake timer expires. (R407) -/
  | wakeTimer
  /-- A hard tamper input alarms; keys are zeroised, every tent is fenced and lockdown follows. (R334) -/
  | tamperHardAlarm (src : BitVec 2)
  /-- A glitch or temperature alarm is counted, aborts a key operation, or halts boot. (R334) -/
  | tamperSoftAlarm (temp : Bool)
  /-- The mesh input is compared with the LFSR pattern every 1/32,768 s. (R420) -/
  | meshSample (level : Bool)
  /-- A temperature reading updates THERM_N against THERM_C. (R429) -/
  | tempSample (reading : BitVec 16)
  /-- A filtered input holds a new level for 200 ns and the level is accepted. (R419) -/
  | inputAccepted (pin : BitVec 5) (level : Bool)
  /-- An excursion shorter than the filter is discarded and counted. (R419) -/
  | inputGlitch (pin : BitVec 5)
  /-- An interrupt input still active 10 ms after acceptance sets STUCK. (R420) -/
  | stuckTimer (pin : BitVec 5)
  /-- Each second, the tachometer count of edges is published. (R423) -/
  | tachUpdate (pin : BitVec 4)
  /-- After 80 ns at the safe level, a pin's new function is connected. (R425) -/
  | safeIntervalEnd (pin : BitVec 4)
  /-- Debug consent reaches its duration and ends. (R333) -/
  | consentExpiry (tent : BitVec 7)
  /-- A write to a register that has no step of its own applies its fields by access code. (R438) -/
  | registerWrite (addr : BitVec 24) (len : BitVec 4) (v : U64)
  /-- A read of a register with RC fields returns them and clears them. (R441) -/
  | registerReadClear (addr : BitVec 24) (len : BitVec 4)
  /-- An SPDM response or secured gate-message answer arrives from a module or an attached device to the keeper acting as requester. (R325) -/
  | spdmResponse (tray : Bool) (port : BitVec 5) (ok : Bool) (digest : List Byte)
  /-- A reserved shaper's slot falls due at the start of each period of CBS / CIR measured from its boundary. (R300) -/
  | reservedSlotDue (entry : BitVec 12)
  /-- A shaper bucket refills to the length of a waiting unit, so the unit becomes committed- or excess-eligible and can be served. (R298) -/
  | shaperBucketRefill (entry : BitVec 12)
  /-- A JTAG access through the debug port: boundary scan, memory access to tent data, or brk and single-step of a tent's cells, granted only under consent and the debug fuses. (R333) -/
  | jtagAccess (op : JtagOp)
  /-- A read or write through BAR2 of the management endpoint into the operator window of the gaffer's reserved area, where the operator queue rings and command operands lie. (R384) -/
  | operatorWindowAccess (write : Bool) (off : BitVec 28) (len : BitVec 13) (data : List Byte)
deriving DecidableEq, Repr

end Sys2Proof
end

