-- ==== Sys2Proof/Decode.lean ====
section
/-! DEFINITION. Bits and commands: decodeTableWord over the opcode table's rows (it gives bits to none), and the encodings of the Burpor instructions (R167, R168, R198, Tables 8.3 to 8.13 and 9.5 to 9.9), written out in both directions. -/

namespace Sys2Proof

/-- The command that a word of the opcode table's bits spells. The table gives bits to no row, so no word spells one. -/
def decodeTableWord (_nbits _w : Nat) : Option Instr := none

/-! ### Fields of an instruction word (Table 8.3) -/

/-- The opcodes of the command set of version 1.0 (R31, Tables 2.10 to 2.12). -/
def opcodes : List Nat :=
  [0x0001, 0x0002, 0x0003, 0x0004, 0x0005, 0x0006,
   0x0100, 0x0101, 0x0102, 0x0103,
   0x0200, 0x0201, 0x0210, 0x0211, 0x0212,
   0x0300, 0x0301, 0x0302, 0x0310, 0x0311,
   0x0400, 0x0401, 0x0402, 0x0410, 0x0411, 0x0412, 0x0420, 0x0421,
   0x0500, 0x0501, 0x0502, 0x0510,
   0x0600, 0x0601, 0x0602, 0x0603, 0x0610,
   0x0700, 0x0701, 0x0702, 0x0703, 0x0704, 0x0705,
   0x0800, 0x0801, 0x0802, 0x0803, 0x0804,
   0x0900, 0x0901, 0x0902,
   0x0A00, 0x0A01, 0x0A02, 0x0A10, 0x0A11, 0x0A12,
   0x0B00, 0x0B01, 0x0B02,
   0x0C00, 0x0C01, 0x0C02,
   0x0D00, 0x0D01, 0x0D02, 0x0D03,
   0x0E00, 0x0E01, 0x0E02,
   0x0F00, 0x0F01, 0x0F02]

/-- An opcode that Tables 2.10 to 2.12 list (R31). -/
def listedOpcode (o : BitVec 16) : Bool := opcodes.contains o.toNat

/-- Major opcode, [31:25]. -/
def wMajor (w : BitVec 32) : BitVec 7 := w.extractLsb' 25 7
/-- dest, reg or the branch's src1, [24:20]. -/
def wDest (w : BitVec 32) : BitVec 5 := w.extractLsb' 20 5
/-- src1, base or the branch's src2, [19:15]. -/
def wSrc1 (w : BitVec 32) : BitVec 5 := w.extractLsb' 15 5
/-- src2 of the Register format, [14:10]. -/
def wSrc2 (w : BitVec 32) : BitVec 5 := w.extractLsb' 10 5
/-- minor of the Register format, [9:0]. -/
def wMinor (w : BitVec 32) : BitVec 10 := w.extractLsb' 0 10
/-- minor or cond, [14:12]. -/
def wCond (w : BitVec 32) : BitVec 3 := w.extractLsb' 12 3
/-- imm12 or off12, [11:0]. -/
def wImm12 (w : BitVec 32) : BitVec 12 := w.extractLsb' 0 12
/-- imm20, [19:0]. -/
def wImm20 (w : BitVec 32) : BitVec 20 := w.extractLsb' 0 20
/-- vdest, [24:21]. -/
def wVd (w : BitVec 32) : BitVec 4 := w.extractLsb' 21 4
/-- vsrc1, [20:17]. -/
def wVs1 (w : BitVec 32) : BitVec 4 := w.extractLsb' 17 4
/-- vsrc2, [16:13]. -/
def wVs2 (w : BitVec 32) : BitVec 4 := w.extractLsb' 13 4
/-- Format tag, [12:9]. -/
def wTag (w : BitVec 32) : BitVec 4 := w.extractLsb' 9 4
/-- Governing or scale predicate, [8:6]. -/
def wPred (w : BitVec 32) : BitVec 3 := w.extractLsb' 6 3
/-- Operation of the Vector format, [5:0]. -/
def wOp (w : BitVec 32) : BitVec 6 := w.extractLsb' 0 6

/-! ### Formats (Table 8.3) -/

/-- Register format. -/
def fmtR (major : BitVec 7) (d a b : BitVec 5) (minor : BitVec 10) : BitVec 32 := major ++ d ++ a ++ b ++ minor
/-- Immediate, Memory and Branch formats. -/
def fmtI (major : BitVec 7) (d a : BitVec 5) (minor : BitVec 3) (imm : BitVec 12) : BitVec 32 := major ++ d ++ a ++ minor ++ imm
/-- Long format. -/
def fmtL (major : BitVec 7) (d : BitVec 5) (imm : BitVec 20) : BitVec 32 := major ++ d ++ imm
/-- Vector format. -/
def fmtV (major : BitVec 7) (vd a b t : BitVec 4) (p : BitVec 3) (op : BitVec 6) : BitVec 32 := major ++ vd ++ a ++ b ++ t ++ p ++ op

/-- A predicate in a 5-bit field: bits [4:3] are 0 (R167). -/
def p5 (p : BitVec 3) : BitVec 5 := 0#2 ++ p
/-- A vector register in a 5-bit field: bit 4 is 0 (R198). -/
def v5 (v : BitVec 4) : BitVec 5 := 0#1 ++ v
/-- An accumulator in a 5-bit field. -/
def x5 (x : BitVec 2) : BitVec 5 := 0#3 ++ x
/-- A predicate in a 4-bit field: the top bit is 0 (R198). -/
def p4 (p : BitVec 3) : BitVec 4 := 0#1 ++ p
/-- An accumulator in a 4-bit field: the top two bits are 0 (R198). -/
def x4 (x : BitVec 2) : BitVec 4 := 0#2 ++ x

/-- Code of a condition (Table 8.7). -/
def ccCode : CC → BitVec 3
  | .eq => 0
  | .ne => 1
  | .lt => 2
  | .ge => 3
  | .ltu => 4
  | .geu => 5

/-- The word of a Burpor instruction; none for the other commands. -/
def encodeBurpor : Instr → Option (BitVec 32)
  | .add _ d a b => some (fmtR 0x01 d a b 0x000)
  | .sub _ d a b => some (fmtR 0x01 d a b 0x001)
  | .and _ d a b => some (fmtR 0x01 d a b 0x002)
  | .or _ d a b => some (fmtR 0x01 d a b 0x003)
  | .xor _ d a b => some (fmtR 0x01 d a b 0x004)
  | .shl _ d a b => some (fmtR 0x01 d a b 0x005)
  | .shr _ d a b => some (fmtR 0x01 d a b 0x006)
  | .sra _ d a b => some (fmtR 0x01 d a b 0x007)
  | .slt _ d a b => some (fmtR 0x01 d a b 0x008)
  | .sltu _ d a b => some (fmtR 0x01 d a b 0x009)
  | .min _ d a b => some (fmtR 0x01 d a b 0x00A)
  | .max _ d a b => some (fmtR 0x01 d a b 0x00B)
  | .minu _ d a b => some (fmtR 0x01 d a b 0x00C)
  | .maxu _ d a b => some (fmtR 0x01 d a b 0x00D)
  | .mul _ d a b => some (fmtR 0x01 d a b 0x010)
  | .mulh _ d a b => some (fmtR 0x01 d a b 0x011)
  | .mulhu _ d a b => some (fmtR 0x01 d a b 0x012)
  | .div _ d a b => some (fmtR 0x01 d a b 0x014)
  | .divu _ d a b => some (fmtR 0x01 d a b 0x015)
  | .rem _ d a b => some (fmtR 0x01 d a b 0x016)
  | .remu _ d a b => some (fmtR 0x01 d a b 0x017)
  | .popc _ d a => some (fmtR 0x01 d a 0 0x018)
  | .clz _ d a => some (fmtR 0x01 d a 0 0x019)
  | .ctz _ d a => some (fmtR 0x01 d a 0 0x01A)
  | .addi _ d a i => some (fmtI 0x04 d a 0 i)
  | .andi _ d a i => some (fmtI 0x04 d a 1 i)
  | .ori _ d a i => some (fmtI 0x04 d a 2 i)
  | .xori _ d a i => some (fmtI 0x04 d a 3 i)
  | .shli _ d a i => some (fmtI 0x04 d a 4 (0#6 ++ i))
  | .shri _ d a i => some (fmtI 0x04 d a 5 (0#6 ++ i))
  | .srai _ d a i => some (fmtI 0x04 d a 6 (0#6 ++ i))
  | .cmp _ cc pd a b => some (fmtR 0x02 (p5 pd) a b (0#7 ++ ccCode cc))
  | .cmpi _ cc pd a i => some (fmtI 0x05 (p5 pd) a (ccCode cc) i)
  | .pand _ pd a b => some (fmtR 0x03 (p5 pd) (p5 a) (p5 b) 0x000)
  | .por _ pd a b => some (fmtR 0x03 (p5 pd) (p5 a) (p5 b) 0x001)
  | .pxor _ pd a b => some (fmtR 0x03 (p5 pd) (p5 a) (p5 b) 0x002)
  | .pandn _ pd a b => some (fmtR 0x03 (p5 pd) (p5 a) (p5 b) 0x003)
  | .sel _ d a b p => some (fmtR 0x03 d a b (p ++ 0x04#7))
  | .pmov _ d a => some (fmtR 0x03 d (p5 a) 0 0x005)
  | .pset _ pd a => some (fmtR 0x03 (p5 pd) a 0 0x006)
  | .lui _ d i => some (fmtL 0x10 d i)
  | .lsh _ d i => some (fmtL 0x11 d i)
  | .jal _ d i => some (fmtL 0x12 d i)
  | .lpc _ d i => some (fmtL 0x13 d i)
  | .beq _ a b o => some (fmtI 0x0C a b 0 o)
  | .bne _ a b o => some (fmtI 0x0C a b 1 o)
  | .blt _ a b o => some (fmtI 0x0C a b 2 o)
  | .bge _ a b o => some (fmtI 0x0C a b 3 o)
  | .bltu _ a b o => some (fmtI 0x0C a b 4 o)
  | .bgeu _ a b o => some (fmtI 0x0C a b 5 o)
  | .bp _ p o => some (fmtI 0x0C (p5 p) 0 6 o)
  | .bnp _ p o => some (fmtI 0x0C (p5 p) 0 7 o)
  | .jalr _ d a i => some (fmtI 0x0D d a 0 i)
  | .lb _ r b o => some (fmtI 0x08 r b 0 o)
  | .lh _ r b o => some (fmtI 0x08 r b 1 o)
  | .lw _ r b o => some (fmtI 0x08 r b 2 o)
  | .ld _ r b o => some (fmtI 0x08 r b 3 o)
  | .lbu _ r b o => some (fmtI 0x08 r b 4 o)
  | .lhu _ r b o => some (fmtI 0x08 r b 5 o)
  | .lwu _ r b o => some (fmtI 0x08 r b 6 o)
  | .sb _ r b o => some (fmtI 0x09 r b 0 o)
  | .sh _ r b o => some (fmtI 0x09 r b 1 o)
  | .sw _ r b o => some (fmtI 0x09 r b 2 o)
  | .st _ r b o => some (fmtI 0x09 r b 3 o)
  | .zline _ b o => some (fmtI 0x0A 0 b 0 o)
  | .dsub _ d a => some (fmtR 0x18 d a 0 0x000)
  | .dwait _ a => some (fmtR 0x18 0 a 0 0x001)
  | .dpoll _ d => some (fmtR 0x18 d 0 0 0x002)
  | .cadd _ d a b => some (fmtR 0x18 d a b 0x008)
  | .cld _ d a => some (fmtR 0x18 d a 0 0x009)
  | .cwait _ d a b => some (fmtR 0x18 d a b 0x00A)
  | .qput _ d a b => some (fmtR 0x18 d a b 0x010)
  | .qget _ d a b => some (fmtR 0x18 d a b 0x011)
  | .fence _ => some (fmtR 0x18 0 0 0 0x018)
  | .bar _ => some (fmtR 0x18 0 0 0 0x019)
  | .halt _ => some (fmtR 0x18 0 0 0 0x020)
  | .trap _ a => some (fmtR 0x18 0 a 0 0x021)
  | .brk _ => some (fmtR 0x18 0 0 0 0x022)
  | .vadd _ d a b t p => some (fmtV 0x40 d a b t p 0x00)
  | .vsub _ d a b t p => some (fmtV 0x40 d a b t p 0x01)
  | .vmul _ d a b t p => some (fmtV 0x40 d a b t p 0x02)
  | .vfma _ d a b t p => some (fmtV 0x40 d a b t p 0x03)
  | .vmin _ d a b t p => some (fmtV 0x40 d a b t p 0x04)
  | .vmax _ d a b t p => some (fmtV 0x40 d a b t p 0x05)
  | .vabs _ d a t p => some (fmtV 0x40 d a 0 t p 0x06)
  | .vneg _ d a t p => some (fmtV 0x40 d a 0 t p 0x07)
  | .vand _ d a b t p => some (fmtV 0x40 d a b t p 0x08)
  | .vor _ d a b t p => some (fmtV 0x40 d a b t p 0x09)
  | .vxor _ d a b t p => some (fmtV 0x40 d a b t p 0x0A)
  | .vshl _ d a b t p => some (fmtV 0x40 d a b t p 0x0B)
  | .vshr _ d a b t p => some (fmtV 0x40 d a b t p 0x0C)
  | .vsra _ d a b t p => some (fmtV 0x40 d a b t p 0x0D)
  | .vceq _ pd a b t p => some (fmtV 0x40 (p4 pd) a b t p 0x10)
  | .vclt _ pd a b t p => some (fmtV 0x40 (p4 pd) a b t p 0x11)
  | .vcle _ pd a b t p => some (fmtV 0x40 (p4 pd) a b t p 0x12)
  | .vsel _ d a b t p => some (fmtV 0x40 d a b t p 0x14)
  | .vexp2 _ d a t p => some (fmtV 0x40 d a 0 t p 0x18)
  | .vlog2 _ d a t p => some (fmtV 0x40 d a 0 t p 0x19)
  | .vrcp _ d a t p => some (fmtV 0x40 d a 0 t p 0x1A)
  | .vrsqrt _ d a t p => some (fmtV 0x40 d a 0 t p 0x1B)
  | .vsqrt _ d a t p => some (fmtV 0x40 d a 0 t p 0x1C)
  | .vmov _ d a p => some (fmtV 0x40 d a 0 0 p 0x20)
  | .vdot _ d a b t p => some (fmtV 0x41 d a b t p 0x00)
  | .vdotm _ d n b t p => some (fmtV 0x41 d n b t p 0x01)
  | .vdotmPlus _ d n b t p => some (fmtV 0x41 d n b t p 0x02)
  | .vcvt _ d a x t p op => some (fmtV 0x42 d a x t p op)
  | .vredsum _ d a t p => some (fmtV 0x43 d a 0 t p 0x00)
  | .vredmax _ d a t p => some (fmtV 0x43 d a 0 t p 0x01)
  | .vredmin _ d a t p => some (fmtV 0x43 d a 0 t p 0x02)
  | .vredor _ d a t p => some (fmtV 0x43 d a 0 t p 0x03)
  | .vperm _ d a b p => some (fmtV 0x43 d a b 0 p 0x08)
  | .vld _ v b o => some (fmtI 0x48 (v5 v) b 0 o)
  | .vst _ v b o => some (fmtI 0x49 (v5 v) b 0 o)
  | .xld _ x b o => some (fmtI 0x4C (x5 x) b 0 o)
  | .xst _ x b o => some (fmtI 0x4D (x5 x) b 0 o)
  | .vins _ vd a b => some (fmtR 0x4A (v5 vd) a b 0x000)
  | .vext _ d vs b => some (fmtR 0x4A d (v5 vs) b 0x001)
  | .vsplat _ vd a t => some (fmtR 0x4A (v5 vd) a (v5 t) 0x002)
  | .xrd _ d x t => some (fmtR 0x4A d (x5 x) (v5 t) 0x010)
  | .xflg _ d x => some (fmtR 0x4A d (x5 x) 0 0x011)
  | .vmxexp _ d vs t => some (fmtR 0x4A d (v5 vs) (v5 t) 0x012)
  | .xclr _ x => some (fmtV 0x44 (x4 x) 0 0 0 0 0x00)
  | .xadd _ x vs t p => some (fmtV 0x44 (x4 x) vs 0 t p 0x01)
  | .xsub _ x vs t p => some (fmtV 0x44 (x4 x) vs 0 t p 0x02)
  | .xmrg _ x y => some (fmtV 0x44 (x4 x) (x4 y) 0 0 0 0x03)
  | _ => none

/-! ### Reading fields back -/

/-- The predicate that a 5-bit field names. -/
def rP5 (x : BitVec 5) : Option (BitVec 3) := if x.extractLsb' 3 2 = 0 then some (x.extractLsb' 0 3) else none
/-- The vector register that a 5-bit field names. -/
def rV5 (x : BitVec 5) : Option (BitVec 4) := if x.extractLsb' 4 1 = 0 then some (x.extractLsb' 0 4) else none
/-- The accumulator that a 5-bit field names. -/
def rX5 (x : BitVec 5) : Option (BitVec 2) := if x.extractLsb' 2 3 = 0 then some (x.extractLsb' 0 2) else none
/-- The predicate that a 4-bit field names. -/
def rP4 (x : BitVec 4) : Option (BitVec 3) := if x.extractLsb' 3 1 = 0 then some (x.extractLsb' 0 3) else none
/-- The accumulator that a 4-bit field names. -/
def rX4 (x : BitVec 4) : Option (BitVec 2) := if x.extractLsb' 2 2 = 0 then some (x.extractLsb' 0 2) else none
/-- A field that the instruction does not use is 0 (R168). -/
def rZero {n : Nat} (x : BitVec n) (i : Instr) : Option Instr := if x = 0 then some i else none
/-- The condition of a code. -/
def rCC (x : BitVec 3) : Option CC :=
  match x.toNat with
  | 0 => some .eq
  | 1 => some .ne
  | 2 => some .lt
  | 3 => some .ge
  | 4 => some .ltu
  | 5 => some .geu
  | _ => none

/-- Majors 0x01 and 0x18 (Tables 8.5 and 8.13). -/
def decodeScalar (c : CellId) (w : BitVec 32) : Option Instr :=
  let d := wDest w
  let a := wSrc1 w
  let b := wSrc2 w
  match (wMinor w).toNat with
  | 0x000 => some (.add c d a b)
  | 0x001 => some (.sub c d a b)
  | 0x002 => some (.and c d a b)
  | 0x003 => some (.or c d a b)
  | 0x004 => some (.xor c d a b)
  | 0x005 => some (.shl c d a b)
  | 0x006 => some (.shr c d a b)
  | 0x007 => some (.sra c d a b)
  | 0x008 => some (.slt c d a b)
  | 0x009 => some (.sltu c d a b)
  | 0x00A => some (.min c d a b)
  | 0x00B => some (.max c d a b)
  | 0x00C => some (.minu c d a b)
  | 0x00D => some (.maxu c d a b)
  | 0x010 => some (.mul c d a b)
  | 0x011 => some (.mulh c d a b)
  | 0x012 => some (.mulhu c d a b)
  | 0x014 => some (.div c d a b)
  | 0x015 => some (.divu c d a b)
  | 0x016 => some (.rem c d a b)
  | 0x017 => some (.remu c d a b)
  | 0x018 => rZero b (.popc c d a)
  | 0x019 => rZero b (.clz c d a)
  | 0x01A => rZero b (.ctz c d a)
  | _ => none

/-- Major 0x18 (Table 8.13). -/
def decodeSystem (c : CellId) (w : BitVec 32) : Option Instr :=
  let d := wDest w
  let a := wSrc1 w
  let b := wSrc2 w
  match (wMinor w).toNat with
  | 0x000 => rZero b (.dsub c d a)
  | 0x001 => rZero (d ++ b) (.dwait c a)
  | 0x002 => rZero (a ++ b) (.dpoll c d)
  | 0x008 => some (.cadd c d a b)
  | 0x009 => rZero b (.cld c d a)
  | 0x00A => some (.cwait c d a b)
  | 0x010 => some (.qput c d a b)
  | 0x011 => some (.qget c d a b)
  | 0x018 => rZero (d ++ a ++ b) (.fence c)
  | 0x019 => rZero (d ++ a ++ b) (.bar c)
  | 0x020 => rZero (d ++ a ++ b) (.halt c)
  | 0x021 => rZero (d ++ b) (.trap c a)
  | 0x022 => rZero (d ++ a ++ b) (.brk c)
  | _ => none

/-- Major 0x03 (Table 8.7). -/
def decodePred (c : CellId) (w : BitVec 32) : Option Instr :=
  let d := wDest w
  let a := wSrc1 w
  let b := wSrc2 w
  if (wMinor w).extractLsb' 0 7 = 0x04#7 then some (.sel c d a b ((wMinor w).extractLsb' 7 3)) else
  match (wMinor w).toNat with
  | 0x000 => do some (.pand c (← rP5 d) (← rP5 a) (← rP5 b))
  | 0x001 => do some (.por c (← rP5 d) (← rP5 a) (← rP5 b))
  | 0x002 => do some (.pxor c (← rP5 d) (← rP5 a) (← rP5 b))
  | 0x003 => do some (.pandn c (← rP5 d) (← rP5 a) (← rP5 b))
  | 0x005 => (rP5 a).bind fun a => rZero b (.pmov c d a)
  | 0x006 => (rP5 d).bind fun d => rZero b (.pset c d a)
  | _ => none

/-- Major 0x04 (Table 8.6). -/
def decodeImm (c : CellId) (w : BitVec 32) : Option Instr :=
  let d := wDest w
  let a := wSrc1 w
  let i := wImm12 w
  let sh := i.extractLsb' 0 6
  match (wCond w).toNat with
  | 0 => some (.addi c d a i)
  | 1 => some (.andi c d a i)
  | 2 => some (.ori c d a i)
  | 3 => some (.xori c d a i)
  | 4 => rZero (i.extractLsb' 6 6) (.shli c d a sh)
  | 5 => rZero (i.extractLsb' 6 6) (.shri c d a sh)
  | 6 => rZero (i.extractLsb' 6 6) (.srai c d a sh)
  | _ => none

/-- Majors 0x08, 0x09 and 0x0A (Table 8.10). -/
def decodeMemory (c : CellId) (w : BitVec 32) : Option Instr :=
  let d := wDest w
  let a := wSrc1 w
  let o := wImm12 w
  match (wMajor w).toNat, (wCond w).toNat with
  | 0x08, 0 => some (.lb c d a o)
  | 0x08, 1 => some (.lh c d a o)
  | 0x08, 2 => some (.lw c d a o)
  | 0x08, 3 => some (.ld c d a o)
  | 0x08, 4 => some (.lbu c d a o)
  | 0x08, 5 => some (.lhu c d a o)
  | 0x08, 6 => some (.lwu c d a o)
  | 0x09, 0 => some (.sb c d a o)
  | 0x09, 1 => some (.sh c d a o)
  | 0x09, 2 => some (.sw c d a o)
  | 0x09, 3 => some (.st c d a o)
  | 0x0A, 0 => rZero d (.zline c a o)
  | _, _ => none

/-- Major 0x0C (Table 8.9). -/
def decodeBranch (c : CellId) (w : BitVec 32) : Option Instr :=
  let a := wDest w
  let b := wSrc1 w
  let o := wImm12 w
  match (wCond w).toNat with
  | 0 => some (.beq c a b o)
  | 1 => some (.bne c a b o)
  | 2 => some (.blt c a b o)
  | 3 => some (.bge c a b o)
  | 4 => some (.bltu c a b o)
  | 5 => some (.bgeu c a b o)
  | 6 => (rP5 a).bind fun p => rZero b (.bp c p o)
  | _ => (rP5 a).bind fun p => rZero b (.bnp c p o)

/-- Major 0x40 (Table 9.6). -/
def decodeElement (c : CellId) (w : BitVec 32) : Option Instr :=
  let d := wVd w
  let a := wVs1 w
  let b := wVs2 w
  let t := wTag w
  let p := wPred w
  match (wOp w).toNat with
  | 0x00 => some (.vadd c d a b t p)
  | 0x01 => some (.vsub c d a b t p)
  | 0x02 => some (.vmul c d a b t p)
  | 0x03 => some (.vfma c d a b t p)
  | 0x04 => some (.vmin c d a b t p)
  | 0x05 => some (.vmax c d a b t p)
  | 0x06 => rZero b (.vabs c d a t p)
  | 0x07 => rZero b (.vneg c d a t p)
  | 0x08 => some (.vand c d a b t p)
  | 0x09 => some (.vor c d a b t p)
  | 0x0A => some (.vxor c d a b t p)
  | 0x0B => some (.vshl c d a b t p)
  | 0x0C => some (.vshr c d a b t p)
  | 0x0D => some (.vsra c d a b t p)
  | 0x10 => (rP4 d).bind fun pd => some (.vceq c pd a b t p)
  | 0x11 => (rP4 d).bind fun pd => some (.vclt c pd a b t p)
  | 0x12 => (rP4 d).bind fun pd => some (.vcle c pd a b t p)
  | 0x14 => some (.vsel c d a b t p)
  | 0x18 => rZero b (.vexp2 c d a t p)
  | 0x19 => rZero b (.vlog2 c d a t p)
  | 0x1A => rZero b (.vrcp c d a t p)
  | 0x1B => rZero b (.vrsqrt c d a t p)
  | 0x1C => rZero b (.vsqrt c d a t p)
  | 0x20 => rZero (b ++ t) (.vmov c d a p)
  | _ => none

/-- Majors 0x41, 0x42, 0x43 and 0x44 (Tables 9.7 to 9.9, R204). -/
def decodeVector (c : CellId) (w : BitVec 32) : Option Instr :=
  let d := wVd w
  let a := wVs1 w
  let b := wVs2 w
  let t := wTag w
  let p := wPred w
  match (wMajor w).toNat, (wOp w).toNat with
  | 0x41, 0x00 => some (.vdot c d a b t p)
  | 0x41, 0x01 => some (.vdotm c d a b t p)
  | 0x41, 0x02 => some (.vdotmPlus c d a b t p)
  | 0x42, _ => some (.vcvt c d a b t p (wOp w))
  | 0x43, 0x00 => rZero b (.vredsum c d a t p)
  | 0x43, 0x01 => rZero b (.vredmax c d a t p)
  | 0x43, 0x02 => rZero b (.vredmin c d a t p)
  | 0x43, 0x03 => rZero b (.vredor c d a t p)
  | 0x43, 0x08 => rZero t (.vperm c d a b p)
  | 0x44, 0x00 => (rX4 d).bind fun x => rZero (a ++ b ++ t ++ p) (.xclr c x)
  | 0x44, 0x01 => (rX4 d).bind fun x => rZero b (.xadd c x a t p)
  | 0x44, 0x02 => (rX4 d).bind fun x => rZero b (.xsub c x a t p)
  | 0x44, 0x03 => (rX4 d).bind fun x => (rX4 a).bind fun y => rZero (b ++ t ++ p) (.xmrg c x y)
  | _, _ => none

/-- Majors 0x48 to 0x4D (Table 9.9). -/
def decodeVecMem (c : CellId) (w : BitVec 32) : Option Instr :=
  let d := wDest w
  let a := wSrc1 w
  let o := wImm12 w
  match (wMajor w).toNat, (wCond w).toNat with
  | 0x48, 0 => (rV5 d).bind fun v => some (.vld c v a o)
  | 0x49, 0 => (rV5 d).bind fun v => some (.vst c v a o)
  | 0x4C, 0 => (rX5 d).bind fun x => some (.xld c x a o)
  | 0x4D, 0 => (rX5 d).bind fun x => some (.xst c x a o)
  | _, _ => none

/-- Major 0x4A (Table 9.9). -/
def decodeVecMove (c : CellId) (w : BitVec 32) : Option Instr :=
  let d := wDest w
  let a := wSrc1 w
  let b := wSrc2 w
  match (wMinor w).toNat with
  | 0x000 => (rV5 d).bind fun v => some (.vins c v a b)
  | 0x001 => (rV5 a).bind fun v => some (.vext c d v b)
  | 0x002 => (rV5 d).bind fun v => (rV5 b).bind fun t => some (.vsplat c v a t)
  | 0x010 => (rX5 a).bind fun x => (rV5 b).bind fun t => some (.xrd c d x t)
  | 0x011 => (rX5 a).bind fun x => rZero b (.xflg c d x)
  | 0x012 => (rV5 a).bind fun v => (rV5 b).bind fun t => some (.vmxexp c d v t)
  | _ => none

/-- The Burpor instruction that a word spells for a cell (R167, R168, R198); none where a major, minor or cond is unassigned or an unused field is not 0.
Format tags that an instruction does not accept are judged by its meaning. -/
def decodeBurpor (c : CellId) (w : BitVec 32) : Option Instr :=
  match (wMajor w).toNat with
  | 0x01 => decodeScalar c w
  | 0x02 => (rP5 (wDest w)).bind fun pd => if (wMinor w).extractLsb' 3 7 = 0 then (rCC ((wMinor w).extractLsb' 0 3)).bind fun cc => some (.cmp c cc pd (wSrc1 w) (wSrc2 w)) else none
  | 0x03 => decodePred c w
  | 0x04 => decodeImm c w
  | 0x05 => (rP5 (wDest w)).bind fun pd => (rCC (wCond w)).bind fun cc => some (.cmpi c cc pd (wSrc1 w) (wImm12 w))
  | 0x08 => decodeMemory c w
  | 0x09 => decodeMemory c w
  | 0x0A => decodeMemory c w
  | 0x0C => decodeBranch c w
  | 0x0D => rZero (wCond w) (.jalr c (wDest w) (wSrc1 w) (wImm12 w))
  | 0x10 => some (.lui c (wDest w) (wImm20 w))
  | 0x11 => some (.lsh c (wDest w) (wImm20 w))
  | 0x12 => some (.jal c (wDest w) (wImm20 w))
  | 0x13 => some (.lpc c (wDest w) (wImm20 w))
  | 0x18 => decodeSystem c w
  | 0x40 => decodeElement c w
  | 0x41 => decodeVector c w
  | 0x42 => decodeVector c w
  | 0x43 => decodeVector c w
  | 0x44 => decodeVector c w
  | 0x48 => decodeVecMem c w
  | 0x49 => decodeVecMem c w
  | 0x4A => decodeVecMove c w
  | 0x4C => decodeVecMem c w
  | 0x4D => decodeVecMem c w
  | _ => none

end Sys2Proof
end

