-- ==== Sys2Proof/Config.lean ====
section
/-! DEFINITION. What one part fixes (fuses, identity) and the free values the spec leaves open. Every constant here is opaque: nothing can evaluate it, so a claim holds whatever its value. -/

namespace Sys2Proof.Config

/-- Free values: where the spec does not state a value, the step draws `free n` at a fresh index `n` held in State (log entry 2). -/
opaque free : Nat → Nat

/-- Free byte strings, at a fresh index (log entry 2). -/
opaque freeBytes : Nat → List Byte

/-- Credits that a native port grants at link-up, by channel; R372 gives no amount (log entry 18). -/
opaque creditGrant : Nat → BitVec 16

/-- KPR_FUSE_FEATURES.DISABLED, 16 bits, fused (Table 19.9, Table 19.10). -/
opaque fuseFeatures : BitVec 16

/-- KPR_FUSE_DEBUG, bits NO_TRACE, NO_STEP, NO_JTAG_MEM, fused (Table 19.9). -/
opaque fuseDebug : BitVec 3

/-- SHA-384 of the device attestation public key, 48 bytes (Table 19.9, KPR_DEVICE_DIGEST; Table 14.10). -/
opaque deviceDigest : List Byte

/-- The 4 KiB identity page of IDENTIFY, whose content no file of the spec gives (Table 2.10). -/
opaque identityPage : List Byte

/-- SHA-384 of a byte string. The spec names the function and gives no definition of it. -/
opaque sha384 : List Byte → List Byte

/-- SHA-384 of the device certificate chain (Table 14.9, block 1). -/
opaque chainDigest : List Byte

/-- The signed MEASUREMENTS response that carries measurement blocks and a nonce: SPDM 1.3 framing and the attestation key are outside the spec (R332). -/
opaque slate : List (List Byte) → List Byte → List Byte

/-- Does a 96-byte string name a point on the P-384 curve (R317)? -/
opaque onCurve : List Byte → Bool

/-- ECDSA P-384 verification under a tenant or owner key (R333, R378): key, message, signature. -/
opaque ecdsaOk : List Byte → List Byte → List Byte → Bool

/-- The owner's ECDSA P-384 public key, whose SHA-384 digest is fused (R378). -/
opaque ownerKey : List Byte

/-- The 128 memory-encryption slot keys the keeper generates are random; the n-th draw (R317). -/
opaque slotKey : Nat → List Byte

/-- The SPDM responder's answer body for a request code and its parameters (R383; SPDM 1.3 is outside the spec). -/
opaque spdmAnswer : Nat → List Byte → List Byte

/-- SHA-384 digest of the gaffer and keeper ROMs (Table 14.9, block 2). -/
opaque romDigests : List Byte

/-- The 8-byte CRC and the 6-byte FEC of a flit over the bytes before them, which PCIe 7.0 FLIT mode defines and the spec does not (R370). -/
opaque flitCrc : List Byte → BitVec 64
/-- See `flitCrc`. -/
opaque flitFec : List Byte → BitVec 48

/-- DETAIL of a MODULE_REJECT entry by the failing row of Table 12.13, counted from 0: Table 15.9 names the item and gives it no code (log entry 2). -/
opaque itemCode : Nat → Nat

/-- SHA-384 digest of the decode kernel in the gaffer ROM (R267). -/
opaque decodeKernelDigest : List Byte

end Sys2Proof.Config
end

