-- ==== Sys2Proof/Machine/Bits.lean ====
section
/-! DEFINITION. Bit fields of natural numbers and the sorted association lists that hold every sparse table of the machine. -/

namespace Sys2Proof.Machine

/-- Bits `[lo + w - 1 : lo]` of a value (Table 0.3). -/
def bits (x lo w : Nat) : Nat := (x >>> lo) % 2 ^ w

/-- Bit `i` of a value (Table 0.3). -/
def bit (x i : Nat) : Bool := x.testBit i

/-- A one-bit field from a flag. -/
def bitOf (b : Bool) : Nat := if b then 1 else 0

/-- A value placed at bit `lo`, cut to `w` bits. -/
def place (v lo w : Nat) : Nat := (v % 2 ^ w) <<< lo

/-- The mask of the bits `[lo + w - 1 : lo]`. -/
def maskOf (lo w : Nat) : Nat := (2 ^ w - 1) <<< lo

/-- The number of set bits among the low `n` bits of a value. -/
def popCount : Nat → Nat → Nat
  | 0, _ => 0
  | n + 1, x => x % 2 + popCount n (x / 2)

/-- The numbers of the set bits among the low `n` bits of a value, ascending. -/
def setBits (n x : Nat) : List Nat := (List.range n).filter fun i => x.testBit i

/-- Addition that stops at the all-ones value of `w` bits (R440, a counter marked saturates). -/
def satAdd (w a n : Nat) : Nat := min (a + n) (2 ^ w - 1)

/-- Sparse table: entry at a key, if any. -/
def find {α : Type} : List (Nat × α) → Nat → Option α
  | [], _ => none
  | (j, a) :: t, k => if j = k then some a else find t k

/-- Sparse table: is the key present? -/
def has {α : Type} (t : List (Nat × α)) (k : Nat) : Bool := (find t k).isSome

/-- Sparse table: set the entry at a key; keys stay strictly rising. -/
def put {α : Type} : List (Nat × α) → Nat → α → List (Nat × α)
  | [], k, a => [(k, a)]
  | (j, b) :: t, k, a =>
    if k < j then (k, a) :: (j, b) :: t
    else if k = j then (k, a) :: t
    else (j, b) :: put t k a

/-- Sparse table: remove the entry at a key. -/
def del {α : Type} (t : List (Nat × α)) (k : Nat) : List (Nat × α) := t.filter fun e => e.1 != k

/-- Sparse table: change the entry at a key, if it is there. -/
def upd {α : Type} (t : List (Nat × α)) (k : Nat) (f : α → α) : List (Nat × α) :=
  t.map fun e => if e.1 = k then (e.1, f e.2) else e

/-- The keys of a sparse table. -/
def keys {α : Type} (t : List (Nat × α)) : List Nat := t.map Prod.fst

/-- The least key in `[lo, lo + n)` that the table does not hold, searching upwards. -/
def firstFree {α : Type} (t : List (Nat × α)) : Nat → Nat → Option Nat
  | _, 0 => none
  | lo, n + 1 => if has t lo then firstFree t (lo + 1) n else some lo

/-- Byte table with default 0 (Host.Cell): the byte at an address. -/
def byteAt (m : List (Nat × Byte)) (a : Nat) : Byte := (find m a).getD 0

/-- Byte table with default 0: store one byte; storing 0 removes the entry, so the form stays canonical. -/
def setByte (m : List (Nat × Byte)) (a : Nat) (b : Byte) : List (Nat × Byte) :=
  if b = 0 then del m a else put m a b

/-- Byte table: `n` bytes from an address. -/
def readBytes (m : List (Nat × Byte)) (a : Nat) : Nat → List Byte
  | 0 => []
  | n + 1 => byteAt m a :: readBytes m (a + 1) n

/-- Byte table: store a byte string from an address upwards. -/
def writeBytes (m : List (Nat × Byte)) (a : Nat) : List Byte → List (Nat × Byte)
  | [] => m
  | b :: bs => writeBytes (setByte m a b) (a + 1) bs

/-- Byte table: every byte of `[a, a + n)` becomes 0. -/
def zeroBytes (m : List (Nat × Byte)) (a n : Nat) : List (Nat × Byte) :=
  m.filter fun e => !(a ≤ e.1 && e.1 < a + n)

/-- Sparse table in canonical form: keys strictly rising. -/
def sorted {α : Type} : List (Nat × α) → Bool
  | [] => true
  | [_] => true
  | (a, _) :: (b, y) :: t => a < b && sorted ((b, y) :: t)

/-- Byte table in canonical form: addresses strictly rising and no entry equal to the default 0. -/
def Memory.wf (m : List (Nat × Byte)) : Bool := sorted m && m.all fun e => e.2 != 0

/-- A sorted list of numbers without repeats: membership added. -/
def insNat : List Nat → Nat → List Nat
  | [], k => [k]
  | j :: t, k => if k < j then k :: j :: t else if k = j then j :: t else j :: insNat t k

/-- A list of numbers: membership removed. -/
def delNat (t : List Nat) (k : Nat) : List Nat := t.filter (· != k)

/-- Two half-open ranges `[a, a+n)` and `[b, b+m)` share an address. -/
def overlaps (a n b m : Nat) : Bool := a < b + m && b < a + n

/-- `[b, b+m)` lies inside `[a, a+n)`. -/
def covers (a n b m : Nat) : Bool := a ≤ b && b + m ≤ a + n

/-- The first element of a list that a test accepts, with the list without it. -/
def takeFirst {α : Type} (p : α → Bool) : List α → Option (α × List α)
  | [] => none
  | x :: xs => if p x then some (x, xs) else (takeFirst p xs).map fun r => (r.1, x :: r.2)

end Sys2Proof.Machine
end

