-- ==== Sys2Proof/Machine/RegTable.lean ====
section
/-! DEFINITION. Every register of the CSR space, from the register tables of the spec: its offset, stride and count (Tables 2.1 to 18.13), and its fields with access code and reset value. Reserved fields are left out: they read as 0 (R440). -/

namespace Sys2Proof.Machine

/-- Access codes of Table 0.4, with +H. -/
inductive Acc where
  | rw | rwh | ro | roh | rch | w1ch | wo
deriving DecidableEq, Repr

/-- One field of a register: least bit, width, access code, reset value. -/
structure Field where
  lo : Nat
  w : Nat
  acc : Acc
  rst : Nat
deriving DecidableEq, Repr

/-- The registers of Table 19.1 onwards, one constructor per name. -/
inductive Reg where
  /-- GAF_CMDQ_BASE (Table 2.2). -/
  | gafCmdqBase
  /-- GAF_CMDQ_CTL (Table 2.3). -/
  | gafCmdqCtl
  /-- GAF_CMDQ_DOORBELL (Table 2.4). -/
  | gafCmdqDoorbell
  /-- GAF_CMDQ_STATUS (Table 2.5). -/
  | gafCmdqStatus
  /-- GAF_CMDQ_CQ_HEAD (Table 2.6). -/
  | gafCmdqCqHead
  /-- GAF_EPOCH_STATUS (Table 2.15). -/
  | gafEpochStatus
  /-- GAF_EPOCH_EXPIRED (Table 2.16). -/
  | gafEpochExpired
  /-- RNG_SELF_NODE (Table 3.5). -/
  | rngSelfNode
  /-- RNG_ROUTE_STATUS (Table 3.6). -/
  | rngRouteStatus
  /-- RNG_TENT_HASH (Table 3.8). -/
  | rngTentHash
  /-- RNG_ROUTE_CTL (Table 3.12). -/
  | rngRouteCtl
  /-- SNP_STATUS (Table 4.9). -/
  | snpStatus
  /-- SNP_POOL (Table 4.10). -/
  | snpPool
  /-- SNP_REFUSED (Table 4.11). -/
  | snpRefused
  /-- SNP_COPY_STATS (Table 4.12). -/
  | snpCopyStats
  /-- SNP_REGION_SEL (Table 4.13). -/
  | snpRegionSel
  /-- SNP_REGION_INFO (Table 4.14). -/
  | snpRegionInfo
  /-- COH_CTL (Table 5.11). -/
  | cohCtl
  /-- COH_STATUS (Table 5.12). -/
  | cohStatus
  /-- COH_STATS (Table 5.13). -/
  | cohStats
  /-- COH_AGENT (Table 5.14). -/
  | cohAgent
  /-- COH_RANGE (Table 5.15). -/
  | cohRange
  /-- COH_HINT (Table 5.16). -/
  | cohHint
  /-- HBC_TIER_FREE (Table 6.10). -/
  | hbcTierFree
  /-- HBC_MIG_STATUS (Table 6.11). -/
  | hbcMigStatus
  /-- HBC_SCRUB_CTL (Table 6.12). -/
  | hbcScrubCtl
  /-- HBC_SCRUB_STATUS (Table 6.13). -/
  | hbcScrubStatus
  /-- HBC_TEL_SEL (Table 6.14). -/
  | hbcTelSel
  /-- HBC_TEL_READS (Table 6.15). -/
  | hbcTelReads
  /-- HBC_T3_POOL_LO (Table 6.16). -/
  | hbcT3PoolLo
  /-- HBC_T3_POOL_HI (Table 6.17). -/
  | hbcT3PoolHi
  /-- CMP_LANES (Table 7.6). -/
  | cmpLanes
  /-- CMP_STATUS (Table 7.7). -/
  | cmpStatus
  /-- CMP_ERRORS (Table 7.8). -/
  | cmpErrors
  /-- CMP_RAW_BYTES (Table 7.9). -/
  | cmpRawBytes
  /-- CMP_STORED_BYTES (Table 7.10). -/
  | cmpStoredBytes
  /-- CMP_WIRE_CTL (Table 7.11). -/
  | cmpWireCtl
  /-- CMP_REGION_SEL (Table 7.12). -/
  | cmpRegionSel
  /-- CMP_REGION_INFO (Table 7.13). -/
  | cmpRegionInfo
  /-- CRW_CREW_STATUS (Table 8.28). -/
  | crwCrewStatus
  /-- CRW_CREW_CELLS (Table 8.29). -/
  | crwCrewCells
  /-- CRW_CELL_SEL (Table 8.30). -/
  | crwCellSel
  /-- CRW_CELL_FAULT (Table 8.31). -/
  | crwCellFault
  /-- CRW_SUMMARY (Table 8.32). -/
  | crwSummary
  /-- CRW_RING_LOAD (Table 8.33). -/
  | crwRingLoad
  /-- XSU_UNIT_STATUS (Table 9.17). -/
  | xsuUnitStatus
  /-- XSU_UNIT_COUNTS (Table 9.18). -/
  | xsuUnitCounts
  /-- XSU_SUMMARY (Table 9.19). -/
  | xsuSummary
  /-- GTH_STATUS (Table 11.15). -/
  | gthStatus
  /-- GTH_ERRORS (Table 11.16). -/
  | gthErrors
  /-- GTH_ROWS (Table 11.17). -/
  | gthRows
  /-- GTH_BUF_CTL (Table 11.18). -/
  | gthBufCtl
  /-- GTH_TABLE_SEL (Table 11.19). -/
  | gthTableSel
  /-- GTH_TABLE_INFO (Table 11.20). -/
  | gthTableInfo
  /-- GTH_KV_SEL (Table 11.21). -/
  | gthKvSel
  /-- GTH_KV_INFO (Table 11.22). -/
  | gthKvInfo
  /-- TRY_NBU_STATUS (Table 12.15). -/
  | tryNbuStatus
  /-- TRY_NBU_STATS (Table 12.16). -/
  | tryNbuStats
  /-- TRY_NBU_ALLOT (Table 12.17). -/
  | tryNbuAllot
  /-- TRY_NBU_CTL (Table 12.18). -/
  | tryNbuCtl
  /-- QMG_CTL (Table 13.11). -/
  | qmgCtl
  /-- QMG_STATUS (Table 13.12). -/
  | qmgStatus
  /-- QMG_CACHE (Table 13.13). -/
  | qmgCache
  /-- QMG_ERRORS (Table 13.14). -/
  | qmgErrors
  /-- QMG_QUEUE_SEL (Table 13.15). -/
  | qmgQueueSel
  /-- QMG_QUEUE_INFO (Table 13.16). -/
  | qmgQueueInfo
  /-- QMG_WEIGHT (Table 13.17). -/
  | qmgWeight
  /-- QMG_SHAPER_SEL (Table 13.18). -/
  | qmgShaperSel
  /-- QMG_SHAPER_INFO (Table 13.19). -/
  | qmgShaperInfo
  /-- QMG_SHAPER_TOKENS (Table 13.20). -/
  | qmgShaperTokens
  /-- QMG_ADMIT_SEL (Table 13.21). -/
  | qmgAdmitSel
  /-- QMG_ADMIT (Table 13.22). -/
  | qmgAdmit
  /-- QMG_SERVED_SEL (Table 13.23). -/
  | qmgServedSel
  /-- QMG_SERVED (Table 13.24). -/
  | qmgServed
  /-- KPR_KEY_STATUS (Table 14.15). -/
  | kprKeyStatus
  /-- KPR_KEY_FAULT (Table 14.16). -/
  | kprKeyFault
  /-- KPR_TAMPER_STATUS (Table 14.17). -/
  | kprTamperStatus
  /-- KPR_CONSENT_STATS (Table 14.18). -/
  | kprConsentStats
  /-- KPR_TENT_INFO (Table 14.19). -/
  | kprTentInfo
  /-- RNG_GATE_STATS (Table 14.20). -/
  | rngGateStats
  /-- RNG_ENTRY_SEL (Table 14.21). -/
  | rngEntrySel
  /-- RNG_ENTRY_INFO (Table 14.22). -/
  | rngEntryInfo
  /-- RNG_ENTRY_BASE (Table 14.23). -/
  | rngEntryBase
  /-- RNG_ENTRY_SIZE (Table 14.24). -/
  | rngEntrySize
  /-- GAF_FAIL_DOMAIN (Table 15.14). -/
  | gafFailDomain
  /-- GAF_RUSHES_STATUS (Table 15.15). -/
  | gafRushesStatus
  /-- GAF_RUSHES_COUNTS (Table 15.16). -/
  | gafRushesCounts
  /-- SNP_GUY_SEL (Table 15.17). -/
  | snpGuySel
  /-- SNP_GUY_INFO (Table 15.18). -/
  | snpGuyInfo
  /-- SNP_GUY_CTL (Table 15.19). -/
  | snpGuyCtl
  /-- SNP_GUY_STATS (Table 15.20). -/
  | snpGuyStats
  /-- SNP_REPLICA_STATS (Table 15.21). -/
  | snpReplicaStats
  /-- KPR_RAS_STATUS (Table 15.22). -/
  | kprRasStatus
  /-- HBC_ECC_CTL (Table 15.23). -/
  | hbcEccCtl
  /-- HBC_ECC_STATUS (Table 15.24). -/
  | hbcEccStatus
  /-- PRT_LINK_CTL (Table 16.18). -/
  | prtLinkCtl
  /-- TRY_LINK_CTL (Table 16.18). -/
  | tryLinkCtl
  /-- PRT_LINK_STATUS (Table 16.19). -/
  | prtLinkStatus
  /-- TRY_LINK_STATUS (Table 16.19). -/
  | tryLinkStatus
  /-- PRT_ERRORS (Table 16.20). -/
  | prtErrors
  /-- TRY_ERRORS (Table 16.20). -/
  | tryErrors
  /-- PRT_ERR_LOG (Table 16.21). -/
  | prtErrLog
  /-- PRT_ERR_ADDR (Table 16.22). -/
  | prtErrAddr
  /-- TRY_MODULE_INFO (Table 16.23). -/
  | tryModuleInfo
  /-- RST_CTL (Table 17.21). -/
  | rstCtl
  /-- RST_COUNT (Table 17.22). -/
  | rstCount
  /-- RST_CAUSE_LOG (Table 17.23). -/
  | rstCauseLog
  /-- RST_WDOG_CTL (Table 17.24). -/
  | rstWdogCtl
  /-- RST_BLOCK_STATUS (Table 17.25). -/
  | rstBlockStatus
  /-- RST_BLOCK_LOG (Table 17.26). -/
  | rstBlockLog
  /-- CLK_PLL_STATUS (Table 17.27). -/
  | clkPllStatus
  /-- CLK_INPUT_STATUS (Table 17.28). -/
  | clkInputStatus
  /-- PWR_DOMAIN_STATUS (Table 17.29). -/
  | pwrDomainStatus
  /-- PWR_SLEEP_CTL (Table 17.30). -/
  | pwrSleepCtl
  /-- PWR_DEFER_STATS (Table 17.31). -/
  | pwrDeferStats
  /-- PIN_STRAPS (Table 18.14). -/
  | pinStraps
  /-- PIN_GPF_FUNC (Table 18.15). -/
  | pinGpfFunc
  /-- PIN_GPF_OUT (Table 18.16). -/
  | pinGpfOut
  /-- PIN_GPF_DUTY_LO (Table 18.17). -/
  | pinGpfDutyLo
  /-- PIN_GPF_DUTY_HI (Table 18.17). -/
  | pinGpfDutyHi
  /-- PIN_GPF_IN (Table 18.18). -/
  | pinGpfIn
  /-- PIN_IRQ_STATUS (Table 18.19). -/
  | pinIrqStatus
  /-- PIN_IRQ_MASK (Table 18.20). -/
  | pinIrqMask
  /-- PIN_SEL (Table 18.21). -/
  | pinSel
  /-- PIN_INFO (Table 18.22). -/
  | pinInfo
  /-- PIN_THERM (Table 18.23). -/
  | pinTherm
  /-- GAF_ID (Table 19.5). -/
  | gafId
  /-- GAF_BOOT_STATUS (Table 19.6). -/
  | gafBootStatus
  /-- GAF_CSR_STATUS (Table 19.7). -/
  | gafCsrStatus
  /-- GAF_ATTN (Table 19.8). -/
  | gafAttn
  /-- GAF_ATTN_CTL (Table 19.8). -/
  | gafAttnCtl
  /-- KPR_FUSE_FEATURES (Table 19.9). -/
  | kprFuseFeatures
  /-- KPR_FUSE_DEBUG (Table 19.9). -/
  | kprFuseDebug
  /-- KPR_DEVICE_DIGEST (Table 19.9). -/
  | kprDeviceDigest
  /-- CLK_SUMMARY (Table 19.11). -/
  | clkSummary
  /-- PWR_SUMMARY (Table 19.11). -/
  | pwrSummary
deriving DecidableEq, Repr

/-- Block index of Table 19.1, offset in the block, stride and count of a register. -/
def Reg.place : Reg → Nat × Nat × Nat × Nat
  | .gafCmdqBase => (0, 0x0100, 0x8, 1)
  | .gafCmdqCtl => (0, 0x0108, 0x8, 1)
  | .gafCmdqDoorbell => (0, 0x0110, 0x8, 1)
  | .gafCmdqStatus => (0, 0x0118, 0x8, 1)
  | .gafCmdqCqHead => (0, 0x0120, 0x8, 1)
  | .gafEpochStatus => (0, 0x0180, 0x8, 1)
  | .gafEpochExpired => (0, 0x0188, 0x8, 1)
  | .rngSelfNode => (6, 0x0000, 0x8, 1)
  | .rngRouteStatus => (6, 0x0010, 0x8, 1)
  | .rngTentHash => (6, 0x1000, 0x8, 128)
  | .rngRouteCtl => (6, 0x0008, 0x8, 1)
  | .snpStatus => (8, 0x0000, 0x8, 1)
  | .snpPool => (8, 0x0008, 0x8, 1)
  | .snpRefused => (8, 0x0010, 0x8, 1)
  | .snpCopyStats => (8, 0x0018, 0x8, 1)
  | .snpRegionSel => (8, 0x0100, 0x8, 1)
  | .snpRegionInfo => (8, 0x0108, 0x8, 1)
  | .cohCtl => (9, 0x0000, 0x8, 1)
  | .cohStatus => (9, 0x0008, 0x8, 1)
  | .cohStats => (9, 0x0010, 0x8, 1)
  | .cohAgent => (9, 0x0100, 0x8, 32)
  | .cohRange => (9, 0x0200, 0x8, 16)
  | .cohHint => (9, 0x0300, 0x8, 64)
  | .hbcTierFree => (10, 0x0000, 0x8, 4)
  | .hbcMigStatus => (10, 0x0020, 0x8, 1)
  | .hbcScrubCtl => (10, 0x0028, 0x8, 1)
  | .hbcScrubStatus => (10, 0x0030, 0x8, 1)
  | .hbcTelSel => (10, 0x0040, 0x8, 1)
  | .hbcTelReads => (10, 0x0048, 0x8, 4)
  | .hbcT3PoolLo => (10, 0x0400, 0x10, 16)
  | .hbcT3PoolHi => (10, 0x0408, 0x10, 16)
  | .cmpLanes => (16, 0x0000, 0x8, 1)
  | .cmpStatus => (16, 0x0008, 0x8, 1)
  | .cmpErrors => (16, 0x0010, 0x8, 1)
  | .cmpRawBytes => (16, 0x0018, 0x8, 1)
  | .cmpStoredBytes => (16, 0x0020, 0x8, 1)
  | .cmpWireCtl => (16, 0x0100, 0x8, 20)
  | .cmpRegionSel => (16, 0x0200, 0x8, 1)
  | .cmpRegionInfo => (16, 0x0208, 0x8, 1)
  | .crwCrewStatus => (13, 0x0000, 0x40, 128)
  | .crwCrewCells => (13, 0x0008, 0x40, 128)
  | .crwCellSel => (13, 0x4000, 0x8, 1)
  | .crwCellFault => (13, 0x4008, 0x8, 1)
  | .crwSummary => (13, 0x4010, 0x8, 1)
  | .crwRingLoad => (13, 0x4100, 0x8, 8)
  | .xsuUnitStatus => (14, 0x0000, 0x10, 128)
  | .xsuUnitCounts => (14, 0x0008, 0x10, 128)
  | .xsuSummary => (14, 0x1000, 0x8, 1)
  | .gthStatus => (15, 0x0000, 0x8, 1)
  | .gthErrors => (15, 0x0008, 0x8, 1)
  | .gthRows => (15, 0x0010, 0x8, 1)
  | .gthBufCtl => (15, 0x0018, 0x8, 1)
  | .gthTableSel => (15, 0x0100, 0x8, 1)
  | .gthTableInfo => (15, 0x0108, 0x8, 1)
  | .gthKvSel => (15, 0x0200, 0x8, 1)
  | .gthKvInfo => (15, 0x0208, 0x8, 1)
  | .tryNbuStatus => (12, 0x4000, 0x400, 8)
  | .tryNbuStats => (12, 0x4008, 0x400, 8)
  | .tryNbuAllot => (12, 0x4100, 0x0, 128)
  | .tryNbuCtl => (12, 0x6000, 0x8, 1)
  | .qmgCtl => (7, 0x0000, 0x8, 1)
  | .qmgStatus => (7, 0x0008, 0x8, 1)
  | .qmgCache => (7, 0x0010, 0x8, 1)
  | .qmgErrors => (7, 0x0018, 0x8, 1)
  | .qmgQueueSel => (7, 0x0100, 0x8, 1)
  | .qmgQueueInfo => (7, 0x0108, 0x8, 1)
  | .qmgWeight => (7, 0x1000, 0x8, 128)
  | .qmgShaperSel => (7, 0x2000, 0x8, 1)
  | .qmgShaperInfo => (7, 0x2008, 0x8, 1)
  | .qmgShaperTokens => (7, 0x2010, 0x8, 1)
  | .qmgAdmitSel => (7, 0x3000, 0x8, 1)
  | .qmgAdmit => (7, 0x3008, 0x8, 1)
  | .qmgServedSel => (7, 0x3010, 0x8, 1)
  | .qmgServed => (7, 0x3018, 0x8, 1)
  | .kprKeyStatus => (1, 0x0200, 0x8, 1)
  | .kprKeyFault => (1, 0x0208, 0x8, 1)
  | .kprTamperStatus => (1, 0x0210, 0x8, 1)
  | .kprConsentStats => (1, 0x0218, 0x8, 1)
  | .kprTentInfo => (1, 0x0400, 0x8, 128)
  | .rngGateStats => (6, 0x0018, 0x8, 1)
  | .rngEntrySel => (6, 0x0020, 0x8, 1)
  | .rngEntryInfo => (6, 0x0028, 0x8, 1)
  | .rngEntryBase => (6, 0x0030, 0x8, 1)
  | .rngEntrySize => (6, 0x0038, 0x8, 1)
  | .gafFailDomain => (0, 0x0200, 0x8, 1)
  | .gafRushesStatus => (0, 0x0210, 0x8, 1)
  | .gafRushesCounts => (0, 0x0218, 0x8, 1)
  | .snpGuySel => (8, 0x0200, 0x8, 1)
  | .snpGuyInfo => (8, 0x0208, 0x8, 1)
  | .snpGuyCtl => (8, 0x0210, 0x8, 1)
  | .snpGuyStats => (8, 0x0218, 0x8, 1)
  | .snpReplicaStats => (8, 0x0220, 0x8, 1)
  | .kprRasStatus => (1, 0x0220, 0x8, 1)
  | .hbcEccCtl => (10, 0x0080, 0x8, 1)
  | .hbcEccStatus => (10, 0x0088, 0x8, 4)
  | .prtLinkCtl => (11, 0x0000, 0x100, 20)
  | .tryLinkCtl => (12, 0x0018, 0x100, 8)
  | .prtLinkStatus => (11, 0x0008, 0x100, 20)
  | .tryLinkStatus => (12, 0x0000, 0x100, 8)
  | .prtErrors => (11, 0x0010, 0x100, 20)
  | .tryErrors => (12, 0x0010, 0x100, 8)
  | .prtErrLog => (11, 0x0018, 0x100, 20)
  | .prtErrAddr => (11, 0x0020, 0x100, 20)
  | .tryModuleInfo => (12, 0x0008, 0x100, 8)
  | .rstCtl => (2, 0x0000, 0x8, 1)
  | .rstCount => (2, 0x0008, 0x8, 1)
  | .rstCauseLog => (2, 0x0010, 0x8, 1)
  | .rstWdogCtl => (2, 0x0018, 0x8, 1)
  | .rstBlockStatus => (2, 0x0020, 0x8, 1)
  | .rstBlockLog => (2, 0x0028, 0x8, 1)
  | .clkPllStatus => (3, 0x0000, 0x8, 15)
  | .clkInputStatus => (3, 0x0100, 0x8, 1)
  | .pwrDomainStatus => (4, 0x0000, 0x8, 25)
  | .pwrSleepCtl => (4, 0x0100, 0x8, 1)
  | .pwrDeferStats => (4, 0x0108, 0x8, 1)
  | .pinStraps => (5, 0x0100, 0x8, 1)
  | .pinGpfFunc => (5, 0x0108, 0x8, 1)
  | .pinGpfOut => (5, 0x0110, 0x8, 1)
  | .pinGpfDutyLo => (5, 0x0118, 0x8, 1)
  | .pinGpfDutyHi => (5, 0x0120, 0x8, 1)
  | .pinGpfIn => (5, 0x0128, 0x8, 1)
  | .pinIrqStatus => (5, 0x0130, 0x8, 1)
  | .pinIrqMask => (5, 0x0138, 0x8, 1)
  | .pinSel => (5, 0x0140, 0x8, 1)
  | .pinInfo => (5, 0x0148, 0x8, 1)
  | .pinTherm => (5, 0x0150, 0x8, 1)
  | .gafId => (0, 0x0000, 0x8, 1)
  | .gafBootStatus => (0, 0x0008, 0x8, 1)
  | .gafCsrStatus => (0, 0x0010, 0x8, 1)
  | .gafAttn => (0, 0x0018, 0x8, 1)
  | .gafAttnCtl => (0, 0x0020, 0x8, 1)
  | .kprFuseFeatures => (1, 0x0000, 0x8, 1)
  | .kprFuseDebug => (1, 0x0008, 0x8, 1)
  | .kprDeviceDigest => (1, 0x0010, 0x8, 1)
  | .clkSummary => (3, 0x0108, 0x8, 1)
  | .pwrSummary => (4, 0x0110, 0x8, 1)

/-- The fields of a register that are not reserved. -/
def Reg.fields : Reg → List Field
  | .gafCmdqBase => [⟨12, 52, .rw, 0x0⟩]
  | .gafCmdqCtl => [⟨32, 8, .rw, 0x0⟩, ⟨16, 5, .rw, 0x6⟩, ⟨0, 1, .rw, 0x0⟩]
  | .gafCmdqDoorbell => [⟨0, 16, .wo, 0x0⟩]
  | .gafCmdqStatus => [⟨32, 1, .w1ch, 0x0⟩, ⟨16, 16, .roh, 0x0⟩, ⟨0, 16, .roh, 0x0⟩]
  | .gafCmdqCqHead => [⟨0, 16, .rw, 0x0⟩]
  | .gafEpochStatus => [⟨56, 1, .roh, 0x0⟩, ⟨32, 24, .roh, 0x0⟩, ⟨0, 32, .roh, 0x0⟩]
  | .gafEpochExpired => [⟨0, 32, .rch, 0x0⟩]
  | .rngSelfNode => [⟨14, 1, .roh, 0x0⟩, ⟨0, 14, .roh, 0x0⟩]
  | .rngRouteStatus => [⟨48, 16, .rch, 0x0⟩, ⟨32, 16, .rch, 0x0⟩, ⟨16, 16, .rch, 0x0⟩, ⟨0, 16, .rch, 0x0⟩]
  | .rngTentHash => [⟨15, 1, .roh, 0x0⟩, ⟨10, 2, .roh, 0x0⟩, ⟨8, 2, .roh, 0x0⟩, ⟨0, 7, .roh, 0x0⟩]
  | .rngRouteCtl => [⟨16, 16, .rw, 0x80⟩, ⟨0, 8, .rw, 0x14⟩]
  | .snpStatus => [⟨32, 17, .roh, 0x0⟩, ⟨0, 19, .roh, 0x0⟩]
  | .snpPool => [⟨32, 23, .roh, 0x0⟩, ⟨0, 23, .roh, 0x0⟩]
  | .snpRefused => [⟨48, 16, .rch, 0x0⟩, ⟨32, 16, .rch, 0x0⟩, ⟨16, 16, .rch, 0x0⟩, ⟨0, 16, .rch, 0x0⟩]
  | .snpCopyStats => [⟨32, 32, .rch, 0x0⟩, ⟨0, 9, .roh, 0x0⟩]
  | .snpRegionSel => [⟨0, 18, .rw, 0x0⟩]
  | .snpRegionInfo => [⟨63, 1, .roh, 0x0⟩, ⟨62, 1, .roh, 0x0⟩, ⟨61, 1, .roh, 0x0⟩, ⟨57, 4, .roh, 0x0⟩, ⟨50, 7, .roh, 0x0⟩, ⟨32, 18, .roh, 0x0⟩, ⟨0, 32, .roh, 0x0⟩]
  | .cohCtl => [⟨0, 16, .rw, 0x64⟩]
  | .cohStatus => [⟨48, 1, .roh, 0x0⟩, ⟨32, 6, .roh, 0x0⟩, ⟨0, 32, .roh, 0x0⟩]
  | .cohStats => [⟨48, 16, .rch, 0x0⟩, ⟨32, 16, .rch, 0x0⟩, ⟨16, 16, .rch, 0x0⟩, ⟨0, 16, .rch, 0x0⟩]
  | .cohAgent => [⟨63, 1, .rw, 0x0⟩, ⟨61, 2, .rw, 0x0⟩, ⟨48, 7, .rw, 0x0⟩, ⟨40, 5, .rw, 0x0⟩, ⟨32, 4, .rw, 0x0⟩, ⟨0, 14, .rw, 0x0⟩]
  | .cohRange => [⟨63, 1, .rw, 0x0⟩, ⟨0, 18, .rw, 0x0⟩]
  | .cohHint => [⟨63, 1, .rw, 0x0⟩, ⟨32, 5, .rw, 0x0⟩, ⟨0, 14, .rw, 0x0⟩]
  | .hbcTierFree => [⟨32, 32, .roh, 0x0⟩, ⟨0, 32, .roh, 0x0⟩]
  | .hbcMigStatus => [⟨32, 32, .roh, 0x0⟩, ⟨23, 9, .roh, 0x0⟩, ⟨8, 8, .rch, 0x0⟩, ⟨0, 8, .rch, 0x0⟩]
  | .hbcScrubCtl => [⟨0, 16, .rw, 0xFA0⟩]
  | .hbcScrubStatus => [⟨32, 17, .roh, 0x0⟩, ⟨24, 8, .roh, 0x0⟩, ⟨0, 23, .roh, 0x0⟩]
  | .hbcTelSel => [⟨0, 7, .rw, 0x0⟩]
  | .hbcTelReads => [⟨0, 64, .rch, 0x0⟩]
  | .hbcT3PoolLo => [⟨63, 1, .rw, 0x0⟩, ⟨56, 7, .rw, 0x0⟩, ⟨36, 14, .rw, 0x0⟩, ⟨0, 32, .rw, 0x0⟩]
  | .hbcT3PoolHi => [⟨32, 32, .roh, 0x0⟩, ⟨0, 32, .rw, 0x0⟩]
  | .cmpLanes => [⟨40, 8, .ro, 0x80⟩, ⟨32, 8, .ro, 0x80⟩, ⟨24, 8, .roh, 0x0⟩, ⟨16, 8, .roh, 0x0⟩]
  | .cmpStatus => [⟨32, 25, .roh, 0x0⟩, ⟨16, 9, .roh, 0x0⟩, ⟨0, 5, .roh, 0x0⟩]
  | .cmpErrors => [⟨48, 16, .rch, 0x0⟩, ⟨32, 16, .rch, 0x0⟩, ⟨16, 16, .rch, 0x0⟩, ⟨0, 16, .rch, 0x0⟩]
  | .cmpRawBytes => [⟨0, 64, .rch, 0x0⟩]
  | .cmpStoredBytes => [⟨0, 64, .rch, 0x0⟩]
  | .cmpWireCtl => [⟨1, 2, .rw, 0x1⟩, ⟨0, 1, .rw, 0x0⟩]
  | .cmpRegionSel => [⟨0, 18, .rw, 0x0⟩]
  | .cmpRegionInfo => [⟨63, 1, .roh, 0x0⟩, ⟨62, 1, .roh, 0x0⟩, ⟨60, 2, .roh, 0x0⟩, ⟨58, 2, .roh, 0x0⟩, ⟨0, 25, .roh, 0x0⟩]
  | .crwCrewStatus => [⟨63, 1, .roh, 0x0⟩, ⟨62, 1, .roh, 0x0⟩, ⟨61, 1, .roh, 0x0⟩, ⟨50, 7, .roh, 0x0⟩, ⟨42, 6, .roh, 0x0⟩, ⟨0, 32, .roh, 0x0⟩]
  | .crwCrewCells => [⟨32, 32, .roh, 0x0⟩, ⟨0, 32, .roh, 0x0⟩]
  | .crwCellSel => [⟨5, 7, .rw, 0x0⟩, ⟨0, 5, .rw, 0x0⟩]
  | .crwCellFault => [⟨56, 8, .roh, 0x0⟩, ⟨55, 1, .roh, 0x0⟩, ⟨32, 21, .roh, 0x0⟩, ⟨0, 32, .roh, 0x0⟩]
  | .crwSummary => [⟨48, 16, .rch, 0x0⟩, ⟨0, 13, .roh, 0x0⟩]
  | .crwRingLoad => [⟨32, 32, .rch, 0x0⟩, ⟨0, 32, .rch, 0x0⟩]
  | .xsuUnitStatus => [⟨63, 1, .roh, 0x0⟩, ⟨32, 16, .roh, 0x0⟩, ⟨0, 15, .roh, 0x0⟩]
  | .xsuUnitCounts => [⟨32, 32, .rch, 0x0⟩, ⟨16, 16, .rch, 0x0⟩, ⟨0, 16, .rch, 0x0⟩]
  | .xsuSummary => [⟨0, 8, .roh, 0x0⟩]
  | .gthStatus => [⟨44, 9, .roh, 0x0⟩, ⟨39, 5, .roh, 0x0⟩, ⟨30, 9, .roh, 0x0⟩, ⟨17, 13, .roh, 0x0⟩, ⟨0, 17, .roh, 0x0⟩]
  | .gthErrors => [⟨48, 16, .rch, 0x0⟩, ⟨32, 16, .rch, 0x0⟩, ⟨16, 16, .rch, 0x0⟩, ⟨0, 16, .rch, 0x0⟩]
  | .gthRows => [⟨0, 64, .rch, 0x0⟩]
  | .gthBufCtl => [⟨0, 16, .rw, 0x64⟩]
  | .gthTableSel => [⟨0, 8, .rw, 0x0⟩]
  | .gthTableInfo => [⟨63, 1, .roh, 0x0⟩, ⟨56, 7, .roh, 0x0⟩, ⟨54, 2, .roh, 0x0⟩, ⟨52, 2, .roh, 0x0⟩, ⟨48, 4, .roh, 0x0⟩, ⟨32, 13, .roh, 0x0⟩, ⟨0, 32, .roh, 0x0⟩]
  | .gthKvSel => [⟨0, 4, .rw, 0x0⟩]
  | .gthKvInfo => [⟨63, 1, .roh, 0x0⟩, ⟨56, 7, .roh, 0x0⟩, ⟨54, 2, .roh, 0x0⟩, ⟨47, 7, .roh, 0x0⟩, ⟨37, 10, .roh, 0x0⟩, ⟨24, 13, .roh, 0x0⟩, ⟨0, 24, .roh, 0x0⟩]
  | .tryNbuStatus => [⟨63, 1, .roh, 0x0⟩, ⟨58, 5, .roh, 0x0⟩, ⟨56, 2, .roh, 0x0⟩, ⟨48, 8, .roh, 0x0⟩, ⟨40, 8, .roh, 0x0⟩, ⟨35, 5, .roh, 0x0⟩, ⟨16, 16, .roh, 0x0⟩]
  | .tryNbuStats => [⟨32, 32, .rch, 0x0⟩, ⟨16, 16, .rch, 0x0⟩, ⟨0, 16, .rch, 0x0⟩]
  | .tryNbuAllot => [⟨63, 1, .rw, 0x0⟩, ⟨56, 7, .rw, 0x0⟩, ⟨32, 13, .rw, 0x0⟩, ⟨0, 32, .rw, 0x0⟩]
  | .tryNbuCtl => [⟨16, 16, .rw, 0x64⟩, ⟨0, 4, .rw, 0x8⟩]
  | .qmgCtl => [⟨8, 8, .rw, 0x0⟩]
  | .qmgStatus => [⟨45, 13, .roh, 0x0⟩, ⟨28, 17, .roh, 0x0⟩, ⟨0, 21, .roh, 0x0⟩]
  | .qmgCache => [⟨32, 32, .rch, 0x0⟩, ⟨0, 32, .rch, 0x0⟩]
  | .qmgErrors => [⟨48, 16, .rch, 0x0⟩, ⟨32, 16, .rch, 0x0⟩]
  | .qmgQueueSel => [⟨0, 20, .rw, 0x0⟩]
  | .qmgQueueInfo => [⟨63, 1, .roh, 0x0⟩, ⟨62, 1, .roh, 0x0⟩, ⟨61, 1, .roh, 0x0⟩, ⟨54, 7, .roh, 0x0⟩, ⟨51, 3, .roh, 0x0⟩, ⟨0, 21, .roh, 0x0⟩]
  | .qmgWeight => [⟨56, 8, .rw, 0x0⟩, ⟨0, 56, .rw, 0x0⟩]
  | .qmgShaperSel => [⟨0, 12, .rw, 0x0⟩]
  | .qmgShaperInfo => [⟨63, 1, .roh, 0x0⟩, ⟨62, 1, .roh, 0x0⟩, ⟨61, 1, .roh, 0x0⟩, ⟨54, 7, .roh, 0x0⟩, ⟨51, 3, .roh, 0x0⟩, ⟨49, 2, .roh, 0x0⟩, ⟨44, 5, .roh, 0x0⟩, ⟨0, 32, .roh, 0x0⟩]
  | .qmgShaperTokens => [⟨32, 32, .roh, 0x0⟩, ⟨0, 32, .roh, 0x0⟩]
  | .qmgAdmitSel => [⟨0, 16, .rw, 0x0⟩]
  | .qmgAdmit => [⟨32, 32, .roh, 0x0⟩, ⟨31, 1, .roh, 0x0⟩, ⟨0, 31, .roh, 0x0⟩]
  | .qmgServedSel => [⟨16, 8, .rw, 0x0⟩, ⟨0, 16, .rw, 0x0⟩]
  | .qmgServed => [⟨0, 64, .rch, 0x0⟩]
  | .kprKeyStatus => [⟨48, 8, .roh, 0x0⟩, ⟨40, 8, .roh, 0x0⟩, ⟨0, 20, .roh, 0x0⟩]
  | .kprKeyFault => [⟨48, 16, .rch, 0x0⟩, ⟨0, 48, .roh, 0x0⟩]
  | .kprTamperStatus => [⟨63, 1, .roh, 0x0⟩, ⟨48, 8, .rch, 0x0⟩, ⟨7, 1, .roh, 0x0⟩, ⟨4, 1, .rch, 0x0⟩, ⟨3, 1, .rch, 0x0⟩, ⟨2, 1, .roh, 0x0⟩, ⟨1, 1, .roh, 0x0⟩, ⟨0, 1, .roh, 0x0⟩]
  | .kprConsentStats => [⟨48, 16, .rch, 0x0⟩, ⟨32, 16, .rch, 0x0⟩, ⟨16, 16, .rch, 0x0⟩, ⟨0, 16, .rch, 0x0⟩]
  | .kprTentInfo => [⟨63, 1, .roh, 0x0⟩, ⟨61, 2, .roh, 0x0⟩, ⟨60, 1, .roh, 0x0⟩, ⟨59, 1, .roh, 0x0⟩, ⟨57, 2, .roh, 0x0⟩, ⟨50, 7, .roh, 0x0⟩, ⟨43, 7, .roh, 0x0⟩, ⟨36, 7, .roh, 0x0⟩, ⟨29, 7, .roh, 0x0⟩, ⟨22, 7, .roh, 0x0⟩, ⟨15, 7, .roh, 0x0⟩]
  | .rngGateStats => [⟨48, 16, .rch, 0x0⟩, ⟨32, 16, .rch, 0x0⟩, ⟨16, 16, .rch, 0x0⟩, ⟨0, 16, .rch, 0x0⟩]
  | .rngEntrySel => [⟨0, 14, .rw, 0x0⟩]
  | .rngEntryInfo => [⟨63, 1, .roh, 0x0⟩, ⟨56, 7, .roh, 0x0⟩, ⟨20, 14, .roh, 0x0⟩, ⟨19, 1, .roh, 0x0⟩, ⟨18, 1, .roh, 0x0⟩, ⟨17, 1, .roh, 0x0⟩, ⟨16, 1, .roh, 0x0⟩, ⟨0, 14, .roh, 0x0⟩]
  | .rngEntryBase => [⟨0, 48, .roh, 0x0⟩]
  | .rngEntrySize => [⟨0, 49, .roh, 0x0⟩]
  | .gafFailDomain => [⟨32, 16, .rw, 0x0⟩, ⟨16, 16, .rw, 0x0⟩, ⟨0, 16, .rw, 0x0⟩]
  | .gafRushesStatus => [⟨61, 3, .roh, 0x0⟩, ⟨60, 1, .roh, 0x0⟩, ⟨46, 14, .roh, 0x0⟩, ⟨0, 17, .roh, 0x0⟩]
  | .gafRushesCounts => [⟨32, 32, .roh, 0x0⟩, ⟨16, 16, .roh, 0x0⟩, ⟨0, 16, .roh, 0x0⟩]
  | .snpGuySel => [⟨0, 18, .rw, 0x0⟩]
  | .snpGuyInfo => [⟨61, 3, .roh, 0x0⟩, ⟨60, 1, .roh, 0x0⟩, ⟨57, 3, .roh, 0x0⟩, ⟨43, 14, .roh, 0x0⟩, ⟨25, 18, .roh, 0x0⟩, ⟨0, 25, .roh, 0x0⟩]
  | .snpGuyCtl => [⟨0, 16, .rw, 0xC8⟩]
  | .snpGuyStats => [⟨48, 16, .rch, 0x0⟩, ⟨32, 16, .rch, 0x0⟩, ⟨0, 32, .rch, 0x0⟩]
  | .snpReplicaStats => [⟨32, 32, .rch, 0x0⟩, ⟨16, 16, .rch, 0x0⟩, ⟨0, 9, .roh, 0x0⟩]
  | .kprRasStatus => [⟨32, 32, .roh, 0x0⟩, ⟨16, 16, .rch, 0x0⟩, ⟨15, 1, .roh, 0x0⟩, ⟨0, 13, .roh, 0x0⟩]
  | .hbcEccCtl => [⟨0, 16, .rw, 0x3E8⟩]
  | .hbcEccStatus => [⟨32, 32, .rch, 0x0⟩, ⟨16, 16, .rch, 0x0⟩, ⟨0, 5, .roh, 0x0⟩]
  | .prtLinkCtl => [⟨8, 8, .rw, 0x18⟩, ⟨0, 1, .rw, 0x0⟩]
  | .tryLinkCtl => [⟨8, 8, .rw, 0x18⟩, ⟨0, 1, .rw, 0x0⟩]
  | .prtLinkStatus => [⟨61, 3, .roh, 0x0⟩, ⟨59, 2, .roh, 0x0⟩, ⟨58, 1, .roh, 0x0⟩, ⟨57, 1, .roh, 0x0⟩, ⟨54, 3, .roh, 0x0⟩, ⟨52, 2, .roh, 0x0⟩, ⟨47, 5, .roh, 0x0⟩, ⟨16, 16, .rch, 0x0⟩, ⟨0, 16, .rch, 0x0⟩]
  | .tryLinkStatus => [⟨61, 3, .roh, 0x0⟩, ⟨59, 2, .roh, 0x0⟩, ⟨58, 1, .roh, 0x0⟩, ⟨57, 1, .roh, 0x0⟩, ⟨54, 3, .roh, 0x0⟩, ⟨52, 2, .roh, 0x0⟩, ⟨47, 5, .roh, 0x0⟩, ⟨16, 16, .rch, 0x0⟩, ⟨0, 16, .rch, 0x0⟩, ⟨46, 1, .roh, 0⟩]
  | .prtErrors => [⟨48, 16, .rch, 0x0⟩, ⟨32, 16, .rch, 0x0⟩, ⟨16, 16, .rch, 0x0⟩, ⟨0, 16, .rch, 0x0⟩]
  | .tryErrors => [⟨48, 16, .rch, 0x0⟩, ⟨32, 16, .rch, 0x0⟩, ⟨16, 16, .rch, 0x0⟩, ⟨0, 16, .rch, 0x0⟩]
  | .prtErrLog => [⟨48, 16, .roh, 0x0⟩, ⟨32, 14, .roh, 0x0⟩, ⟨16, 16, .roh, 0x0⟩, ⟨0, 1, .rch, 0x0⟩]
  | .prtErrAddr => [⟨0, 64, .roh, 0x0⟩]
  | .tryModuleInfo => [⟨50, 14, .roh, 0x0⟩, ⟨39, 11, .roh, 0x0⟩, ⟨28, 11, .roh, 0x0⟩, ⟨20, 8, .roh, 0x0⟩, ⟨15, 5, .roh, 0x0⟩]
  | .rstCtl => [⟨16, 16, .rw, 0x64⟩, ⟨0, 8, .wo, 0x0⟩]
  | .rstCount => [⟨56, 8, .roh, 0x0⟩, ⟨52, 4, .roh, 0x0⟩, ⟨0, 32, .roh, 0x1⟩]
  | .rstCauseLog => [⟨8, 56, .roh, 0x0⟩, ⟨0, 8, .roh, 0x1⟩]
  | .rstWdogCtl => [⟨56, 8, .wo, 0x0⟩, ⟨0, 16, .rw, 0x0⟩]
  | .rstBlockStatus => [⟨42, 1, .roh, 0x0⟩, ⟨41, 1, .roh, 0x0⟩, ⟨40, 1, .roh, 0x0⟩, ⟨32, 8, .roh, 0x0⟩, ⟨28, 4, .roh, 0x0⟩, ⟨20, 8, .roh, 0x0⟩, ⟨0, 20, .roh, 0x0⟩]
  | .rstBlockLog => [⟨56, 8, .roh, 0x0⟩, ⟨48, 8, .roh, 0x0⟩, ⟨0, 32, .roh, 0x0⟩]
  | .clkPllStatus => [⟨63, 1, .roh, 0x0⟩, ⟨62, 1, .w1ch, 0x0⟩, ⟨61, 1, .roh, 0x0⟩, ⟨60, 1, .roh, 0x0⟩, ⟨32, 16, .rch, 0x0⟩, ⟨0, 12, .roh, 0x0⟩]
  | .clkInputStatus => [⟨63, 1, .roh, 0x0⟩, ⟨62, 1, .roh, 0x0⟩, ⟨61, 1, .roh, 0x0⟩, ⟨60, 1, .roh, 0x0⟩, ⟨32, 16, .rch, 0x0⟩, ⟨16, 16, .rch, 0x0⟩]
  | .pwrDomainStatus => [⟨61, 3, .roh, 0x0⟩, ⟨60, 1, .roh, 0x0⟩, ⟨59, 1, .roh, 0x0⟩, ⟨0, 32, .rch, 0x0⟩]
  | .pwrSleepCtl => [⟨63, 1, .wo, 0x0⟩, ⟨56, 4, .roh, 0x0⟩, ⟨32, 2, .roh, 0x0⟩, ⟨0, 32, .roh, 0x0⟩]
  | .pwrDeferStats => [⟨32, 32, .rch, 0x0⟩, ⟨16, 16, .rch, 0x0⟩, ⟨0, 16, .rch, 0x0⟩]
  | .pinStraps => [⟨4, 1, .roh, 0x0⟩, ⟨3, 1, .roh, 0x0⟩, ⟨0, 3, .roh, 0x0⟩]
  | .pinGpfFunc => [⟨0, 64, .roh, 0x0⟩]
  | .pinGpfOut => [⟨0, 16, .rwh, 0x0⟩]
  | .pinGpfDutyLo => [⟨0, 64, .rwh, 0x0⟩]
  | .pinGpfDutyHi => [⟨0, 64, .rwh, 0x0⟩]
  | .pinGpfIn => [⟨0, 16, .roh, 0x0⟩]
  | .pinIrqStatus => [⟨24, 20, .roh, 0x0⟩, ⟨20, 1, .w1ch, 0x0⟩, ⟨0, 20, .w1ch, 0x0⟩]
  | .pinIrqMask => [⟨0, 20, .rw, 0x0⟩]
  | .pinSel => [⟨0, 5, .rw, 0x0⟩]
  | .pinInfo => [⟨48, 16, .rch, 0x0⟩, ⟨32, 16, .roh, 0x0⟩, ⟨1, 1, .roh, 0x0⟩, ⟨0, 1, .roh, 0x0⟩]
  | .pinTherm => [⟨48, 8, .rw, 0x64⟩, ⟨32, 16, .rch, 0x0⟩, ⟨0, 16, .roh, 0x0⟩]
  | .gafId => [⟨48, 16, .ro, 0x1D9A⟩, ⟨32, 16, .ro, 0x2820⟩, ⟨24, 8, .ro, 0xB0⟩, ⟨16, 8, .ro, 0x1⟩, ⟨8, 8, .ro, 0x0⟩, ⟨0, 8, .ro, 0x1⟩]
  | .gafBootStatus => [⟨32, 32, .roh, 0x0⟩, ⟨9, 1, .roh, 0x0⟩, ⟨8, 1, .roh, 0x0⟩, ⟨7, 1, .roh, 0x0⟩, ⟨6, 1, .roh, 0x0⟩, ⟨5, 1, .roh, 0x0⟩, ⟨0, 4, .roh, 0x0⟩]
  | .gafCsrStatus => [⟨48, 16, .rch, 0x0⟩, ⟨32, 16, .rch, 0x0⟩, ⟨16, 16, .rch, 0x0⟩]
  | .gafAttn => [⟨11, 1, .w1ch, 0x0⟩, ⟨10, 1, .w1ch, 0x0⟩, ⟨9, 1, .w1ch, 0x0⟩, ⟨8, 1, .w1ch, 0x0⟩, ⟨7, 1, .w1ch, 0x0⟩, ⟨6, 1, .w1ch, 0x0⟩, ⟨5, 1, .w1ch, 0x0⟩, ⟨4, 1, .w1ch, 0x0⟩, ⟨3, 1, .w1ch, 0x0⟩, ⟨2, 1, .w1ch, 0x0⟩, ⟨1, 1, .w1ch, 0x0⟩, ⟨0, 1, .w1ch, 0x0⟩]
  | .gafAttnCtl => [⟨32, 8, .rw, 0x0⟩, ⟨0, 12, .rw, 0x0⟩]
  | .kprFuseFeatures => [⟨0, 16, .ro, 0x0⟩]
  | .kprFuseDebug => [⟨2, 1, .ro, 0x0⟩, ⟨1, 1, .ro, 0x0⟩, ⟨0, 1, .ro, 0x0⟩]
  | .kprDeviceDigest => [⟨0, 64, .ro, 0x0⟩]
  | .clkSummary => [⟨32, 15, .roh, 0x0⟩, ⟨15, 4, .roh, 0x0⟩, ⟨0, 15, .roh, 0x0⟩]
  | .pwrSummary => [⟨32, 25, .roh, 0x0⟩, ⟨0, 25, .roh, 0x1⟩]

/-- Every register name. -/
def Reg.all : List Reg :=
  [.gafCmdqBase, .gafCmdqCtl, .gafCmdqDoorbell, .gafCmdqStatus, .gafCmdqCqHead, .gafEpochStatus, .gafEpochExpired, .rngSelfNode] ++
  [.rngRouteStatus, .rngTentHash, .rngRouteCtl, .snpStatus, .snpPool, .snpRefused, .snpCopyStats, .snpRegionSel] ++
  [.snpRegionInfo, .cohCtl, .cohStatus, .cohStats, .cohAgent, .cohRange, .cohHint, .hbcTierFree] ++
  [.hbcMigStatus, .hbcScrubCtl, .hbcScrubStatus, .hbcTelSel, .hbcTelReads, .hbcT3PoolLo, .hbcT3PoolHi, .cmpLanes] ++
  [.cmpStatus, .cmpErrors, .cmpRawBytes, .cmpStoredBytes, .cmpWireCtl, .cmpRegionSel, .cmpRegionInfo, .crwCrewStatus] ++
  [.crwCrewCells, .crwCellSel, .crwCellFault, .crwSummary, .crwRingLoad, .xsuUnitStatus, .xsuUnitCounts, .xsuSummary] ++
  [.gthStatus, .gthErrors, .gthRows, .gthBufCtl, .gthTableSel, .gthTableInfo, .gthKvSel, .gthKvInfo] ++
  [.tryNbuStatus, .tryNbuStats, .tryNbuAllot, .tryNbuCtl, .qmgCtl, .qmgStatus, .qmgCache, .qmgErrors] ++
  [.qmgQueueSel, .qmgQueueInfo, .qmgWeight, .qmgShaperSel, .qmgShaperInfo, .qmgShaperTokens, .qmgAdmitSel, .qmgAdmit] ++
  [.qmgServedSel, .qmgServed, .kprKeyStatus, .kprKeyFault, .kprTamperStatus, .kprConsentStats, .kprTentInfo, .rngGateStats] ++
  [.rngEntrySel, .rngEntryInfo, .rngEntryBase, .rngEntrySize, .gafFailDomain, .gafRushesStatus, .gafRushesCounts, .snpGuySel] ++
  [.snpGuyInfo, .snpGuyCtl, .snpGuyStats, .snpReplicaStats, .kprRasStatus, .hbcEccCtl, .hbcEccStatus, .prtLinkCtl] ++
  [.tryLinkCtl, .prtLinkStatus, .tryLinkStatus, .prtErrors, .tryErrors, .prtErrLog, .prtErrAddr, .tryModuleInfo] ++
  [.rstCtl, .rstCount, .rstCauseLog, .rstWdogCtl, .rstBlockStatus, .rstBlockLog, .clkPllStatus, .clkInputStatus] ++
  [.pwrDomainStatus, .pwrSleepCtl, .pwrDeferStats, .pinStraps, .pinGpfFunc, .pinGpfOut, .pinGpfDutyLo, .pinGpfDutyHi] ++
  [.pinGpfIn, .pinIrqStatus, .pinIrqMask, .pinSel, .pinInfo, .pinTherm, .gafId, .gafBootStatus] ++
  [.gafCsrStatus, .gafAttn, .gafAttnCtl, .kprFuseFeatures, .kprFuseDebug, .kprDeviceDigest, .clkSummary, .pwrSummary]

end Sys2Proof.Machine
end

