-- ==== Sys2Proof/Machine/State.lean ====
section
/-! DEFINITION. The state of the Zorruson: every unit the spec names as plain data. Field defaults are the values at reset: those of the spec, and those named in the assumption log where it gives none. -/

namespace Sys2Proof.Machine

/-- Why the machine stops. No meaning of this model raises a fault: the spec gives every command an outcome. -/
inductive Fault where
  /-- Raised by nothing; kept so that the type is closed and inhabited (safe). -/
  | unreachable
deriving DecidableEq, Repr

/-- Why a command has no meaning. -/
inductive Refusal where
  /-- Raised by exec for a command not modelled yet, by its mnemonic (safe). -/
  | notModelled (mnemonic : String)
deriving DecidableEq, Repr

/-! ### Command queues, takes, clappers (Command set and takes) -/

/-- A command waiting to post its completion: its queue and the fields the completion echoes (Table 2.8). -/
structure CRef where
  q : QId
  tag : BitVec 32
  complInt : Bool
  /-- Which creation of the queue the command was fetched from (R314). -/
  gen : Nat := 0
deriving DecidableEq, Repr

/-- One command queue, a pair of rings (R33, R36, R314). HEAD, TAIL and CQ indices are below 2^n. -/
structure CmdQueue where
  enable : Bool := false
  n : Nat := 6
  /-- Base of the submission ring: offset in the operator window (queue 0) or pooled-memory offset. -/
  base : Nat := 0
  /-- SOURCE of Table 13.8; unused by the operator queue. -/
  source : Nat := 0
  /-- NOTIFY of Table 13.8; `none` for 0xFFFF_FFFF. -/
  notify : Option Nat := none
  head : Nat := 0
  tail : Nat := 0
  cqHead : Nat := 0
  cqTail : Nat := 0
  /-- Completions posted and not yet consumed (R36). -/
  posted : Nat := 0
  /-- Commands fetched whose completions are not yet posted (R36). -/
  running : Nat := 0
  /-- PHASE of the pass in progress: true on the first pass (R36). -/
  phase : Bool := true
  error : Bool := false
  /-- The gaffer has stopped fetching until ENABLE is cleared and set again (R33). -/
  stopped : Bool := false
  /-- Last value written to the doorbell word (Table 13.7). -/
  lastTail : Nat := 0
  /-- Start tag of the queue in the fair queuing of R34, in units of 1/8 turn. -/
  vtag : Nat := 0
  /-- Which creation of this queue number it is: the completions of an earlier one's commands are not posted (R314). -/
  gen : Nat := 0
deriving DecidableEq, Repr

/-- A staged command with the bytes it copied at staging (R42). -/
structure Staged where
  cmd : Instr
  copied : List Byte := []
deriving DecidableEq, Repr

/-- States of a take held open (Table 2.14). -/
inductive TakeState where
  | open | failed | committing
deriving DecidableEq, Repr

/-- A take (R41 to R45). -/
structure Take where
  /-- Issuer: `none` the operator, `some t` tent t. -/
  owner : Option Nat
  state : TakeState
  /-- Staged commands in stage order. -/
  cmds : List Staged
  /-- Stage index recorded by a staging error (R42). -/
  failed : Nat
  /-- End of the lease, in ns of model time (R43). -/
  deadline : Nat
  /-- Lease left in ms, frozen once commit has begun (TAKE.QUERY). -/
  frozen : Nat
deriving DecidableEq, Repr

/-- A commit accepted and not yet flipped (R45, R48): a take, or a command issued alone (R39). -/
structure Commit where
  /-- Take identifier, or `none` for a take of one command. -/
  take : Option Nat
  cmds : List Staged
  cref : CRef
  /-- DRAIN_CLAPPER; `none` for 0xFFFF_FFFF. -/
  drain : Option Nat
  /-- Validation has passed and the flip waits for the old map (R48): it is not validated again. -/
  passed : Bool := false
  /-- Tiles set aside for it since then: tier 0, and by module those of tiers 1 and 2. -/
  held0 : Nat := 0
  heldLow : List (Nat × Nat × Nat) := []
deriving DecidableEq, Repr

/-- A NODE route entry (Table 3.3). -/
structure NodeEntry where
  lo : Nat
  hi : Nat
  ports : Nat
deriving DecidableEq, Repr

/-- A bag set (Table 11.3). -/
structure BagSet where
  pool : Nat
  maxBag : Nat
  bags : Nat
  offs : Nat
  idx : Nat
deriving DecidableEq, Repr

/-- An embedding table (Table 11.2). -/
structure Table where
  tent : Nat
  code : Nat
  outFmt : Nat
  dim : Nat
  stride : Nat
  rows : Nat
  codeBase : Nat
  paramBase : Nat
  sets : List (Nat × BagSet) := []
deriving DecidableEq, Repr

/-- A paged KV cache (Table 11.6): page-table entries by sequence * 32768 + logical page, lengths by sequence. -/
structure KvCache where
  tent : Nat
  fmt : Nat
  hkv : Nat
  dh : Nat
  seqs : Nat
  pages : Nat
  base : Nat
  kScale : Nat
  vScale : Nat
  map : List (Nat × Nat) := []
  lens : List (Nat × Nat) := []
deriving DecidableEq, Repr

/-- The old map kept while requests of its epoch are in flight (R48). -/
structure OldMap where
  epoch : Nat
  /-- 2 ms after the boundary. -/
  deadline : Nat
  drain : Option Nat
  /-- The settings that its requests are still routed and served under (R46, R47): self node, NODE entries, ATTACH nodes, and the engines' tables, caches and views. -/
  self : Option Nat := none
  nodes : List (Nat × NodeEntry) := []
  attach : List (Nat × Nat) := []
  tables : List (Nat × Table) := []
  caches : List (Nat × KvCache) := []
  views : List (Nat × Nat × Nat) := []
deriving DecidableEq, Repr

/-- A clapper (R53, R454). -/
structure Clapper where
  /-- `none` the operator, `some t` tent t. -/
  owner : Option Nat
  ctr : U64
  /-- Sticky overflow flag. -/
  ovf : Bool
deriving DecidableEq, Repr

/-- An armed wait (R54). -/
structure Wait where
  clapper : Nat
  threshold : U64
  /-- End of TIMEOUT_US; `none` for no timeout. -/
  deadline : Option Nat
  who : CRef
deriving DecidableEq, Repr

/-! ### Routes, range gate, tents, ports (Fabric addressing; Tents; Ports) -/

/-- A DECODER route entry (R62). -/
structure Decoder where
  node : Nat
  base : Nat
  size : Nat
  target : Nat
deriving DecidableEq, Repr

/-- A range-gate entry (Table 2.18). -/
structure RngEntry where
  source : Nat
  tent : Nat
  edge : Bool
  target : Nat
  eng : Bool
  wr : Bool
  rd : Bool
  base : Nat
  size : Nat
deriving DecidableEq, Repr

/-- State of one source of a sealed tent (R325, Table 14.9 block 5). -/
inductive AuthState where
  | pending | authenticated | failed | mismatch
deriving DecidableEq, Repr

/-- One source of a tent's source list (Table 14.1). -/
structure Source where
  node : Nat
  port : Nat
  auth : AuthState
  /-- Certificate-chain digest recorded at the first authentication. -/
  digest : Option (List Byte)
deriving DecidableEq, Repr

/-- Tent states of Table 14.2; ABSENT is no entry. -/
inductive TentState where
  | active | fenced | clearing
deriving DecidableEq, Repr

/-- One weight-list entry of a tent (Table 14.9 block 7): 0 HELD, 1 CLOSED, 2 POISONED. -/
structure Weight where
  region : Nat
  reel : Nat
  state : Nat
  digest : List Byte
deriving DecidableEq, Repr

/-- A tent (R317, R326, R333). -/
structure Tent where
  state : TentState
  isSealed : Bool
  span : Nat
  stackSel : Nat
  seed : Nat
  /-- Key slot held by the tent (R317). -/
  slot : Nat
  sources : List Source
  tenantKey : Option (List Byte)
  images : List (List Byte) := []
  weights : List Weight := []
  /-- Debug consent: end time, scope bits [1] PROFILE [0] DEBUG, serial; `none` when not active. -/
  consent : Option (Nat × Nat × Nat) := none
  /-- Last consent serial accepted. -/
  serial : Nat := 0
  /-- CLEARING: by store of the clear engine, the tiles to clear until the last one of the tent's regions is (R318). -/
  clearing : List (Nat × Nat) := []
deriving DecidableEq, Repr

/-- Link states of Table 16.19. -/
inductive LinkState where
  | detect | training | l0 | retrain | down | held
deriving DecidableEq, Repr

/-- What happens to a fabric port's credits: eight channels (R372). -/
structure Credits where
  /-- Units the partner granted us and we may still send, per channel. -/
  send : List Nat := [0, 0, 0, 0, 0, 0, 0, 0]
  /-- Units we granted the partner and it may still send, per channel. -/
  recv : List Nat := [0, 0, 0, 0, 0, 0, 0, 0]
deriving DecidableEq, Repr

/-- A flit of a replay buffer (R370): its FLIT_SEQ and its 238 transaction bytes. -/
structure Flit where
  seq : Nat
  data : List Byte
deriving DecidableEq, Repr

/-- One fabric port: its map settings (R361 to R363) and its live link state. -/
structure FPort where
  role : Nat := 0
  mode : Nat := 0
  ide : Bool := false
  enable : Bool := false
  link : LinkState := .detect
  /-- RATE code of Table 16.19. -/
  rate : Nat := 0
  width : Nat := 0
  /-- MAX_RATE code of PORT.RETRAIN, 0 128 GT/s, 1 64, 2 32. -/
  maxRate : Nat := 0
  ideUp : Bool := false
  /-- Mode of the blob record the port first trains in (R377). -/
  trainMode : Nat := 0
  /-- A PORT.SET_ROLE has been committed for the port: its mode holds from then on (R362, R377). -/
  roleSet : Bool := false
  /-- The port has reached its start time (R376). -/
  started : Bool := false
  /-- The port stops accepting requests: sleep entry (R408), key exchange failed (R330), block reset (Table 17.7). -/
  blocked : Bool := false
  /-- Consecutive failed replays of one flit (Table 16.10). -/
  replays : Nat := 0
  credits : Credits := {}
  /-- The port has been in L0 since it last lost its link: its first credits are granted (R372). -/
  up : Bool := false
  /-- PORT.RETRAIN commands waiting for L0. -/
  retrain : List CRef := []
  /-- Times the port has failed: the completion of a request received before the last failure is discarded (Table 3.13). -/
  losses : Nat := 0
  /-- Native link (R370): transaction bytes not yet in a flit, the next FLIT_SEQ, the flits sent and not acknowledged, oldest first, the FLIT_SEQ of the last flit received, and whether a NAK is due. -/
  tx : List Byte := []
  txSeq : Nat := 0
  flits : List Flit := []
  rxSeq : Nat := 0
  nak : Bool := false
deriving DecidableEq, Repr

/-- One tray port and its module (R379, R380, R123). -/
structure Tray where
  link : LinkState := .detect
  rate : Nat := 0
  width : Nat := 0
  started : Bool := false
  admitted : Bool := false
  /-- Held untrained by its blob record, or by a blob that is not valid (R378). -/
  hold : Bool := false
  /-- A module has been admitted here since reset, and the figures below are its. -/
  seen : Bool := false
  /-- An SPDM session with the module is open (R382). -/
  session : Bool := false
  dGib : Nat := 0
  kGib : Nat := 0
  fGib : Nat := 0
  flash : Nat := 0
  units : Nat := 0
  /-- Free tiles in tier 1 and tier 2 on the module, cleared. -/
  free1 : Nat := 0
  free2 : Nat := 0
  /-- Tier-1 tiles freed or uncleared since reset, waiting for the clear engine (R328, R392). -/
  dirty1 : Nat := 0
  /-- Consecutive failed replays of one flit (Table 16.10). -/
  replays : Nat := 0
deriving DecidableEq, Repr

/-! ### Regions, reels, tiles (Region ownership; Memory tiers; GSB) -/

/-- Where one tile lies (Table 6.1). -/
inductive Place where
  | t0
  | t1 (m : Nat)
  | t2 (m : Nat)
  /-- Slot of a tier-3 pool (R125). -/
  | t3 (pool slot : Nat)
deriving DecidableEq, Repr

/-- A run of a region's first backing: `count` tiles from `first`, striped over the modules in order (R124); `mods` empty means tier 0. -/
structure Run where
  first : Nat
  count : Nat
  tier : Nat
  mods : List Nat
deriving DecidableEq, Repr

/-- One version of a region: the tiles that differ from the first backing, by granule (R85, R102). -/
abbrev View := List (Nat × Nat)

/-- A reel still live: its number and its view (R88). -/
structure Reel where
  num : Nat
  view : View
deriving DecidableEq, Repr

/-- The writer of a region (R92 to R94). -/
structure Writer where
  handle : Nat
  head : View
  /-- RESERVE granted and what is left of it (R97), and how many of those left are freed granules not cleared since (R88). -/
  reserve : Nat
  left : Nat
  soiled : Nat := 0
  onLimit : Bool
  timeout : Nat
  /-- A REEL.COMMIT that waits for a slot: its deadline and completion (R94). -/
  commitWait : Option (Option Nat × CRef)
deriving DecidableEq, Repr

/-- A write open that waits for a slot (R92). -/
structure OpenWait where
  handle : Nat
  reserve : Nat
  timeout : Nat
  deadline : Option Nat
  cref : CRef
deriving DecidableEq, Repr

/-- GSB setting of a region: block size code and element code (R153). -/
structure GsbSet where
  size : Nat
  elem : Nat
deriving DecidableEq, Repr

/-- A region (R83 to R103). -/
structure Region where
  owner : Nat
  base : Nat
  size : Nat
  /-- Extent number: tile of granule g in the first backing is ext * 2^24 + g. -/
  ext : Nat
  runs : List Run
  /-- Hash parameters of the creating tent (R68). -/
  span : Nat
  stackSel : Nat
  seed : Nat
  /-- Key slot of the creating tent, and key generation (R326). -/
  slot : Nat
  keyGen : Nat
  /-- The region key is destroyed: reads as poisoned (R319). -/
  keyDead : Bool
  current : Nat
  /-- Live committed reels, the current one first. -/
  reels : List Reel
  writer : Option Writer
  waiting : Option OpenWait
  gsb : Option GsbSet
  /-- Conversion in progress: the setting left behind, granules converted, clapper (R154). -/
  conv : Option (Option GsbSet × List Nat × Option Nat)
  /-- Coherent by this range entry (R108). -/
  coherent : Bool
  /-- Last module a tile of the region went to, per tier (R124). -/
  lastMod1 : Option Nat
  lastMod2 : Option Nat
  /-- On a guy-line secondary: the copy of the primary's current reel while SYNCING, and the mirrored head (R341, R342). -/
  mbase : Option View := none
  mhead : Option View := none
  /-- Tier-0 tiles that its header chunks take (R152, R159). -/
  heads : Nat := 0
deriving DecidableEq, Repr

/-- A reader handle and its reel read entry, or a writer handle (R90, R92). -/
structure Handle where
  region : Nat
  tent : Nat
  writer : Bool
  source : Nat
  reel : Nat
deriving DecidableEq, Repr

/-- One tile of a hint on its way (R130, R131). -/
structure TileMove where
  tile : Nat
  target : Place
  /-- The copy has ended and waits for its group (R131). -/
  copied : Bool
deriving DecidableEq, Repr

/-- A hint in progress (R128 to R131). -/
structure Hint where
  region : Nat
  tent : Nat
  whole : Bool
  clapper : Option Nat
  owner : Option Nat
  moves : List TileMove
  /-- Order of acceptance among the hints in progress (Table 6.6). -/
  seq : Nat
deriving DecidableEq, Repr
/-! ### Requests in flight (Fabric addressing; Ports) -/

/-- Who receives the completion of a request. -/
inductive Origin where
  /-- A device or switch on fabric port `p`; the completion echoes the request's tag, address and source node. -/
  | port (p : Nat) (m : Msg)
  /-- A dolly request of a cell: its number, the run and the ticket, and the local address the data of a read goes to. -/
  | dolly (cell run ticket dst : Nat)
  /-- A multicast write of a window, or its notify store: slot, multicast, destination (R233). -/
  | mcast (slot batch dest : Nat) (notify : Bool)
  /-- A read reissued to an alternate: the alternate's index and the request it serves (R350). -/
  | replica (k : Nat) (txn : Nat)
  /-- A read of a tile in a host's tier-3 pool, for a request (R125). -/
  | tier3 (txn : Nat)
  /-- A read of a line that a host's tier-3 pool holds, for an engine's load: the key of the line (R125). -/
  | fetch (key : Nat)
  /-- The rows that an EMB.ROW_REPLACE wrote to a guy-line primary: a number for it, its command, CLAPPER, status and rows replaced (R73, R256). -/
  | rows (op : Nat) (c : CRef) (clapper : Option Nat) (status done : Nat)
  /-- A copied request of a rushes session, applied by the candidate: its sequence number and message type (R352). -/
  | shadow (seq ty : Nat) (m : Msg)
  /-- The completion is discarded. -/
  | none
deriving DecidableEq, Repr

/-- Where a request in flight stands. -/
inductive Stage where
  /-- Not performed yet: it waits for earlier requests only (R71, R72). -/
  | ready
  /-- Waits in the output queue of a fabric port (R295, R372). -/
  | egress (p : Nat)
  /-- Forwarded on a fabric port; its completion has not returned (R79). -/
  | forwarded (p : Nat)
  /-- Waits for the hold of its path group to end (R77). -/
  | pathHeld (ports : Nat)
  /-- Waits at a shaped arbitration point: 256 * kind + index of Table 13.3 (R298). -/
  | shaped (res : Nat)
  /-- A tray request: module and request tag on the tray link (R379). -/
  | tray (m : Nat)
  /-- A write that waits for a copy or promotion of its granule (R96, R98, R126). -/
  | copy (region granule : Nat)
  /-- A mirrored write that waits for the secondary's acknowledgement (R342). -/
  | mirror (region seq : Nat)
  /-- A write that waits for a granule's guy-line copy (R341). -/
  | guyCopy (region granule : Nat)
  /-- A store merged into a block whose re-encode is due (R157). -/
  | reencode (tile block : Nat)
  /-- A store merged into the re-encode in progress (R157). -/
  | encoding (tile block : Nat)
  /-- A request that waits while its block or stack idles or resets (Table 17.7). -/
  | blockWait (code : Nat)
  /-- An access to a coherent line that waits for its transaction (R115). -/
  | coherent (line : Nat)
  /-- A contribution the collective engine has begun to take, or an fp64 read that waits for the tree. -/
  | window (slot : Nat)
  /-- A bag or view access that waits for its engine. -/
  | gather (table : Nat)
  /-- A read that is reissued to an alternate (R350). -/
  | alternate
  /-- A FENCE that waits for the earlier requests of its source (R72). -/
  | fence
deriving DecidableEq, Repr

/-- A request in flight: its stamp (R47), its origin, and what it waits for. -/
structure Txn where
  id : Nat
  epoch : Nat
  origin : Origin
  /-- Source identity (R61). -/
  source : Nat
  /-- Flow tent, 128 for the transit flow, and class (R294). -/
  tent : Nat
  cls : Nat
  /-- Does the request count as an engine access (R13)? -/
  eng : Bool
  ty : Nat
  /-- Native address. -/
  addr : Nat
  len : Nat
  data : List Byte
  /-- Poison lines of a WRITE; byte enables of a WRITE_PARTIAL. -/
  mask : Nat
  /-- PLINE of a WRITE_PARTIAL. -/
  pline : Bool
  contrib : Bool
  /-- Target agent of a write hint (R112). -/
  hint : Option Nat
  stage : Stage
  /-- The request has passed the range gate and carries a stamp (R47). -/
  gated : Bool := false
  /-- Tag under which it was forwarded. -/
  tag : Nat := 0
  /-- Status of the original outcome while an alternate is asked (R350). -/
  held : Nat := 0
  /-- Sequence number of the copy a rushes session made of it (R352). -/
  shadow : Option Nat := none
  /-- Hop budget left (R66). -/
  hops : Nat := 6
  /-- Model time by which a forwarded request must leave (R76), or a limit of its stage. -/
  deadline : Option Nat := none
  /-- Failures that the port it arrived on had seen then (Table 3.13). -/
  losses : Nat := 0
  /-- Shaped points that it has passed: codes 256 * kind + index (R298). -/
  points : List Nat := []
  /-- Bytes that it asks of the shaped point it waits at. -/
  unit : Nat := 0
  /-- Bytes of a compressed tile's span that its module has answered so far. -/
  fetched : Nat := 0
  /-- Model time at which it passed the range gate to a window slot (R238). -/
  passed : Option Nat := none
deriving DecidableEq, Repr

/-- A message waiting at a fabric egress port for credit or for its shaper (R295, R298, R372). -/
structure Egress where
  /-- The forwarded request it carries, if any. -/
  txn : Option Nat
  port : Nat
  tent : Nat
  cls : Nat
  chan : Nat
  ty : Nat
  msg : Msg
deriving DecidableEq, Repr

/-- What the device sends out: messages on ports, interrupt vectors, answers of the management endpoint. -/
inductive Out where
  /-- Message type and body leaving fabric port `p`. -/
  | msg (p ty : Nat) (m : Msg)
  /-- The 256 bytes of a flit on a native port, which carries the messages (R370). -/
  | flit (p : Nat) (bytes : List Byte)
  /-- INIT at link-up: the first credits of the eight channels (R372). -/
  | init (p : Nat) (credits : List Nat)
  /-- CXL.mem request to a tray module: tag, write, module tile address, line offset, length, key slot (R379). -/
  | tray (m tag : Nat) (write : Bool) (tile off len slot : Nat)
  /-- Near-bank channel down message (Table 12.1). -/
  | nbu (m : Nat) (body : List Byte)
  /-- Gate message in a module's SPDM session (Table 14.5). -/
  | gate (m : Nat) (body : List Byte)
  /-- MSI-X vector of the management endpoint (R36, R444). -/
  | vector (v : Nat)
  /-- Answer of an endpoint read: BAR0 register or BAR2 window. -/
  | read (addr : Nat) (data : List Byte)
  /-- Configuration answer on a port or on the endpoint (20): retry status, or served, with the 4 bytes of a read (R377, R453). -/
  | config (p : Nat) (tag : Nat) (retry : Bool) (data : List Byte)
  /-- SPDM responder answer (R383). -/
  | spdm (code : Nat) (body : List Byte)
  /-- SPDM request of the keeper acting as requester towards a port's device (true: tray module). -/
  | spdmReq (tray : Bool) (p : Nat) (kind : Nat)
  /-- NAK and replay on a link (R375). -/
  | nak (p : Nat)
  /-- Answer of a JTAG access: granted, data. -/
  | jtag (granted : Bool) (data : List Byte)
deriving DecidableEq, Repr

/-- A hold on a path group, and the model time at which it ends (R77). -/
structure Hold where
  ports : Nat
  deadline : Nat
deriving DecidableEq, Repr

/-! ### Queue manager (Queues, scheduling and shaping) -/

/-- A hardware queue (R306, R309). -/
structure HwQueue where
  tent : Nat
  cls : Nat
  weight : Nat
  n : Nat
  e : Nat
  source : Nat
  put : Option Nat
  get : Option Nat
  base : Nat
  head : BitVec 32 := 0
  tail : BitVec 32 := 0
  error : Bool := false
deriving DecidableEq, Repr

/-- A shaper with its buckets (R298, R300, R302). -/
structure Shaper where
  tent : Nat
  reserved : Bool
  wide : Bool
  cls : Nat
  kind : Nat
  index : Nat
  cir : Nat
  pir : Nat
  cbs : Nat
  pbs : Nat
  committed : Nat
  peak : Nat
  /-- Bytes left of the slot in progress of a reserved shaper. -/
  slotLeft : Nat := 0
  /-- Model time to which the buckets are filled; they hold thousandths of a byte. -/
  stamp : Nat := 0
  /-- Model time of the epoch boundary that set it; none until that boundary (R300, R302). -/
  start : Option Nat := none
  /-- Slots of a reserved shaper that have begun (R300). -/
  slots : Nat := 0
deriving DecidableEq, Repr

/-- Virtual times and start tags of one arbitration point (R296), in fractions of a byte that every weight divides (`tagUnit`). -/
structure Arb where
  v : Nat := 0
  tags : List (Nat × Nat) := []
  /-- Class level: virtual time and tags per tent (key tent). -/
  vClass : List (Nat × Nat) := []
  tagsClass : List (Nat × Nat) := []
deriving DecidableEq, Repr

/-! ### Coherence directory (The compatibility coherence domain) -/

/-- Stable directory states (Table 5.3). -/
inductive DirState where
  | invalid | shared | owned
deriving DecidableEq, Repr

/-- One directory entry (Table 5.3); an absent entry is INVALID without poison. -/
structure DirEntry where
  state : DirState := .invalid
  owner : Nat := 0
  sharers : Nat := 0
deriving DecidableEq, Repr

/-- What asked for a coherent line; a flow is a tent and a class (R294). -/
inductive CohReq where
  | rdShared (agent tag : Nat) (flow : Nat × Nat)
  | rdOwn (agent tag : Nat) (flow : Nat × Nat)
  | ownNoData (agent tag : Nat) (flow : Nat × Nat)
  /-- An eviction, with the dirty line and its poison. -/
  | evict (agent tag : Nat) (flow : Nat × Nat) (dirty : Option (List Byte × Bool))
  /-- A caching-free access, the request in flight that carries it. -/
  | load (txn : Nat)
  | store (txn : Nat)
  /-- The flush of a range, or of one agent's copies. -/
  | flush (agent : Option Nat)
  /-- An engine's store of a line: source, flow, bytes, byte enables, poison. -/
  | engine (source : Nat) (flow : Nat × Nat) (bs : List Byte) (en : Nat) (poison : Bool)
  /-- The line that an engine's load waits for, by its key. -/
  | fetch (key : Nat) (flow : Nat × Nat)
  /-- A Hint has been sent and awaits its answer (R112). -/
  | hint
deriving DecidableEq, Repr

/-- A transaction in progress on one line (BUSY, R109). -/
structure CohTxn where
  line : Nat
  req : CohReq
  /-- Agents whose snoop answers are outstanding, as a bit set. -/
  wait : Nat
  /-- Snoop operation sent (Table 16.7). -/
  snoop : Nat
  /-- Data that an owner supplied, and its poison. -/
  data : Option (List Byte × Bool)
  /-- A Hint is outstanding to this agent (R112). -/
  hintTo : Option Nat
deriving DecidableEq, Repr

/-- A line that an engine's load must wait for: the key of the line in its tile, its number in pooled memory, the native address where a host holds it (R125) or none where a snoop brings it (Table 5.5), and the flow of the work (R294). -/
structure Need where
  key : Nat
  line : Nat
  host : Option Nat
  tent : Nat
  cls : Nat
deriving DecidableEq, Repr

/-- A flush in progress (R118): a region, or an agent with the entry it had. -/
inductive Flush where
  | region (r : Nat)
  | agent (a entry : Nat)
deriving DecidableEq, Repr

/-! ### Guy lines, replicas, rushes (Failure domains) -/

/-- Guy-line states of Table 15.3. -/
inductive GuyState where
  | linking | syncing | inSync | solo | stale | broken
deriving DecidableEq, Repr

/-- A guy line (R338 to R347). -/
structure Guy where
  secondary : Bool
  partner : Nat
  partnerRegion : Nat
  pairId : Nat
  clapper : Option Nat
  state : GuyState := .linking
  reason : Nat := 0
  /-- Granules set in the dirty map. -/
  dirty : List Nat := []
  /-- Primary SYNCING: granules still to send, and granules sent and not yet acknowledged with their SEQ. -/
  toSync : List Nat := []
  syncOut : List (Nat × Nat) := []
  /-- Next mirror sequence number to send, and the next one expected. -/
  seqOut : Nat := 0
  seqIn : Nat := 0
  /-- Mirror messages received ahead of sequence are not expected on an ordered channel; commit points waiting for their acknowledgement: SEQ and the command. -/
  commitOut : List (Nat × CRef × Nat) := []
  /-- Lines of the region written and not yet sent to the secondary, in write order (R342). -/
  todo : List Nat := []
  /-- Bytes mirrored so far. -/
  bytes : Nat := 0
  /-- The line has reached IN_SYNC once (R341). -/
  wasInSync : Bool := false
deriving DecidableEq, Repr

/-- A replica set (R349). -/
structure Replica where
  source : Nat
  alts : List Nat
deriving DecidableEq, Repr

/-- One response held in the shadow buffer: sequence, source node, tent, address, status, data, poison (R352). -/
structure Shadow where
  seq : Nat
  source : Nat
  tent : Nat
  addr : Nat
  status : Nat
  data : List Byte
  mask : Nat
  /-- The working switch's own response is known. -/
  ready : Bool
  /-- The candidate's response, when it came first. -/
  peer : Option (Nat × List Byte × Nat)
deriving DecidableEq, Repr

/-- A rushes session (R351 to R354). State codes of Table 15.15. -/
structure Rushes where
  state : Nat := 0
  candidate : Bool := false
  peer : Nat := 0
  ports : Nat := 0
  tents : Nat := 0
  target : Nat := 0
  clapper : Option Nat := none
  seq : Nat := 0
  buffer : List Shadow := []
  /-- At the candidate: copies that came ahead of sequence, with their types. -/
  early : List (Nat × Nat × Msg) := []
  compared : Nat := 0
  mismatch : Nat := 0
  missing : Nat := 0
deriving DecidableEq, Repr

/-- One rushes-log entry (R359). -/
structure RushLog where
  seq : Nat
  source : Nat
  tent : Nat
  kind : Nat
  byte : Nat
  offset : Nat
deriving DecidableEq, Repr

/-- One RAS log entry (Table 15.9). -/
structure RasEntry where
  seq : Nat
  time : Nat
  code : Nat
  severity : Nat
  tent : Option Nat
  node : Nat
  detail : Nat
  offset : Nat
deriving DecidableEq, Repr

/-! ### Reset, clocks, power, pins -/

/-- Power-domain states of Table 17.11. -/
inductive PdState where
  | off | starting | on | stopping | clockStopped | retain
deriving DecidableEq, Repr

/-- A keeper operation that holds a domain (Table 17.14): the hashing of a slate for a tent, or the IDE_KM exchange of a port. -/
inductive KHold where
  | slate (tent : Nat)
  | ide (port : Nat)
deriving DecidableEq, Repr

/-- One power domain (R403). -/
structure Domain where
  state : PdState := .off
  /-- Keeper operations that hold the domain, oldest first (R406). -/
  holds : List KHold := []
  deferred : Bool := false
  /-- TIMEOUT_US of the PWR.SET_DOMAIN in progress (Table 17.12). -/
  timeout : Nat := 0
  /-- A PWR.SET_DOMAIN in progress: target action, its completion, DEFERRED and FORCED seen so far. -/
  change : Option (Nat × CRef × Bool × Bool) := none
  /-- State held before SLEEP1 (R409). -/
  before : Option PdState := none
deriving DecidableEq, Repr

/-- A block reset in progress (Table 17.5): step 1 waiting for the keeper, step 2 idling, step 4 held. -/
structure BlockReset where
  step : Nat
  cref : Option CRef
  errored : Nat := 0
  /-- TIMEOUT_US of the command (Table 17.6). -/
  timeout : Nat := 0
deriving DecidableEq, Repr

/-- A PWR.SLEEP on its way (R408): state asked for, wake timer, its completion, whether it still waits for the keeper (else for idle), and a wake that came during entry. -/
structure SleepOp where
  state : Nat
  wakeS : Nat
  cref : CRef
  keeper : Bool
  wake : Option Nat := none
  /-- TIMEOUT_US of the command (Table 17.17). -/
  timeout : Nat := 0
deriving DecidableEq, Repr

/-- One PLL (Table 17.8). -/
structure Pll where
  locked : Bool := false
  freq : Nat := 0
  ref : Nat := 0
  sris : Bool := false
  /-- Consecutive measurement windows outside ±2 % (R400). -/
  bad : Nat := 0
deriving DecidableEq, Repr

/-- One function-switched pin (R423 to R425). FUNCTION 0 is OFF. -/
structure Pin where
  func : Nat := 0
  polarity : Bool := false
  /-- The safe interval runs (R425). -/
  safe : Bool := false
  /-- Accepted input level. -/
  level : Bool := false
  stuck : Bool := false
  /-- Accepted falling edges since the last tachometer update. -/
  edges : Nat := 0
  tach : Nat := 0
  /-- EPOCH_OUT level. -/
  epochOut : Bool := false
deriving DecidableEq, Repr
/-- What a function-switched pin drives (R423, R425, Table 18.8): nothing, a level, or the 25 kHz wave of a duty. -/
inductive PinDrive where
  | off
  | level (high : Bool)
  | pwm (duty : Nat)
deriving DecidableEq, Repr

/-! ### Crews and cells (chapters 8 and 9) -/

/-- Cell states (Table 8.16). -/
inductive CellState where
  | idle | running | waiting | stopping | halted | faulted
deriving DecidableEq, Repr

/-- An exact accumulator (Table 9.11): FLAGS are [4] POISON, [3] OVF, [2] NAN, [1] NINF, [0] PINF. -/
structure Accum where
  value : BitVec 320 := 0
  count : BitVec 32 := 0
  flags : BitVec 5 := 0
deriving DecidableEq, Repr

/-- A dolly transfer not yet retired (Table 8.11, R174 to R176). -/
structure Xfer where
  ticket : Nat
  /-- Local address of the descriptor. -/
  addr : Nat
  src : Nat
  dst : Nat
  len : Nat
  rows : Nat
  srcFab : Bool
  dstFab : Bool
  srcStride : Nat
  dstStride : Nat
  clapper : Option Nat
  /-- Next row and byte of it to issue; `row = rows` when every request is issued. -/
  row : Nat := 0
  pos : Nat := 0
  /-- Requests issued and not completed. -/
  out : Nat := 0
  /-- CREW.STOP came before the transfer began (Table 8.12). -/
  abandoned : Bool := false
  /-- Highest code of Table 8.12 so far. -/
  status : Nat := 0
  /-- DONE_BYTES. -/
  bytes : Nat := 0
  /-- Number of the CREW.START of the run that submitted it: tickets count from 1 in every run. -/
  run : Nat := 0
  /-- Local writes that its retirement makes visible (R176): local address, bytes, poisoned lines. -/
  writes : List (Nat × List Byte × Nat) := []
deriving DecidableEq, Repr

/-- What a WAITING cell waits for (Table 8.16). -/
inductive CellWait where
  /-- dwait: the retired count. -/
  | retired (ticket : U64)
  /-- dsub with 16 transfers not retired: the ticket's register and the checked descriptor. -/
  | submit (gd : BitVec 5) (x : Xfer)
  /-- cwait: clapper and threshold. -/
  | clap (gd : BitVec 5) (n : Nat) (threshold : U64)
  /-- fence, the fence of bar, the fence of halt (R179, R181). -/
  | fence
  | barFence
  | haltFence
  /-- bar, arrived. -/
  | bar
deriving DecidableEq, Repr

/-- What an exception recorded (Table 8.14). -/
structure CellFault where
  cause : Nat
  instr : Nat
  pc : U64
  addr : Nat
  value : Nat
deriving DecidableEq, Repr

/-- A fault record still to be written after its cell has been started again (R180): the faulted run, where the record and the clapper addition go, and what it says. -/
structure DueRecord where
  run : Nat
  source : Nat
  report : Option Nat
  clapper : Option Nat
  fault : CellFault
  instrs : Nat
deriving DecidableEq, Repr

/-- A cell (Table 8.2, Table 8.21). -/
structure Cell where
  state : CellState := .idle
  g : Vector U64 32 := Vector.replicate 32 0
  p : Vector (BitVec 32) 8 := Vector.replicate 8 0
  v : Vector (BitVec 256) 16 := Vector.replicate 16 0
  x : Vector Accum 4 := Vector.replicate 4 {}
  pc : U64 := 0
  /-- Scratch bytes by local address, and its marked lines (R173). -/
  scratch : List Host.Cell := []
  marks : List Nat := []
  xfers : List Xfer := []
  submitted : Nat := 0
  retired : Nat := 0
  /-- Instructions retired since CREW.START (Table 8.15). -/
  instrs : Nat := 0
  source : Nat := 0
  doneClap : Option Nat := none
  faultClap : Option Nat := none
  /-- REPORT_BASE; `none` for 0xFFFF_FFFF. -/
  report : Option Nat := none
  /-- Number of the CREW.START that started it (R179). -/
  group : Nat := 0
  wait : Option CellWait := none
  /-- Last fault, none since the last start (Table 8.31). -/
  fault : Option CellFault := none
  /-- The fault record is still to be written (R180). -/
  recordDue : Bool := false
  /-- Fault records of earlier runs still to be written (R180). -/
  older : List DueRecord := []
deriving DecidableEq, Repr

/-- A bound accumulator area (R214, R222): first record, records, window slot. -/
structure Area where
  base : Nat
  records : Nat
  slot : Nat
deriving DecidableEq, Repr

/-- A crew (Table 8.28). -/
structure Crew where
  tent : Option Nat := none
  /-- Released and still stopping or clearing (R184). -/
  clearing : Bool := false
  /-- Released by the take that is being applied: a later claim of the same take finds it free (R50). -/
  released : Bool := false
  /-- The tent of that later claim; the crew is its tent's once it is clear. -/
  next : Option Nat := none
  loaded : Bool := false
  image : Nat := 0
  /-- Text of the loaded image: crew-memory offset, length, default entry (Table 8.19). -/
  textBase : Nat := 0
  textLen : Nat := 0
  entry : Nat := 0
  mem : List Host.Cell := []
  /-- Marked lines of crew memory (R173). -/
  marks : List Nat := []
  area : Option Area := none
  /-- ATTN.DECODE operation that runs on the crew (R267). -/
  decode : Option Nat := none
  /-- Addends absorbed by the exact-sum unit since the last read (Table 9.18). -/
  addends : Nat := 0
deriving DecidableEq, Repr

/-- A CREW.STOP waiting for its cells (R188): cells left, cells stopped. -/
structure StopWait where
  cref : CRef
  left : List Nat
  stopped : Nat
deriving DecidableEq, Repr

/-- The crews: crews by number, cells by crew * 32 + cell. -/
structure Crews where
  crews : List (Nat × Crew) := []
  cells : List (Nat × Cell) := []
  starts : Nat := 0
  stops : List StopWait := []
deriving DecidableEq, Repr

/-! ### Collective windows (chapter 10) -/

/-- Window states (Table 10.9). -/
inductive WState where
  | open | completing | complete | failed
deriving DecidableEq, Repr

/-- A member of a window: its share so far and its report entry (R228, Table 10.11). -/
structure Member where
  node : Nat
  bytes : Nat := 0
  first : Option Nat := none
  done : Option Nat := none
  refused : Bool := false
  poisoned : Bool := false
  /-- Byte ranges accepted this round (R228). -/
  sent : List (Nat × Nat) := []
deriving DecidableEq, Repr

/-- Multicast to one destination (R233): writes outstanding, notify store issued, an error seen, notify store completed, counted in MCAST_FAIL. -/
structure Dest where
  addr : Nat
  notify : Option Nat
  out : Nat := 0
  asked : Bool := false
  failed : Bool := false
  notified : Bool := false
  counted : Bool := false
deriving DecidableEq, Repr

/-- One predicate step (Table 10.13). -/
structure FStep where
  op : Nat
  arr : Nat
  join : Nat
  ty : Nat
  field : Nat
  keyLen : Nat
  a : Nat
  b : Nat
deriving DecidableEq, Repr

/-- One Bloom array in the Bloom store: LOG2_BITS, HASHES, bytes. -/
structure Bloom where
  log2 : Nat
  hashes : Nat
  data : List Host.Cell
deriving DecidableEq, Repr

/-- The FILTER fields of a window (Table 10.12). -/
structure Filter where
  steps : List FStep
  smallest : Bool
  indices : Bool
  recLen : Nat
  k : Nat
  keyOff : Nat
  keyType : Nat
  outAddr : Nat
  outMax : Nat
  blooms : List (Nat × Bloom)
deriving DecidableEq, Repr

/-- An open window (R218 to R243). -/
structure Window where
  tent : Nat
  kind : Nat
  source : Nat
  clapper : Option Nat
  timeout : Nat
  op : Nat
  inFmt : Nat
  outFmt : Nat
  count : Nat
  lateNs : Nat
  crews : List Nat
  areaBase : Nat
  records : Nat
  dataAddr : Nat
  members : List Member
  dests : List Dest
  /-- Multicast replication buffer held. -/
  buffer : Option Nat
  filter : Option Filter
  state : WState := .open
  cause : Nat := 0
  round : Nat := 0
  /-- Model time at which the round began. -/
  start : Nat
  /-- ELAPSED_NS, frozen on COMPLETE or FAILED. -/
  elapsed : Option Nat := none
  poisonedLines : Nat := 0
  refused : Nat := 0
  mcastFail : Nat := 0
  nMatches : Nat := 0
  written : Nat := 0
  /-- The round time has reached TIMEOUT_US in this round, or can no longer fire (R243). -/
  timed : Bool := false
  /-- The window fails once the writes already issued have completed (Table 10.8). -/
  failing : Bool := false
  /-- A byte was sent twice in this round: the result is not specified (R228). -/
  unspecified : Bool := false
  /-- The completion clapper was advanced in this round (R236). -/
  advanced : Bool := false
  /-- The multicast of this round, once it has begun: the number of the first request it may issue, which no other multicast shares. -/
  batch : Option Nat := none
  /-- Replication buffer: result bytes and poisoned lines (R233). -/
  result : List Byte := []
  resultPoison : List Nat := []
deriving DecidableEq, Repr

/-! ### Embedding tables and KV caches (chapter 11) -/

/-- An output in the pooled-row buffer (R255): whose bag, its bytes and poisoned lines, the lines already read, and the end of its hold. -/
structure Buffered where
  table : Nat
  set : Nat
  bag : Nat
  source : Nat
  data : List Byte
  poison : List Nat
  seen : List Nat
  deadline : Nat
deriving DecidableEq, Repr

/-- An ATTN.DECODE in progress (R266, R267). -/
structure Decode where
  cref : CRef
  tent : Nat
  crews : List Nat
  cache : Nat
  source : Nat
  clapper : Option Nat
  /-- Job block (Table 11.9), as read when the command was checked. -/
  job : List Byte
deriving DecidableEq, Repr

/-- The gather/embedding and KV engine. -/
structure Gather where
  tables : List (Nat × Table) := []
  caches : List (Nat × KvCache) := []
  /-- Bound views: cache and sequence. -/
  views : List (Nat × Nat × Nat) := []
  /-- Pooled-row buffer by entry number, oldest first. -/
  buf : List (Nat × Buffered) := []
  nextBuf : Nat := 0
  decodes : List (Nat × Decode) := []
  nextOp : Nat := 0
deriving DecidableEq, Repr

/-! ### Near-bank units (chapter 12) -/

/-- A binding of a run (Table 12.10), with the tiles it resolved to: tile identifiers of a REGION binding, module tile addresses of a WORK binding. -/
structure Bind where
  work : Bool
  off : Nat
  rows : Nat
  rowLog2 : Nat
  fmt : Nat
  tiles : List Nat := []
deriving DecidableEq, Repr

/-- A near-bank run (R283 to R285). -/
structure NbuRun where
  cref : CRef
  tent : Nat
  allot : Nat
  source : Nat
  clapper : Option Nat
  binds : List Bind
  /-- In-copies and out-copies: pooled-memory offset and binding. -/
  ins : List (Nat × Nat)
  outs : List (Nat × Nat)
  /-- Step in progress, 0 to 15. -/
  step : Nat := 0
  /-- Units whose STEP_DONE is outstanding. -/
  left : List Nat := []
  /-- A unit answered with a failure. -/
  failed : Bool := false
  poisoned : Bool := false
  poisonRows : Nat := 0
  /-- The tent was fenced: the run ends after the current step (Table 12.12). -/
  aborting : Bool := false
  /-- Tag of the START in progress. -/
  tag : Nat := 0
  /-- When STEP_TIMEOUT_MS of the START in progress has passed (R286, R292). -/
  limit : Nat := 0
  /-- Allotment bytes and poisoned lines of the module at the START in progress, which are the operands of its step (R279). -/
  seen : List Host.Cell := []
  seenMarks : List Nat := []
deriving DecidableEq, Repr

/-- What waits for the answer to a channel message. -/
inductive NbuWait where
  /-- A step of NBU.PROGRAM, by its command. -/
  | program (c : CRef)
  /-- A START: one STEP_DONE of each unit. -/
  | start
  /-- A RESET: its RESET_DONE. -/
  | reset
  /-- A read of a unit's UNIT_ID, or of its UNIT_CAPS, at admission (R291). -/
  | probe (caps : Bool) (unit : Nat)
  /-- Any other message. -/
  | plain
deriving DecidableEq, Repr

/-- An NBU.PROGRAM waiting for its acknowledgements (R282). -/
structure Program where
  cref : CRef
  allot : Nat
  left : Nat
  /-- The 16 steps that the slot holds once every unit has acknowledged; none after a module reset or a fence. -/
  steps : List (BitVec 128)
  /-- The tent whose image list takes the digest at the end. -/
  tent : Nat
  digest : List Byte
deriving DecidableEq, Repr

/-- The near-bank side of a tray module. -/
structure Nbu where
  /-- Reads of the admission check still outstanding (R291). -/
  probes : Nat := 0
  /-- UNIT_GBPS and BUS_GBPS that the module reported. -/
  unitGbps : Nat := 0
  busGbps : Nat := 0
  /-- Module key slots loaded: slot and the device key slot whose key it holds. -/
  keys : List (Nat × Nat) := []
  /-- Micro-program store, the same on every unit: step index and its 16 bytes; an absent step is END. -/
  prog : List (Nat × BitVec 128) := []
  /-- Allotment tiles: bytes by module byte address, and poisoned lines (R274, R285). -/
  mem : List Host.Cell := []
  marks : List Nat := []
  queue : List NbuRun := []
  running : Option NbuRun := none
  /-- A reset is in progress, and the NBU.RESET commands that wait for it. -/
  resetting : Bool := false
  resets : List CRef := []
  programs : List Program := []
  /-- Down messages that wait for one of the 16 places (R381), oldest first, their TAG not yet set. -/
  down : List (List Byte × NbuWait) := []
  /-- Messages unanswered, by TAG, with the answers outstanding. -/
  waits : List (Nat × Nat × NbuWait) := []
  nextTag : Nat := 0
  /-- Units in calibration. -/
  cal : List Nat := []
  /-- Virtual time and start tags per tent of the run queue (R284). -/
  v : Nat := 0
  tags : List (Nat × Nat) := []
deriving DecidableEq, Repr

/-! ### The units -/

/-- The gaffer: queues, takes, commits, clappers (chapter 2). -/
structure Gaffer where
  /-- The operator queue. -/
  opq : CmdQueue := {}
  /-- Tent command queues by tent * 16 + k. -/
  cmdqs : List (Nat × CmdQueue) := []
  /-- Virtual time of R34, in units of 1/8 turn. -/
  vtime : Nat := 0
  /-- Number of the next creation of a tent command queue (R314). -/
  nextGen : Nat := 1
  takes : List (Nat × Take) := []
  /-- Commits validated and waiting for an old map to be freed, in fetch order (R45, R48). -/
  commits : List Commit := []
  epoch : BitVec 32 := 0
  oldMap : Option OldMap := none
  /-- The flip of a commit whose validation has passed is being made: what may change between validation and flip is not checked again (R48). -/
  flipping : Bool := false
  clappers : List (Nat × Clapper) := []
  /-- Armed waits by wait slot (R54). -/
  waits : List (Nat × Wait) := []
  /-- Waits whose threshold has been met and whose completion is due: slot and the counter value. -/
  fired : List (Nat × U64) := []
  /-- Operator window and the rest of the reserved area, 1 GiB (R384); an unlisted byte reads as 0. -/
  window : List Host.Cell := []
  /-- Boot stage (Table 16.11). -/
  stage : Nat := 0
  /-- Error halt (R356), boot halt by tamper (R334). -/
  errorHalt : Bool := false
  bootHalt : Bool := false
  /-- Configuration blob in use (Table 19.6). -/
  blobValid : Bool := false
  blobCopy : Bool := false
  blobSeq : Nat := 0
  rushes : Rushes := {}
  rushLog : List RushLog := []
  /-- Claims by class * 2^32 + index: classes 2, 3, 4 of Table 2.17 made by command. -/
  claims : List (Nat × Nat) := []
deriving DecidableEq, Repr

/-- The switch core: routes, range gate, requests in flight (chapter 3, Table 14.2 onwards). -/
structure Fabric where
  self : Option Nat := none
  nodes : List (Nat × NodeEntry) := []
  /-- Decoders by port * 16 + index. -/
  decoders : List (Nat × Decoder) := []
  /-- ATTACH node by port. -/
  attach : List (Nat × Nat) := []
  gate : List (Nat × RngEntry) := []
  ports : List (Nat × FPort) := []
  trays : List (Nat × Tray) := []
  txns : List Txn := []
  nextTxn : Nat := 0
  /-- Messages waiting to leave (R295). -/
  egress : List Egress := []
  holds : List Hold := []
  out : List Out := []
deriving DecidableEq, Repr

/-- Pooled memory: regions, reels, tiles, tiers, hints (chapters 4, 6, 7). -/
structure Pool where
  regions : List (Nat × Region) := []
  handles : List (Nat × Handle) := []
  /-- Bytes of tiles, by tile * 65536 + offset; an unlisted byte reads as 0 (R86). -/
  mem : List Host.Cell := []
  /-- Poisoned lines, by tile * 1024 + line, ascending. -/
  poison : List Nat := []
  /-- Tiles not in the tier of their run. -/
  places : List (Nat × Place) := []
  nextExt : Nat := 1
  /-- Cleared free tier-0 tiles, and tiles waiting for the clear engine (R88, R392). -/
  free0 : Nat := 0
  dirty0 : Nat := 0
  /-- Cleared, uncleared state of the gaffer's reserved area (R392). -/
  reservedClear : Bool := false
  hints : List (Nat × Hint) := []
  /-- Copies under way: region and granule (R98). -/
  copies : List (Nat × Nat) := []
  /-- Regions being cleared by MEM.CLEAR: region, tiles left, clapper (R329). -/
  clears : List (Nat × Nat × Option Nat) := []
  /-- HBC_TEL_READS counts by tent * 4 + tier (R139). -/
  tel : List (Nat × Nat) := []
  /-- Tiles of released regions, by place code, freed with the old map (R87). -/
  graves : List (Nat × Nat) := []
  /-- The released regions and the handles they had: requests of the old epoch still read them (R47, R87). -/
  dead : List (Nat × Region) := []
  deadHandles : List (Nat × Handle) := []
  /-- Slots in use of the tier-3 pools, as pool * 2^32 + slot. -/
  used3 : List Nat := []
  /-- Corrected errors of a channel in the 1-second interval in progress, and in the last one (R357, Table 15.24). -/
  ce : List (Nat × Nat) := []
  ceLast : List (Nat × Nat) := []
  /-- Scrub position of each channel, passes completed, and the start of the pass in progress (R136, Table 6.13). -/
  scrub : List (Nat × Nat) := []
  passes : Nat := 0
  lastPass : Nat := 0
  passStart : Nat := 0
  /-- Tier-1 content that modules lost with their power (Table 15.12): extents whose first backing on a module is lost, and single tiles. -/
  lostRuns : List (Nat × Nat) := []
  lostTiles : List Nat := []
  /-- Tiles no longer of any region that a near-bank run still reads, with the place to free when it ends (R290). -/
  runTiles : List (Nat × Option Place) := []
  /-- Blocks that the 256 block buffers hold, by tile and block, the oldest first (R155). -/
  blockBufs : List (Nat × Nat) := []
deriving DecidableEq, Repr

/-- Queue manager (chapter 13). -/
structure Qmgr where
  queues : List (Nat × HwQueue) := []
  /-- Hot queues, most recently used first (R313). -/
  hot : List Nat := []
  shapers : List (Nat × Shaper) := []
  /-- Arbitration points by resource code of Table 13.5. -/
  arbs : List (Nat × Arb) := []
  /-- QMG_SERVED counts by resource code * 256 + tent (R305). -/
  served : List (Nat × Nat) := []
deriving DecidableEq, Repr

/-- Coherence directory (chapter 5). -/
structure Coh where
  dir : List (Nat × DirEntry) := []
  txns : List CohTxn := []
  /-- Requests waiting for a line that is BUSY, in arrival order (R115). -/
  queue : List (Nat × CohReq) := []
  flushes : List Flush := []
  failed : Nat := 0
  /-- Lines that engines' loads wait for and that are not asked for yet, and what came of those that were, by key: bytes and poison, none for an error (the model's own fields). -/
  need : List Need := []
  got : List (Nat × Option (List Byte × Bool)) := []
deriving DecidableEq, Repr

/-- A SLATE.GET whose held reel the keeper hashes (R332): the weight-list entry it will make, and where the slate goes. -/
structure Slate where
  cref : CRef
  tent : Nat
  weight : Weight
  /-- SOURCE of the issuing tent queue; none on the operator queue. -/
  source : Option Nat
  addr : Nat
  nonce : List Byte
deriving DecidableEq, Repr

/-- The keeper (chapters 14, 15). -/
structure Keeper where
  tents : List (Nat × Tent) := []
  /-- Key slots held: slot and the number of its key (R317). -/
  slots : List (Nat × Nat) := []
  nextKey : Nat := 0
  lockdown : Bool := false
  /-- Hard tamper latches: lid, light, mesh. -/
  lid : Bool := false
  light : Bool := false
  mesh : Bool := false
  /-- Device key present. -/
  deviceKey : Bool := false
  /-- Model times of the soft alarms of the last second (R334). -/
  soft : List Nat := []
  meshMiss : Nat := 0
  lfsr : BitVec 16 := 0
  ras : List RasEntry := []
  rasNext : Nat := 0
  guys : List (Nat × Guy) := []
  replicas : List (Nat × Replica) := []
  /-- Anti-rollback minimum of the blob (R378). -/
  blobMin : Nat := 0
  /-- An SPDM session of the responder is open: 0 none, 1 key exchange done, 2 finished (R383). -/
  spdm : Nat := 0
  /-- Slates whose reel is being hashed, oldest first (R332). -/
  hashing : List Slate := []
deriving DecidableEq, Repr

/-- Reset, clock, power and pin control (chapters 17, 18). -/
structure Chip where
  domains : List (Nat × Domain) := []
  resets : List (Nat × BlockReset) := []
  /-- PLLs 0 to 14; 15 to 18 are the monitored inputs: references 0 and 1, the management clock, the auxiliary clock. -/
  plls : List (Nat × Pll) := []
  /-- The main rails are within their levels (R410, R415). -/
  rails : Bool := false
  count : Nat := 1
  causes : List Nat := [1]
  lastDetail : Nat := 0
  critStreak : Nat := 0
  /-- The reset pin is held (R387). -/
  inReset : Bool := true
  /-- RST_N is asserted (R387). -/
  pinHeld : Bool := false
  /-- Model time at which the watchdog period began (R390). -/
  wdog : Nat := 0
  /-- Recovery period of R388. -/
  recovery : Bool := false
  /-- Sleep state 0, 1, 2; last wake; wake timer in seconds. -/
  sleep : Nat := 0
  lastWake : Nat := 0
  wakeS : Nat := 0
  /-- GPF pins 0 to 15; 100 + c is the filtered input of PIN_SEL code c below 9 (Table 18.21). -/
  pins : List (Nat × Pin) := []
  /-- Glitch counts by pin code of PIN_SEL. -/
  glitches : List (Nat × Nat) := []
  straps : Nat := 0
  therm : Bool := false
  /-- CREW.SET_FREQ commands in progress: frequency, and the groups still to relock, the first of them relocking now (R402). -/
  relock : List (CRef × Nat × List Nat) := []
  sleepOp : Option SleepOp := none
  /-- PWR.SET_DOMAIN commands held while a take is COMMITTING (R404). -/
  pwrWait : List (Desc × CRef) := []
  /-- When the time limits that run end: snoops (R119), retrains (R367), idle timeouts (R395), keeper deadlines (R406), mirror messages and silence (R343, R345), late shadow responses (R354), the wake timer (R407), inputs held active (R420). -/
  limits : List (Nat × Nat) := []
deriving DecidableEq, Repr

/-- The whole machine. -/
structure State where
  /-- Commands waiting, first in first out. -/
  pending : List Instr := []
  /-- Stored register fields by CSR address; an address not listed holds its reset value (R440). -/
  csr : List (Nat × Nat) := []
  /-- Map registers by CSR address under the epoch in force; not listed holds its reset value (R433). -/
  mapReg : List (Nat × Nat) := []
  gaf : Gaffer := {}
  fab : Fabric := {}
  pool : Pool := {}
  qm : Qmgr := {}
  coh : Coh := {}
  kpr : Keeper := {}
  chip : Chip := {}
  crw : Crews := {}
  /-- Collective windows by slot. -/
  win : List (Nat × Window) := []
  gth : Gather := {}
  /-- Near-bank side of each tray module. -/
  nbu : List (Nat × Nbu) := []
  /-- Model time in ns, monotone; drawn from free delays (the model's own field). -/
  now : Nat := 0
  /-- Index of the next free value (the model's own field). -/
  freeIx : Nat := 0
deriving DecidableEq, Repr

/-- The machine right after an auxiliary power-on reset: PD 0 alone on, epoch 0, COUNT 1 (Table 17.2, R49). -/
def State.reset : State := {}

end Sys2Proof.Machine
end

