-- ==== Sys2Proof/Machine/Csr.lean ====
section
/-! DEFINITION. Stored register fields, counters, the GAF_ATTN summary, the RAS log, interrupt vectors, free values and the model clock. -/

namespace Sys2Proof.Machine

/-- CSR address of register `r`, instance `i`: block base of Table 19.1 plus offset plus stride (R432). -/
def Reg.addr (r : Reg) (i : Nat) : Nat :=
  let (b, off, stride, _) := r.place
  if r = .tryNbuAllot then b * 0x10000 + off + 0x400 * (i / 16) + 8 * (i % 16)
  else b * 0x10000 + off + stride * i

/-- Number of instances of a register. -/
def Reg.count (r : Reg) : Nat := r.place.2.2.2

/-- The instance of `r` at CSR address `a`, if `a` is one of its addresses. -/
def Reg.indexAt (r : Reg) (a : Nat) : Option Nat :=
  let (b, off, stride, n) := r.place
  let base := b * 0x10000 + off
  if a < base then none
  else if r = .tryNbuAllot then
    let d := a - base
    if d % 8 = 0 && d % 0x400 < 128 && d / 0x400 < 8 then some (16 * (d / 0x400) + d % 0x400 / 8) else none
  else if (a - base) % stride = 0 && (a - base) / stride < n then some ((a - base) / stride)
  else none

/-- First register of a list at an address. -/
def regIn (a : Nat) : List Reg → Option (Reg × Nat)
  | [] => none
  | r :: rs => match r.indexAt a with
    | some i => some (r, i)
    | none => regIn a rs

/-- The register at a CSR address; `none` is an unassigned address (R432). -/
def regAt (a : Nat) : Option (Reg × Nat) := regIn a Reg.all

/-- Reset value of a register: its fields' reset values in place. -/
def Reg.resetValue (r : Reg) : Nat :=
  r.fields.foldl (fun v f => v ||| (f.rst <<< f.lo)) 0

/-- Mask of the fields of a register whose access code passes a test. -/
def Reg.maskBy (r : Reg) (p : Acc → Bool) : Nat :=
  r.fields.foldl (fun v f => if p f.acc then v ||| maskOf f.lo f.w else v) 0

/-- The stored value of a direct register (R440). -/
def stored (s : State) (r : Reg) (i : Nat) : Nat := (find s.csr (r.addr i)).getD r.resetValue

/-- Store a whole register value; the reset value is not listed. -/
def store (r : Reg) (i v : Nat) (s : State) : State :=
  { s with csr := if v = r.resetValue then del s.csr (r.addr i) else put s.csr (r.addr i) v }

/-- A stored field. -/
def fld (s : State) (r : Reg) (i lo w : Nat) : Nat := bits (stored s r i) lo w

/-- Replace bits `[lo+w-1:lo]` of a value. -/
def setBitsOf (v lo w x : Nat) : Nat := ((v ||| maskOf lo w) ^^^ maskOf lo w) ||| place x lo w

/-- Set a stored field. -/
def setFld (r : Reg) (i lo w x : Nat) (s : State) : State := store r i (setBitsOf (stored s r i) lo w x) s

/-- Hardware adds to a counter that saturates (R440). -/
def bump (r : Reg) (i lo w n : Nat) (s : State) : State := setFld r i lo w (satAdd w (fld s r i lo w) n) s

/-- The map register value under the epoch in force (R433). -/
def mapVal (s : State) (r : Reg) (i : Nat) : Nat := (find s.mapReg (r.addr i)).getD r.resetValue

/-- Write a map register; the reset value is not listed. -/
def setMapVal (r : Reg) (i v : Nat) (s : State) : State :=
  { s with mapReg := if v = r.resetValue then del s.mapReg (r.addr i) else put s.mapReg (r.addr i) v }

/-- The device puts something out. -/
def emit (o : Out) (s : State) : State := { s with fab := { s.fab with out := s.fab.out ++ [o] } }

/-- Set bit `b` of GAF_ATTN; on a change from 0 to 1 with its ENABLE bit, raise VECTOR (R444). -/
def attn (b : Nat) (s : State) : State :=
  let was := fld s .gafAttn 0 b 1
  let s' := setFld .gafAttn 0 b 1 1 s
  if was = 0 && fld s .gafAttnCtl 0 b 1 = 1 then emit (.vector (fld s .gafAttnCtl 0 32 8)) s' else s'

/-- A free value at a fresh index (log entry 2). -/
def drawNat (s : State) : Nat × State := (Config.free s.freeIx, { s with freeIx := s.freeIx + 1 })

/-- Free bytes at a fresh index, exactly `n` of them (log entry 2). -/
def drawBytes (n : Nat) (s : State) : List Byte × State :=
  ((Config.freeBytes s.freeIx ++ List.replicate n 0).take n, { s with freeIx := s.freeIx + 1 })

/-- The least of the `n` numbers from `lo` on that a test accepts. -/
def seek (ok : Nat → Bool) : Nat → Nat → Option Nat
  | _, 0 => none
  | lo, n + 1 => if ok lo then some lo else seek ok (lo + 1) n

/-- A free choice among `n` numbers that a test accepts, else the least accepted (log entry 3). -/
def drawFree (ok : Nat → Bool) (lo n : Nat) (s : State) : Option (Nat × State) :=
  let (x, s') := drawNat s
  let c := lo + x % n
  if ok c then some (c, s') else (seek ok lo n).map fun k => (k, s')

/-- The model clock in ns: a free, monotone reading (log entry 4). -/
def clock (s : State) : Nat × State :=
  let (d, s') := drawNat s
  (s.now + d, { s' with now := s.now + d })

/-- An expiry event happens: the clock is at its deadline or past it. -/
def clockTo (t : Nat) (s : State) : State := { s with now := max s.now t }

/-! ### Time limits that run (log entry 4) -/

/-- Keys of the limits: snoops of a line, the retrain of a port, the idle timeout of a block or domain, the keeper's deadline for a domain. -/
def snoopLimit (line : Nat) : Nat := 16 * line
/-- See `snoopLimit`. -/
def retrainLimit (tray : Bool) (p : Nat) : Nat := 16 * (if tray then 32 + p else p) + 1
/-- See `snoopLimit`. -/
def idleLimit (domain : Bool) (code : Nat) : Nat := 16 * (if domain then 256 + code else code) + 2
/-- See `snoopLimit`. -/
def keeperLimit (d : Nat) : Nat := 16 * d + 3
/-- Keys of the limits: a mirror message of a guy line, its partner's silence, the answer to a shadow copy, the wake timer, an input held active. -/
def mirrorLimit (k seq : Nat) : Nat := 16 * (k * 65536 + seq) + 4
/-- See `mirrorLimit`. -/
def silenceLimit (k : Nat) : Nat := 16 * k + 5
/-- See `mirrorLimit`. -/
def shadowLimit (seq : Nat) : Nat := 16 * seq + 6
/-- See `mirrorLimit`. -/
def wakeLimit : Nat := 7
/-- See `mirrorLimit`. -/
def stuckLimit (c : Nat) : Nat := 16 * c + 8

/-- A limit of `ns` starts. -/
def startLimit (key ns : Nat) (s : State) : State := { s with chip := { s.chip with limits := put s.chip.limits key (s.now + ns) } }
/-- What a limit bounds has ended before it. -/
def endLimit (key : Nat) (s : State) : State := { s with chip := { s.chip with limits := del s.chip.limits key } }
/-- A limit has passed: the clock is at its end or later. -/
def limitOver (key : Nat) (s : State) : State := clockTo ((find s.chip.limits key).getD 0) (endLimit key s)

/-- One RAS log entry (R358, Table 15.9); ALERT and FATAL entries set RAS_ALERT and GAF_ATTN.RAS (R422, Table 19.8). -/
def ras (code severity : Nat) (tent : Option Nat) (node detail offset : Nat) (s : State) : State :=
  let (t, s) := clock s
  let e : RasEntry := ⟨s.kpr.rasNext, t * 32768 / 1000000000, code, severity, tent, node, detail % 65536, offset⟩
  let full := s.kpr.ras.length ≥ 4096
  let s := { s with kpr := { s.kpr with ras := (if full then s.kpr.ras.drop 1 else s.kpr.ras) ++ [e], rasNext := s.kpr.rasNext + 1 } }
  let s := if full then bump .kprRasStatus 0 16 16 1 s else s
  if severity ≥ 2 then attn 0 (setFld .pinIrqStatus 0 20 1 1 s) else s

/-- The self node, 0 where none is committed. -/
def selfNode (s : State) : Nat := s.fab.self.getD 0

/-- State of a power domain; PD 0 is always ON (R413). -/
def pdState (s : State) (d : Nat) : PdState :=
  if d = 0 then .on else ((find s.chip.domains d).getD {}).state

/-- A domain that serves: ON, or STOPPING while its removal waits for the keeper (R406, Table 17.5). -/
def pdOn (s : State) (d : Nat) : Bool :=
  pdState s d = .on || (pdState s d = .stopping && (find s.chip.domains d).any (·.deferred))

/-- A domain counts as off for commit validation and POWER_OFF: OFF, CLOCK_STOPPED or RETAIN (R403). -/
def pdOff (s : State) (d : Nat) : Bool :=
  match pdState s d with
  | .off | .clockStopped | .retain => true
  | _ => false

/-- Power domain of fabric port p, tray port m, crew group g, stack k (Table 1.6). -/
def pdFabric (p : Nat) : Nat := 8 + p / 4
/-- See `pdFabric`. -/
def pdTray (m : Nat) : Nat := 13 + m / 4
/-- See `pdFabric`. -/
def pdCrew (crew : Nat) : Nat := 15 + crew / 16
/-- See `pdFabric`. -/
def pdStack (k : Nat) : Nat := 4 + k

/-- A feature disabled by fuse (R445). -/
def fused (b : Nat) : Bool := Config.fuseFeatures.toNat.testBit b

end Sys2Proof.Machine
end

