-- ==== Sys2Proof/Machine/Cell.lean ====
section
/-! DEFINITION. Crews and cells: finding them, their registers (Table 8.2), their local memory (Table 8.1, R165, R173). -/

namespace Sys2Proof.Machine

/-- Number of a cell: crew * 32 + cell. -/
def cellNum (c : CellId) : Nat := c.crew.toNat * 32 + c.cell.toNat

/-- A cell by number. -/
def cellOf (s : State) (n : Nat) : Cell := (find s.crw.cells n).getD {}

/-- Change a cell. -/
def updCell (n : Nat) (f : Cell → Cell) (s : State) : State :=
  { s with crw := { s.crw with cells := put s.crw.cells n (f (cellOf s n)) } }

/-- A crew by number. -/
def crewOf (s : State) (k : Nat) : Crew := (find s.crw.crews k).getD {}

/-- Change a crew. -/
def updCrew (k : Nat) (f : Crew → Crew) (s : State) : State :=
  { s with crw := { s.crw with crews := put s.crw.crews k (f (crewOf s k)) } }

/-- The tent a crew is assigned to; a released crew that still stops or clears has none, but for one that the same take has claimed again (R50, R184). -/
def assigned (s : State) (k : Nat) : Option Nat := if (crewOf s k).clearing then (crewOf s k).next else (crewOf s k).tent

/-- Numbers of the cells of a crew. -/
def crewCells (k : Nat) : List Nat := (List.range 32).map fun i => k * 32 + i

/-- RUNNING, WAITING or STOPPING (Table 8.28, ACTIVE). -/
def CellState.active : CellState → Bool
  | .running | .waiting | .stopping => true
  | _ => false

/-- A crew has an active cell. -/
def crewActive (s : State) (k : Nat) : Bool := (crewCells k).any fun n => (cellOf s n).state.active

/-- A cell has ended all it began: it is not active, and no transfer or fault record of it is left (R184). -/
def Cell.over (x : Cell) : Bool := !x.state.active && !x.recordDue && x.older.isEmpty && x.xfers.isEmpty

/-- A released crew is being zeroed: its cells have ended all they began (R184, Table 8.28). -/
def zeroing (s : State) (k : Nat) : Bool := (crewOf s k).clearing && (crewCells k).all fun n => (cellOf s n).over

/-! ### Registers -/

/-- Read g register; g0 reads 0 (Table 8.2). -/
def Cell.rg (x : Cell) (d : BitVec 5) : U64 := if d = 0 then 0 else x.g[d.toNat]'(d.isLt)

/-- Write g register; a write of g0 is ignored. -/
def Cell.wg (x : Cell) (d : BitVec 5) (v : U64) : Cell := if d = 0 then x else { x with g := x.g.set d.toNat v d.isLt }

/-- Read a predicate; p0 reads all ones. -/
def Cell.rp (x : Cell) (p : BitVec 3) : BitVec 32 := if p = 0 then BitVec.allOnes 32 else x.p[p.toNat]'(p.isLt)

/-- Write a predicate; a write of p0 is ignored. -/
def Cell.wp (x : Cell) (p : BitVec 3) (v : BitVec 32) : Cell := if p = 0 then x else { x with p := x.p.set p.toNat v p.isLt }

/-- Read a vector register. -/
def Cell.rv (x : Cell) (i : BitVec 4) : BitVec 256 := x.v[i.toNat]'(i.isLt)

/-- Write a vector register. -/
def Cell.wv (x : Cell) (i : BitVec 4) (v : BitVec 256) : Cell := { x with v := x.v.set i.toNat v i.isLt }

/-- Read an accumulator. -/
def Cell.rx (x : Cell) (i : BitVec 2) : Accum := x.x[i.toNat]'(i.isLt)

/-- Write an accumulator. -/
def Cell.wx (x : Cell) (i : BitVec 2) (a : Accum) : Cell := { x with x := x.x.set i.toNat a i.isLt }

/-- The instruction retires and pc moves past it (Table 8.15, RETIRED). -/
def Cell.next (x : Cell) : Cell := { x with pc := x.pc + 4, instrs := x.instrs + 1 }

/-- A waiting instruction completes: the cell runs again. -/
def Cell.resume (x : Cell) : Cell := { x.next with state := .running, wait := none }

/-! ### Local memory -/

/-- Where a local range lies (Table 8.1): scratch or crew memory, with the offset there. -/
inductive Loc where
  | scratch (o : Nat)
  | crew (o : Nat)
deriving DecidableEq, Repr

/-- First local address of crew memory. -/
def crewBase : Nat := 0x100000

/-- Bytes of a crew memory. -/
def crewBytes : Nat := 0x200000

/-- The range `[a, a+n)` wholly within scratch or wholly within crew memory, or neither. -/
def locOf (a n : Nat) : Option Loc :=
  if a + n ≤ 0x10000 then some (.scratch a)
  else if crewBase ≤ a && a + n ≤ crewBase + crewBytes then some (.crew (a - crewBase))
  else none

/-- Bytes of a local range. -/
def locRead (s : State) (n : Nat) (l : Loc) (len : Nat) : List Byte :=
  match l with
  | .scratch o => readBytes (cellOf s n).scratch o len
  | .crew o => readBytes (crewOf s (n / 32)).mem o len

/-- Store bytes into a local range. -/
def locWrite (n : Nat) (l : Loc) (bs : List Byte) (s : State) : State :=
  match l with
  | .scratch o => updCell n (fun x => { x with scratch := writeBytes x.scratch o bs }) s
  | .crew o => updCrew (n / 32) (fun k => { k with mem := writeBytes k.mem o bs }) s

/-- Lines that `[o, o+len)` touches. -/
def linesOf (o len : Nat) : List Nat := if len = 0 then [] else (List.range ((o + len - 1) / 64 + 1 - o / 64)).map (o / 64 + ·)

/-- Is a line of the range marked (R173)? -/
def locMarked (s : State) (n : Nat) (l : Loc) (len : Nat) : Bool :=
  match l with
  | .scratch o => (linesOf o len).any fun i => (cellOf s n).marks.contains i
  | .crew o => (linesOf o len).any fun i => (crewOf s (n / 32)).marks.contains i

/-- Set or clear a line's poison mark (R173). -/
def locMark (n : Nat) (l : Loc) (b : Bool) (s : State) : State :=
  let f (m : List Nat) (o : Nat) : List Nat := if b then insNat m (o / 64) else delNat m (o / 64)
  match l with
  | .scratch o => updCell n (fun x => { x with marks := f x.marks o }) s
  | .crew o => updCrew (n / 32) (fun k => { k with marks := f k.marks o }) s

/-- Does a crew-memory range touch the text of the loaded image (R171)? -/
def inText (k : Crew) (o len : Nat) : Bool := k.loaded && overlaps k.textBase k.textLen o len

/-- Does a crew-memory range touch a bound accumulator area (R215)? -/
def inArea (k : Crew) (o len : Nat) : Bool :=
  match k.area with
  | some a => overlaps a.base (a.records * 64) o len
  | none => false

/-- See `inText`, for a local range. -/
def locText (s : State) (n : Nat) (l : Loc) (len : Nat) : Bool :=
  match l with
  | .scratch _ => false
  | .crew o => inText (crewOf s (n / 32)) o len

/-- See `inArea`, for a local range. -/
def locArea (s : State) (n : Nat) (l : Loc) (len : Nat) : Bool :=
  match l with
  | .scratch _ => false
  | .crew o => inArea (crewOf s (n / 32)) o len

/-- The PLL of a crew group relocks now: its cells and dollies pause (R402). -/
def relocking (s : State) (group : Nat) : Bool :=
  match s.chip.relock with
  | (_, _, g :: _) :: _ => g = group
  | _ => false

/-- 64-byte units delivered into the ring stop of a crew's group (Table 8.33). -/
def ringLoad (crew lines : Nat) (s : State) : State := bump .crwRingLoad (crew / 16) 32 32 lines s

/-- An access refused under R215 is counted (Table 9.18, XLOCKS). -/
def countXlock (k : Nat) (s : State) : State := bump .xsuUnitCounts k 0 16 1 s

end Sys2Proof.Machine
end

