-- ==== Sys2Proof/Machine/Float.lean ====
section
/-! DEFINITION. Number formats (Table 9.2), exact values, one rounding to nearest even (R194, R195, Table 9.3), and the functions of R200. -/

namespace Sys2Proof.Machine

/-- Floating-point formats of Table 9.2. -/
inductive FF where
  | f64 | f32 | bf16 | f16 | e4m3 | e5m2 | e2m3 | e3m2 | e2m1
deriving DecidableEq, Repr

/-- Exponent bits (Table 9.2). -/
def FF.eb : FF → Nat
  | .f64 => 11
  | .f32 => 8
  | .bf16 => 8
  | .f16 => 5
  | .e4m3 => 4
  | .e5m2 => 5
  | .e2m3 => 2
  | .e3m2 => 3
  | .e2m1 => 2

/-- Fraction bits (Table 9.2). -/
def FF.fb : FF → Nat
  | .f64 => 52
  | .f32 => 23
  | .bf16 => 7
  | .f16 => 10
  | .e4m3 => 3
  | .e5m2 => 2
  | .e2m3 => 3
  | .e3m2 => 2
  | .e2m1 => 1

/-- Exponent bias (Table 9.2). -/
def FF.bias : FF → Nat
  | .f64 => 1023
  | .f32 => 127
  | .bf16 => 127
  | .f16 => 15
  | .e4m3 => 7
  | .e5m2 => 15
  | .e2m3 => 1
  | .e3m2 => 3
  | .e2m1 => 1

/-- Width in bits. -/
def FF.w (f : FF) : Nat := 1 + f.eb + f.fb

/-- Has an infinity with E all ones and F 0 (Table 9.2). -/
def FF.hasInf : FF → Bool
  | .e4m3 | .e2m3 | .e3m2 | .e2m1 => false
  | _ => true

/-- MX element formats without infinity or NaN (Table 9.2). -/
def FF.mini : FF → Bool
  | .e2m3 | .e3m2 | .e2m1 => true
  | _ => false

/-- Canonical NaN; +0 where the format has none (Table 9.3). -/
def FF.nan : FF → Nat
  | .f64 => 0x7FF8000000000000
  | .f32 => 0x7FC00000
  | .bf16 => 0x7FC0
  | .f16 => 0x7E00
  | .e4m3 => 0x7F
  | .e5m2 => 0x7E
  | _ => 0

/-- Largest finite magnitude, as bits without sign (Table 9.2). -/
def FF.largest (f : FF) : Nat :=
  match f with
  | .e4m3 => 0x7E
  | .e2m3 | .e3m2 | .e2m1 => 2 ^ (f.eb + f.fb) - 1
  | _ => (2 ^ f.eb - 2) * 2 ^ f.fb + (2 ^ f.fb - 1)

/-- A value: NaN, an infinity, or sign and `m * 2^e` exactly. -/
inductive FV where
  | nan
  | inf (neg : Bool)
  | fin (neg : Bool) (m : Nat) (e : Int)
deriving DecidableEq, Repr

/-- The value that bits denote (Table 9.2). -/
def FF.decode (f : FF) (x : Nat) : FV :=
  let neg := bit x (f.eb + f.fb)
  let ex := bits x f.fb f.eb
  let fr := bits x 0 f.fb
  if f.hasInf && ex = 2 ^ f.eb - 1 then (if fr = 0 then .inf neg else .nan)
  else if f = .e4m3 && ex = 15 && fr = 7 then .nan
  else if ex = 0 then .fin neg fr (1 - (f.bias : Int) - f.fb)
  else .fin neg (2 ^ f.fb + fr) ((ex : Int) - f.bias - f.fb)

/-- Round `m / 2^sh` to the nearest integer, ties to even. -/
def rne (m sh : Nat) : Nat :=
  if sh = 0 then m else
  let k := m >>> sh
  let r := m % 2 ^ sh
  let h := 2 ^ (sh - 1)
  if h < r || (r = h && k % 2 = 1) then k + 1 else k

/-- The sign bit in place. -/
def FF.sign (f : FF) (neg : Bool) : Nat := if neg then 2 ^ (f.eb + f.fb) else 0

/-- Out of range (Table 9.3). -/
def FF.over (f : FF) (neg : Bool) : Nat :=
  f.sign neg + (match f with
    | .f64 | .f32 | .bf16 | .f16 => (2 ^ f.eb - 1) * 2 ^ f.fb
    | _ => f.largest)

/-- An infinity arriving in the format (Table 9.3). -/
def FF.infIn (f : FF) (neg : Bool) : Nat :=
  f.sign neg + (if f.hasInf then (2 ^ f.eb - 1) * 2 ^ f.fb else f.largest)

/-- A finite magnitude `m * 2^e`, rounded once to nearest even into the format (R194, R195). -/
def FF.roundFin (f : FF) (neg : Bool) (m : Nat) (e : Int) : Nat :=
  if m = 0 then f.sign neg else
  let top : Int := (Nat.log2 m : Int) + e
  let qMin : Int := 1 - (f.bias : Int) - f.fb
  let q : Int := max (top - f.fb) qMin
  let k := if q ≤ e then m <<< (e - q).toNat else rne m (q - e).toNat
  let (k, q) := if 2 ^ (f.fb + 1) ≤ k then (k / 2, q + 1) else (k, q)
  let bitsOf := if k < 2 ^ f.fb then k else (q - qMin + 1).toNat * 2 ^ f.fb + (k - 2 ^ f.fb)
  if f.largest < bitsOf then f.over neg else f.sign neg + bitsOf

/-- A value rounded once into the format (R194, R195, Table 9.3). -/
def FF.round (f : FF) : FV → Nat
  | .nan => f.nan
  | .inf neg => f.infIn neg
  | .fin neg m e => f.roundFin neg m e

/-- Signed mantissa of a finite value. -/
def sgn (neg : Bool) (m : Nat) : Int := if neg then -(m : Int) else m

/-- An integer times `2^e` as a value; 0 is +0. -/
def FV.ofInt (v e : Int) : FV := .fin (v < 0) v.natAbs e

/-- Least exponent among the finite terms. -/
def minExp : List FV → Int → Int
  | [], a => a
  | .fin _ _ e :: t, a => minExp t (min a e)
  | _ :: t, a => minExp t a

/-- Sum of the finite terms in units of `2^e0`. -/
def intSum (e0 : Int) : List FV → Int
  | [] => 0
  | .fin neg m e :: t => sgn neg m * 2 ^ (e - e0).toNat + intSum e0 t
  | _ :: t => intSum e0 t

/-- Does a term test true for NaN, for an infinity of a sign, for -0? -/
def FV.isNan : FV → Bool
  | .nan => true
  | _ => false
/-- See `FV.isNan`. -/
def FV.isInf (neg : Bool) : FV → Bool
  | .inf n => n = neg
  | _ => false
/-- See `FV.isNan`. -/
def FV.negZero : FV → Bool
  | .fin n m _ => n && m = 0
  | _ => false
/-- A zero of either sign. -/
def FV.isZero : FV → Bool
  | .fin _ m _ => m = 0
  | _ => false

/-- The exact sum of terms; infinities, NaNs and the sign of a zero sum follow IEEE 754 (R194, R201). -/
def sumFV (ts : List FV) : FV :=
  if ts.any (·.isNan) then .nan
  else if ts.any (FV.isInf false) then (if ts.any (FV.isInf true) then .nan else .inf false)
  else if ts.any (FV.isInf true) then .inf true
  else
    let e0 := minExp ts 0
    let v := intSum e0 ts
    if v = 0 then .fin (!ts.isEmpty && ts.all (·.negZero)) 0 0 else .ofInt v e0

/-- The exact product (IEEE 754: infinity times 0 is NaN). -/
def mulFV : FV → FV → FV
  | .nan, _ => .nan
  | _, .nan => .nan
  | .inf a, .inf b => .inf (a != b)
  | .inf a, .fin b m _ => if m = 0 then .nan else .inf (a != b)
  | .fin a m _, .inf b => if m = 0 then .nan else .inf (a != b)
  | .fin a m e, .fin b n k => .fin (a != b) (m * n) (e + k)

/-- Sign change; a NaN stays NaN. -/
def negFV : FV → FV
  | .nan => .nan
  | .inf a => .inf !a
  | .fin a m e => .fin (!a) m e

/-- Magnitude. -/
def absFV : FV → FV
  | .nan => .nan
  | .inf _ => .inf false
  | .fin _ m e => .fin false m e

/-- Times `2^k`. -/
def scaleFV (k : Int) : FV → FV
  | .fin a m e => .fin a m (e + k)
  | x => x

/-- Order of two values that are not NaN: true where the first is below the second, -0 equal to +0. -/
def ltFV (a b : FV) : Bool :=
  match a, b with
  | .nan, _ => false
  | _, .nan => false
  | .inf x, .inf y => x && !y
  | .inf x, .fin _ _ _ => x
  | .fin _ _ _, .inf y => !y
  | .fin x m e, .fin y n k =>
    let e0 := min e k
    sgn x m * 2 ^ (e - e0).toNat < sgn y n * 2 ^ (k - e0).toNat

/-- Equality of two values; NaN equals nothing, -0 equals +0 (R199). -/
def eqFV (a b : FV) : Bool := !a.isNan && !b.isNan && !ltFV a b && !ltFV b a

/-- vmin and vmax (Table 9.6): NaN if either is NaN, -0 below +0. -/
def minFV (a b : FV) : FV :=
  if a.isNan || b.isNan then .nan
  else if ltFV a b then a
  else if ltFV b a then b
  else if a.negZero then a else b
/-- See `minFV`. -/
def maxFV (a b : FV) : FV :=
  if a.isNan || b.isNan then .nan
  else if ltFV a b then b
  else if ltFV b a then a
  else if a.negZero then b else a

/-! ### Functions of R200

An inexact magnitude carries a lowest bit 1 below 80 or more exact bits, so that one rounding sees on which side it lies. -/

/-- Integer square root, bit by bit from bit `i - 1` down. -/
def isqrtFrom (n : Nat) : Nat → Nat → Nat
  | 0, r => r
  | i + 1, r => if (r + 2 ^ i) * (r + 2 ^ i) ≤ n then isqrtFrom n i (r + 2 ^ i) else isqrtFrom n i r

/-- Integer square root. -/
def isqrt (n : Nat) : Nat := isqrtFrom n (Nat.log2 n / 2 + 1) 0

/-- `q` with an inexact rest, as a value. -/
def inexact (neg : Bool) (q : Nat) (e : Int) (rest : Bool) : FV := .fin neg (2 * q + bitOf rest) (e - 1)

/-- The quotient of two values (IEEE 754). -/
def divFV : FV → FV → FV
  | .nan, _ => .nan
  | _, .nan => .nan
  | .inf _, .inf _ => .nan
  | .inf a, .fin b _ _ => .inf (a != b)
  | .fin a _ _, .inf b => .fin (a != b) 0 0
  | .fin a m e, .fin b n k =>
    if n = 0 then (if m = 0 then .nan else .inf (a != b))
    else if m = 0 then .fin (a != b) 0 0
    else
      let sh := Nat.log2 n + 80
      let q := (m <<< sh) / n
      inexact (a != b) q (e - k - sh) ((m <<< sh) % n != 0)

/-- 1 / x. -/
def rcpFV (x : FV) : FV := divFV (.fin false 1 0) x

/-- Square root. -/
def sqrtFV : FV → FV
  | .nan => .nan
  | .inf neg => if neg then .nan else .inf false
  | .fin neg m e =>
    if m = 0 then .fin neg 0 0
    else if neg then .nan
    else
      let sh := 200 + (e % 2).toNat
      let n := m <<< sh
      let r := isqrt n
      inexact false r ((e - sh) / 2) (r * r != n)

/-- 1 / square root. -/
def rsqrtFV : FV → FV
  | .nan => .nan
  | .inf neg => if neg then .nan else .fin false 0 0
  | .fin neg m e =>
    if m = 0 then .inf neg
    else if neg then .nan
    else
      let m' := m <<< (e % 2).toNat
      let e' := e - (e % 2)
      let p := Nat.log2 m' + 100
      let r := isqrt (2 ^ (2 * p) / m')
      inexact false r (-(e' / 2) - p) (r * r * m' != 2 ^ (2 * p))

/-- `2^f` for a fraction of 256 bits, in units of `2^-320`: the square roots of 2 taken one after the other. -/
def exp2Frac (f : Nat) : Nat → Nat → Nat → Nat
  | 0, _, acc => acc
  | i + 1, c, acc => exp2Frac f i (isqrt (c <<< 320)) (if f.testBit i then (acc * c) >>> 320 else acc)

/-- 2^x. -/
def exp2FV : FV → FV
  | .nan => .nan
  | .inf neg => if neg then .fin false 0 0 else .inf false
  | .fin neg m e =>
    if m = 0 then .fin false 1 0
    else if 12 ≤ (Nat.log2 m : Int) + e then (if neg then .fin false 1 (-6000) else .fin false 1 6000)
    else
      let x : Int := if 0 ≤ e + 256 then sgn neg m * 2 ^ (e + 256).toNat else sgn neg (m >>> (-(e + 256)).toNat)
      let n := x / 2 ^ 256
      let f := (x % 2 ^ 256).toNat
      if f = 0 then .fin false 1 n
      else inexact false (exp2Frac f 256 (isqrt (2 <<< 640)) (1 <<< 320)) (n - 320) true

/-- Bits of log2 of a mantissa in `[1, 2)` scaled by `2^512`, most significant first. -/
def log2Frac : Nat → Nat → Nat → Nat
  | 0, _, acc => acc
  | i + 1, y, acc =>
    let z := (y * y) >>> 512
    if 2 ^ 513 ≤ z then log2Frac i (z >>> 1) (2 * acc + 1) else log2Frac i z (2 * acc)

/-- log2 x. -/
def log2FV : FV → FV
  | .nan => .nan
  | .inf neg => if neg then .nan else .inf false
  | .fin neg m e =>
    if m = 0 then .inf true
    else if neg then .nan
    else
      let l := Nat.log2 m
      let n : Int := l + e
      if m = 2 ^ l then .ofInt n 0
      else
        let v : Int := n * 2 ^ 256 + (log2Frac 256 (m <<< (512 - l)) 0 : Int)
        if 0 ≤ v then inexact false v.toNat (-256) true else inexact true (-v - 1).toNat (-256) true

/-! ### Named operations in a format -/

/-- Convert between formats (R195). -/
def FF.cvt (a b : FF) (x : Nat) : Nat := b.round (a.decode x)

/-- fp32 operations used by engines: sum, product, quotient, each rounded once. -/
def f32add (a b : Nat) : Nat := FF.f32.round (sumFV [FF.f32.decode a, FF.f32.decode b])
/-- See `f32add`. -/
def f32sub (a b : Nat) : Nat := FF.f32.round (sumFV [FF.f32.decode a, negFV (FF.f32.decode b)])
/-- See `f32add`. -/
def f32mul (a b : Nat) : Nat := FF.f32.round (mulFV (FF.f32.decode a) (FF.f32.decode b))
/-- See `f32add`. -/
def f32fn (g : FV → FV) (a : Nat) : Nat := FF.f32.round (g (FF.f32.decode a))

/-- An integer as an fp32 operand of a quotient. -/
def f32divNat (a n : Nat) : Nat := FF.f32.round (divFV (FF.f32.decode a) (.fin false n 0))

/-- A value to an integer of `w` bits, nearest with ties to even, saturating, NaN to 0 (Table 9.3); two's complement. -/
def toIntSat (w : Nat) : FV → Nat
  | .nan => 0
  | .inf neg => if neg then 2 ^ (w - 1) else 2 ^ (w - 1) - 1
  | .fin neg m e =>
    let k := if 0 ≤ e then m <<< (min e.toNat (w + 1)) else rne m (-e).toNat
    if neg then (if 2 ^ (w - 1) ≤ k then 2 ^ (w - 1) else (2 ^ w - k) % 2 ^ w)
    else min k (2 ^ (w - 1) - 1)

/-- Two's complement integer of `w` bits. -/
def sext (w x : Nat) : Int := if x.testBit (w - 1) then (x % 2 ^ w : Nat) - (2 : Int) ^ w else (x % 2 ^ w : Nat)

/-- An integer's low `w` bits. -/
def wrap (w : Nat) (v : Int) : Nat := (v % 2 ^ w).toNat

/-- The ordered tree of R206 over leaves, some absent; `fuel` bounds the depth. -/
def treeSum (add : Nat → Nat → Nat) : Nat → List (Option Nat) → Option Nat
  | 0, _ => none
  | fuel + 1, ls =>
    match ls with
    | [] => none
    | [x] => x
    | _ =>
      let n := ls.length
      let half := 2 ^ (Nat.log2 (n - 1))
      match treeSum add fuel (ls.take half), treeSum add fuel (ls.drop half) with
      | some a, some b => some (add a b)
      | some a, none => some a
      | none, b => b

end Sys2Proof.Machine
end

