-- ==== Sys2Proof/Machine/Operands.lean ====
section
/-! DEFINITION. Operand forms of the Burpor instructions: immediates and addresses (R167, R171, R207), format tags and elements of vector registers (R191 to R193, Table 9.1), MX scales (R196). -/

namespace Sys2Proof.Machine

/-- Sign-extended 12-bit immediate or offset. -/
def sx12 (i : BitVec 12) : U64 := i.signExtend 64

/-- Sign-extended 20-bit immediate. -/
def sx20 (i : BitVec 20) : U64 := i.signExtend 64

/-- Address of a load or store: base + sext(off12) (R171). -/
def memAddr (x : Cell) (b : BitVec 5) (off : BitVec 12) : Nat := (x.rg b + sx12 off).toNat

/-- Address of vld, vst: base + sext(off12) * 32; of xld, xst: times 64 (Table 9.9). -/
def vecAddr (x : Cell) (b : BitVec 5) (off : BitVec 12) (scale : U64) : Nat := (x.rg b + sx12 off * scale).toNat

/-! ### Format tags -/

/-- Element bits of a tag (Table 9.1). -/
def tagBits (t : BitVec 4) : Nat :=
  match t.toNat with
  | 0x0 => 32
  | 0x1 => 16
  | 0x2 => 16
  | 0x6 => 4
  | 0x7 => 32
  | 0xA => 6
  | 0xB => 6
  | 0xC => 4
  | 0xE => 64
  | 0xF => 64
  | _ => 8

/-- Elements per register of a tag (Table 9.1): 32 for 6-bit elements. -/
def tagCount (t : BitVec 4) : Nat := if tagBits t = 6 then 32 else 256 / tagBits t

/-- Floating-point element format of a tag. -/
def tagFF (t : BitVec 4) : Option FF :=
  match t.toNat with
  | 0x0 => some .f32
  | 0x1 => some .bf16
  | 0x2 => some .f16
  | 0x3 => some .e4m3
  | 0x4 => some .e5m2
  | 0x8 => some .e4m3
  | 0x9 => some .e5m2
  | 0xA => some .e2m3
  | 0xB => some .e3m2
  | 0xC => some .e2m1
  | 0xE => some .f64
  | _ => none

/-- The MX tags. -/
def tagMX (t : BitVec 4) : Bool := 8 ≤ t.toNat && t.toNat ≤ 13

/-- Tags F of Table 9.6: .f32, .bf16, .f16, .f64. -/
def tagF (t : BitVec 4) : Bool := t = 0x0 || t = 0x1 || t = 0x2 || t = 0xE

/-- Tags I of Table 9.6: .i8, .i32, .i64. -/
def tagI (t : BitVec 4) : Bool := t = 0x5 || t = 0x7 || t = 0xF

/-- Tags of the functions: .f32, .bf16, .f16. -/
def tagFn (t : BitVec 4) : Bool := t = 0x0 || t = 0x1 || t = 0x2

/-- Tags of xadd and xsub: .f32, .bf16, .f16, .e4m3, .e5m2. -/
def tagX (t : BitVec 4) : Bool := t.toNat ≤ 4

/-- Tags of vdot: all but .i32, .f64 and .i64 (R201). -/
def tagDot (t : BitVec 4) : Bool := t != 0x7 && t != 0xE && t != 0xF

/-- Tags of vsplat (Table 9.9). -/
def tagSplat (t : BitVec 4) : Bool := t.toNat ≤ 5 || t = 0x7 || t = 0xE || t = 0xF

/-- Tags of xrd (Table 9.9). -/
def tagXrd (t : BitVec 4) : Bool := t.toNat ≤ 4 || t = 0xE

/-! ### Elements (R191, R192) -/

/-- Element `k` of `w` bits of a register. -/
def elem (v : BitVec 256) (w k : Nat) : Nat := bits v.toNat (w * k) w

/-- A register from its elements of `w` bits, element 0 first. -/
def vecOf (w : Nat) (es : List Nat) : BitVec 256 :=
  BitVec.ofNat 256 (es.foldr (fun e a => e % 2 ^ w + 2 ^ w * a) 0)

/-- Elements 0 to n - 1. -/
def elems (v : BitVec 256) (w n : Nat) : List Nat := (List.range n).map (elem v w)

/-- Is element `k` governed (R192)? -/
def governed (p : BitVec 32) (w k : Nat) : Bool := p.getLsbD (w * k / 8)

/-- A register whose governed elements of `w` bits become `f k`; the others keep their value (R192). -/
def mapElems (p : BitVec 32) (w n : Nat) (old : BitVec 256) (f : Nat → Nat) : BitVec 256 :=
  vecOf w ((List.range n).map fun k => if governed p w k then f k else elem old w k)

/-- Bits of every byte lane of element `k`, in a 32-bit predicate (R199). -/
def laneBits (w k : Nat) : Nat := maskOf (w * k / 8) (w / 8)

/-- Scale byte of a block: operand 0 or 1, block b (R196). -/
def scaleOf (p : BitVec 32) (operand b : Nat) : Nat := bits p.toNat (16 * operand + 8 * b) 8

/-- Value of an MX element: e * 2^(s - 127); a scale of 0xFF is NaN (R196). MXINT8 denotes k / 64. -/
def mxValue (t : BitVec 4) (s x : Nat) : FV :=
  if s = 0xFF then .nan else
  match tagFF t with
  | some f => scaleFV ((s : Int) - 127) (f.decode x)
  | none => .ofInt (sext 8 x) ((s : Int) - 133)

/-- Value of element `k` of a register under a tag; `operand` picks the scale bytes. -/
def elemValue (t : BitVec 4) (p : BitVec 32) (operand : Nat) (v : BitVec 256) (k : Nat) : FV :=
  let x := elem v (tagBits t) k
  if tagMX t then mxValue t (scaleOf p operand (k / 32)) x
  else match tagFF t with
    | some f => f.decode x
    | none => .ofInt (sext (tagBits t) x) 0

/-- A value into an element of a tag (Table 9.3); an MX element is the one nearest to x * 2^(127 - s). -/
def toElem (t : BitVec 4) (s : Nat) (x : FV) : Nat :=
  if tagMX t then
    let y := if s = 0xFF then FV.nan else scaleFV (127 - (s : Int)) x
    match tagFF t with
    | some f => f.round y
    | none => toIntSat 8 (scaleFV 6 y)
  else match tagFF t with
    | some f => f.round x
    | none => toIntSat (tagBits t) x

/-- Accumulator record bytes (Table 9.11). -/
def accBytes (a : Accum) (kind : Nat) : List Byte :=
  leBytes 40 a.value.toNat ++ leBytes 4 a.count.toNat ++ [BitVec.ofNat 8 a.flags.toNat, BitVec.ofNat 8 kind] ++ List.replicate 18 0

/-- Accumulator of record bytes: VALUE, COUNT, FLAGS (R207). -/
def accOf (bs : List Byte) : Accum :=
  ⟨BitVec.ofNat 320 (leNat (bs.take 40)), BitVec.ofNat 32 (leNat ((bs.drop 40).take 4)), BitVec.ofNat 5 (leNat ((bs.drop 44).take 1))⟩

end Sys2Proof.Machine
end

