-- ==== Sys2Proof/Machine/Flags.lean ====
section
/-! DEFINITION. Flags: predicates from comparisons (Table 8.7, R199), and the exact accumulators with COUNT and FLAGS (R209 to R212, R448). -/

namespace Sys2Proof.Machine

/-- A scalar comparison (Table 8.7). -/
def ccHolds (c : CC) (a b : U64) : Bool :=
  match c with
  | .eq => a = b
  | .ne => a != b
  | .lt => a.slt b
  | .ge => !a.slt b
  | .ltu => a.ult b
  | .geu => !a.ult b

/-- A scalar instruction writes the same value to all 32 bits of a predicate (Table 8.2). -/
def predAll (b : Bool) : BitVec 32 := if b then BitVec.allOnes 32 else 0

/-- Predicate of a vector comparison: every byte lane of each governed element; 0 elsewhere; byte lanes 4 to 31 are 0 for 64-bit elements (R199). -/
def predElems (p : BitVec 32) (w n : Nat) (f : Nat → Bool) : BitVec 32 :=
  let v := (List.range n).foldl (fun a k => if governed p w k && f k then a ||| laneBits w k else a) 0
  BitVec.ofNat 32 (if w = 64 then v % 16 else v)

/-! ### Exact accumulators -/

/-- FLAGS bits (Table 9.11). -/
def flPinf : BitVec 5 := 1
/-- See `flPinf`. -/
def flNinf : BitVec 5 := 2
/-- See `flPinf`. -/
def flNan : BitVec 5 := 4
/-- See `flPinf`. -/
def flOvf : BitVec 5 := 8
/-- See `flPinf`. -/
def flPoison : BitVec 5 := 16

/-- COUNT after `n` more addends, saturating, with OVF past 2^31 (R210, R211). -/
def accCount (a : Accum) (n : Nat) : Accum :=
  let c := min (a.count.toNat + n) (2 ^ 32 - 1)
  { a with count := BitVec.ofNat 32 c, flags := if 2 ^ 31 < c then a.flags ||| flOvf else a.flags }

/-- Absorb one addend (R210). -/
def accAdd (a : Accum) (x : FV) : Accum :=
  let a := accCount a 1
  match x with
  | .nan => { a with flags := a.flags ||| flNan }
  | .inf neg => { a with flags := a.flags ||| (if neg then flNinf else flPinf) }
  | .fin neg m e => { a with value := a.value + BitVec.ofInt 320 (sgn neg (m * 2 ^ (e + 149).toNat)) }

/-- Merge b into a (R211). -/
def accMerge (a b : Accum) : Accum :=
  accCount { a with value := a.value + b.value, flags := a.flags ||| b.flags } b.count.toNat

/-- Does a record carry a flag? -/
def Accum.has (a : Accum) (f : BitVec 5) : Bool := a.flags &&& f != 0

/-- Row of Table 9.12 past POISON, as a value; `none` is the canonical NaN of row 4 (counted by OVF_READS). -/
def accValue (a : Accum) : Option FV :=
  if a.has flNan || (a.has flPinf && a.has flNinf) then some .nan
  else if a.has flPinf then some (.inf false)
  else if a.has flNinf then some (.inf true)
  else if a.has flOvf then none
  else some (.ofInt a.value.toInt (-149))

/-- Readout of a SUM record into a format (R212), POISON apart. -/
def accRead (a : Accum) (f : FF) : Nat := f.round ((accValue a).getD .nan)

/-- The readout came from row 4 of Table 9.12. -/
def accOvfRead (a : Accum) : Bool := !a.has flPoison && accValue a = none

/-- Absorb an fp32 value into a MAX or MIN record: the first as it is, later ones by vmax or vmin (R448). -/
def accExtreme (big : Bool) (a : Accum) (x : Nat) : Accum :=
  let old := bits a.value.toNat 0 32
  let v := if a.count = 0 then x
           else FF.f32.round ((if big then maxFV else minFV) (FF.f32.decode old) (FF.f32.decode x))
  accCount { a with value := BitVec.ofNat 320 v } 1

/-- Absorb a value into an OR record (R214, R448). -/
def accOr (a : Accum) (x : Nat) : Accum := accCount { a with value := a.value ||| BitVec.ofNat 320 x } 1

end Sys2Proof.Machine
end

