-- ==== Sys2Proof/Machine/Clap.lean ====
section
/-! DEFINITION. Clappers and armed waits (R53, R54, R454). -/

namespace Sys2Proof.Machine

/-- A clapper by number. -/
def clapper (s : State) (n : Nat) : Option Clapper := find s.gaf.clappers n

/-- A clapper of an owner: `none` the operator, `some t` tent t. -/
def ownsClap (s : State) (owner : Option Nat) (n : Nat) : Bool := ((clapper s n).map (·.owner)) = some owner

/-- A cell's cwait on clapper `n` is met: its register takes the counter's value (R177). -/
def wakeClap (n : Nat) (v : U64) (x : Cell) : Cell :=
  match x.state, x.wait with
  | .waiting, some (.clap gd m thr) => if m = n && thr ≤ v then (x.wg gd v).resume else x
  | _, _ => x

/-- Waits of clapper `n` whose threshold the counter has reached fire, once each (R54), and so do the cells' (R177). -/
def fireWaits (n : Nat) (s : State) : State :=
  match clapper s n with
  | none => s
  | some c =>
    let due := s.gaf.waits.filter fun w => w.2.clapper = n && w.2.threshold ≤ c.ctr && !has s.gaf.fired w.1
    { s with gaf := { s.gaf with fired := due.foldl (fun f w => put f w.1 c.ctr) s.gaf.fired }
             crw := { s.crw with cells := s.crw.cells.map fun e => (e.1, wakeClap n c.ctr e.2) } }

/-- The counter after an addition: 2^64 - 1 with the overflow flag where the sum exceeds it (R53). -/
def addCtr (c : Clapper) (v : Nat) : Clapper :=
  if c.ctr.toNat + v ≥ 2 ^ 64 then { c with ctr := BitVec.allOnes 64, ovf := true }
  else { c with ctr := BitVec.ofNat 64 (c.ctr.toNat + v) }

/-- Add to a clapper that exists; thresholds are compared after it (R53). -/
def clapAdd (n v : Nat) (s : State) : State :=
  fireWaits n { s with gaf := { s.gaf with clappers := upd s.gaf.clappers n fun c => addCtr c v } }

/-- Set a clapper: the flag clears (R53). -/
def clapSet (n : Nat) (v : U64) (s : State) : State :=
  fireWaits n { s with gaf := { s.gaf with clappers := upd s.gaf.clappers n fun c => { c with ctr := v, ovf := false } } }

/-- Add to a clapper a command named, if it named one and it still exists. -/
def clapOpt (n : Option Nat) (v : Nat) (s : State) : State :=
  match n with
  | some k => clapAdd k v s
  | none => s

/-- CLAPPER fields: 0xFFFF_FFFF names none. -/
def clapName (v : Nat) : Option Nat := if v = 0xFFFFFFFF then none else some v

/-- A named clapper is absent or one of the owner's. -/
def clapOk (s : State) (owner : Option Nat) (v : Nat) : Bool :=
  match clapName v with
  | none => true
  | some k => ownsClap s owner k

end Sys2Proof.Machine
end

