-- ==== Sys2Proof/Machine/Gsb.lean ====
section
/-! DEFINITION. The Gorystad Sparse Block format: CRC-32C, the canonical encoder (R143 to R151), the decoder with every damage check (R150), and the form of a message on the wire (R161, R162). -/

namespace Sys2Proof.Machine

/-- One bit of the reflected CRC-32C (R144). -/
def crcBit (c : Nat) : Nat := if c % 2 = 1 then (c / 2) ^^^ 0x82F63B78 else c / 2

/-- One byte of the CRC. -/
def crcByte (c : Nat) (b : Byte) : Nat :=
  crcBit (crcBit (crcBit (crcBit (crcBit (crcBit (crcBit (crcBit (c ^^^ b.toNat))))))))

/-- CRC-32C of a byte string (R144). -/
def crc32c (bs : List Byte) : Nat := bs.foldl crcByte 0xFFFFFFFF ^^^ 0xFFFFFFFF

/-- Chunks of `n` bytes. -/
def chunks (n : Nat) : Nat → List Byte → List (List Byte)
  | 0, _ => []
  | k + 1, bs => bs.take n :: chunks n k (bs.drop n)

/-- A zero element or sector (R141). -/
def allZero (bs : List Byte) : Bool := bs.all (· == 0)

/-! ### Encoding -/

/-- Payload of a BITMAP block with element width `e`, and its COUNT (R146). -/
def bitmapPayload (e : Nat) (bs : List Byte) : List Byte × Nat :=
  let els := chunks e (bs.length / e) bs
  let nz := els.map fun x => !allZero x
  let bm := (List.range (nz.length / 8)).map fun i =>
    BitVec.ofNat 8 ((List.range 8).foldl (fun a j => a + (if nz.getD (8 * i + j) false then 2 ^ j else 0)) 0)
  let kept := els.filter fun x => !allZero x
  (bm ++ kept.flatten, kept.length)

/-- Maximal runs of sectors: literal or zero, and their lengths (R147, R151). -/
def runsOf : List Bool → List (Bool × Nat)
  | [] => []
  | b :: t => match runsOf t with
    | (c, n) :: r => if b = c then (c, n + 1) :: r else (b, 1) :: (c, n) :: r
    | [] => [(b, 1)]

/-- Payload of a RUNS block, and its COUNT (R147). -/
def runsPayload (bs : List Byte) : List Byte × Nat :=
  let secs := chunks 64 (bs.length / 64) bs
  let rs := runsOf (secs.map fun x => !allZero x)
  (rs.map (fun r => BitVec.ofNat 8 ((if r.1 then 128 else 0) + (r.2 - 1))) ++ (secs.filter fun x => !allZero x).flatten, rs.length)

/-- SIZE code of a block length (Table 7.1). -/
def gsbSize (n : Nat) : Nat := if n = 2048 then 0 else if n = 4096 then 1 else 2

/-- Block length of a SIZE code. -/
def gsbBytes (code : Nat) : Nat := if code = 0 then 2048 else if code = 1 then 4096 else 8192

/-- Element width of an ELEM code. -/
def gsbElem (code : Nat) : Nat := if code = 0 then 1 else if code = 1 then 2 else 4

/-- The header of a block with its CRC (R143, R144). -/
def gsbHeader (size enc elem : Nat) (payload : List Byte) (count poison : Nat) : List Byte :=
  let a := leBytes 1 0xB5 ++ leBytes 1 (place size 6 2 ||| place enc 4 2 ||| place elem 2 2) ++ leBytes 2 payload.length ++ leBytes 2 count ++ leBytes 2 0
  let z := leBytes 4 0 ++ leBytes 16 poison
  a ++ leBytes 4 (crc32c (a ++ leBytes 4 0 ++ z ++ payload)) ++ z

/-- The canonical block (R151): the smallest payload, RUNS before BITMAP before RAW. -/
def gsbEncode (elem : Nat) (bs : List Byte) (poison : Nat) : List Byte :=
  let size := gsbSize bs.length
  let (rp, rc) := runsPayload bs
  let (bp, bc) := bitmapPayload (gsbElem elem) bs
  if rp.length ≤ bp.length && rp.length ≤ bs.length then gsbHeader size 2 0 rp rc poison ++ rp
  else if bp.length ≤ bs.length then gsbHeader size 1 elem bp bc poison ++ bp
  else gsbHeader size 0 0 bs 0 poison ++ bs

/-! ### Decoding -/

/-- Elements of a BITMAP payload restored (R146). -/
def bitmapDecode (e : Nat) (bm : List Byte) : Nat → Nat → List Byte → List Byte
  | 0, _, _ => []
  | n + 1, j, packed =>
    if (bm.getD (j / 8) 0).toNat.testBit (j % 8) then packed.take e ++ bitmapDecode e bm n (j + 1) (packed.drop e)
    else List.replicate e 0 ++ bitmapDecode e bm n (j + 1) packed

/-- Sectors of a RUNS payload restored (R147). -/
def runsDecode : List Byte → List Byte → List Byte
  | [], _ => []
  | r :: rs, lit =>
    let n := 64 * (r.toNat % 128 + 1)
    if 128 ≤ r.toNat then lit.take n ++ runsDecode rs (lit.drop n) else List.replicate n 0 ++ runsDecode rs lit

/-- Set bits of a byte string. -/
def onesOf (bs : List Byte) : Nat := bs.foldl (fun a b => a + popCount 8 b.toNat) 0

/-- Decode a block of `s` bytes (R149, R150): none where it is damaged, with whether only the CRC failed. -/
def gsbDecode (s : Nat) (bs : List Byte) : Except Bool (List Byte × Nat) :=
  let f (o n : Nat) : Nat := leNat ((bs.drop o).take n)
  let b1 := f 1 1
  let enc := bits b1 4 2
  let elem := bits b1 2 2
  let len := f 2 2
  let count := f 4 2
  let poison := f 16 16
  let payload := (bs.drop 32).take len
  let e := gsbElem elem
  let bmLen := s / (8 * e)
  let recs := payload.take count
  let secs := recs.foldl (fun a r => a + r.toNat % 128 + 1) 0
  let lits := recs.foldl (fun a r => a + (if 128 ≤ r.toNat then r.toNat % 128 + 1 else 0)) 0
  if bs.length < 32 || f 0 1 != 0xB5 || bits b1 6 2 != gsbSize s || enc = 3 || elem = 3 || (enc != 1 && elem != 0) || b1 % 4 != 0
      || f 6 2 != 0 || f 12 4 != 0 || s < len || bs.length < 32 + len || 2 ^ (s / 64) ≤ poison
      || (match enc with
          | 0 => len != s || count != 0
          | 1 => len != bmLen + count * e || onesOf (payload.take bmLen) != count
          | _ => count = 0 || secs != s / 64 || len != count + 64 * lits) then .error false
  else if f 8 4 != crc32c (bs.take 8 ++ leBytes 4 0 ++ (bs.drop 12).take 20 ++ payload) then .error true
  else .ok (match enc with
    | 0 => payload
    | 1 => bitmapDecode e (payload.take bmLen) (s / e) 0 (payload.drop bmLen)
    | _ => runsDecode recs (payload.drop count), poison)

/-- Count bytes that a codec encoded or decoded (Tables 7.9, 7.10). -/
def countCodec (raw st : Nat) (s : State) : State := bump .cmpStoredBytes 0 0 64 st (bump .cmpRawBytes 0 0 64 raw s)

/-! ### On the wire -/

/-- A message in the form that a port sends it (R161): one block where the port encodes and it is short enough. DESIGN CHOICE (log entry 52): while PD 24 is off, of which R161 does not speak, it is sent uncompressed. -/
def wireMsg (s : State) (p ty : Nat) (m : Msg) : Msg :=
  let x := (find s.fab.ports p).getD {}
  let n := m.data.length
  if fld s .cmpWireCtl p 0 1 = 1 && (x.role = 3 || x.role = 4) && x.mode = 1 && (ty = 2 || ty = 9) && (n = 2048 || n = 4096) && pdOn s 24 then
    let blk := gsbEncode (fld s .cmpWireCtl p 1 2) m.data m.mask.toNat
    if blk.length ≤ n - 64 then
      { m with gsb := true, storedLen := BitVec.ofNat 16 blk.length, mask := 0, data := blk ++ List.replicate ((64 - blk.length % 64) % 64) 0 }
    else m
  else m

/-- A received GSB message decoded before the range gate (R162); a damaged block is delivered as poisoned data and counted (Table 7.8). DESIGN CHOICE (log entry 52): R159 gives reads and writes of compressed regions an outcome while PD 24 is off, and no other; a message is decoded then as ever. -/
def unwire (m : Msg) (s : State) : Msg × State :=
  if !m.gsb then (m, s) else
  match gsbDecode m.length.toNat (m.data.take m.storedLen.toNat) with
  | .ok (bs, p) => ({ m with gsb := false, data := bs, mask := BitVec.ofNat 64 p }, countCodec m.length.toNat m.storedLen.toNat s)
  | .error crc =>
    let (bs, s) := drawBytes m.length.toNat s
    ({ m with gsb := false, data := bs, mask := BitVec.allOnes 64 }, bump .cmpErrors 0 (if crc then 32 else 48) 16 1 (bump .cmpErrors 0 16 16 1 s))

end Sys2Proof.Machine
end

