-- ==== Sys2Proof/Machine/Mem.lean ====
section
/-! DEFINITION. Pooled memory: which tile a byte of a region lies in, where the tile is, its bytes and poison marks; allocation, copy and freeing of tiles (chapters 4 and 6). -/

namespace Sys2Proof.Machine

/-- Bytes in a tile or snapshot granule (R85, R122). -/
def tileBytes : Nat := 65536

/-- Tiles tier 0 offers to regions (R122). -/
def tier0Tiles : Nat := 4177920

/-- The region whose range holds a pooled-memory offset. -/
def regionIn (off : Nat) : List (Nat × Region) → Option (Nat × Region)
  | [] => none
  | (k, r) :: t => if r.base ≤ off && off < r.base + r.size then some (k, r) else regionIn off t

/-- See `regionIn`. -/
def regionAt (s : State) (off : Nat) : Option (Nat × Region) := regionIn off s.pool.regions

/-- The old map, where it is the map of a request's stamp (R47). -/
def oldMapOf (s : State) (x : Txn) : Option OldMap := s.gaf.oldMap.filter fun o => x.gated && x.epoch = o.epoch

/-- The engines' definitions as an old map has them (R268): a table or cache that the boundary changed or removed is the old one, with its views; another is the present one, with its present lists. -/
def oldGather (o : OldMap) (g : Gather) : Gather :=
  let sameT (a b : Table) : Bool := { a with sets := [] } = { b with sets := [] }
  let sameC (a b : KvCache) : Bool := { a with map := [], lens := [] } = { b with map := [], lens := [] }
  let lost := o.caches.filter fun e => !(find g.caches e.1).any (sameC e.2)
  { g with
    tables := o.tables.map fun e => (e.1, ((find g.tables e.1).filter (sameT e.2)).getD e.2)
    caches := o.caches.map fun e => (e.1, ((find g.caches e.1).filter (sameC e.2)).getD e.2)
    views := (o.views.filter fun v => has lost v.2.1) ++ g.views }

/-- The machine as the map of a request's stamp shows it (R46, R47): for a request of the old epoch, the routes, the released regions and their handles, and the engines' definitions of before the boundary. -/
def underMap (s : State) (x : Txn) : State :=
  match oldMapOf s x with
  | none => s
  | some o => { s with
      fab := { s.fab with self := o.self, nodes := o.nodes, attach := o.attach }
      pool := { s.pool with regions := s.pool.dead ++ s.pool.regions, handles := s.pool.deadHandles ++ s.pool.handles }
      gth := oldGather o s.gth }

/-- Region by identifier. -/
def region (s : State) (k : Nat) : Option Region := find s.pool.regions k

/-- Change one region. -/
def updRegion (k : Nat) (f : Region → Region) (s : State) : State :=
  { s with pool := { s.pool with regions := upd s.pool.regions k f } }

/-- Granule of a region an offset falls in (R85). -/
def granuleOf (r : Region) (off : Nat) : Nat := (off - r.base) / tileBytes

/-- Snapshot granules of a region. -/
def granules (r : Region) : Nat := r.size / tileBytes

/-- The tile a view maps a granule to. -/
def tileOf (r : Region) (v : View) (g : Nat) : Nat := (find v g).getD (r.ext * 2 ^ 24 + g)

/-- The current reel's view. -/
def currentView (r : Region) : View := match r.reels with
  | [] => []
  | x :: _ => x.view

/-- The head's view, or the current reel's when no writer is open. -/
def headView (r : Region) : View := match r.writer with
  | some w => w.head
  | none => currentView r

/-- The reel read entry of a source for a region: the reel held (R89). -/
def readEntry (s : State) (k source : Nat) : Option Nat :=
  (s.pool.handles.find? fun h => !h.2.writer && h.2.region = k && h.2.source = source).map fun h => h.2.reel

/-- The tent that opened the reel read entry of a source for a region (R90). -/
def readTent (s : State) (k source : Nat) : Option Nat :=
  (s.pool.handles.find? fun h => !h.2.writer && h.2.region = k && h.2.source = source).map fun h => h.2.tent

/-- What a source reads (Table 4.3). -/
def viewFor (s : State) (k : Nat) (r : Region) (source : Nat) : View :=
  match readEntry s k source with
  | some n => match r.reels.find? (·.num = n) with
    | some x => x.view
    | none => headView r
  | none => headView r

/-- Views of every live reel, the head included (R88). -/
def liveViews (r : Region) : List View :=
  r.reels.map (·.view) ++ (match r.writer with | some w => [w.head] | none => []) ++ r.mbase.toList ++ r.mhead.toList

/-- Number of live reels (R88). -/
def liveCount (r : Region) : Nat := r.reels.length + (if r.writer.isSome then 1 else 0)

/-- The module of tile `g` of a run-striped backing (R124). -/
def runPlace (g : Nat) : List Run → Place
  | [] => .t0
  | x :: t =>
    if x.first ≤ g && g < x.first + x.count then
      match x.mods with
      | [] => .t0
      | ms => let m := ms.getD ((g - x.first) % ms.length) 0
              if x.tier = 1 then .t1 m else .t2 m
    else runPlace g t

/-- Where a tile of a region lies. -/
def placeOf (s : State) (r : Region) (tile : Nat) : Place :=
  match find s.pool.places tile with
  | some p => p
  | none => if tile / 2 ^ 24 = r.ext then runPlace (tile % 2 ^ 24) r.runs else .t0

/-- Tier number of a place. -/
def Place.tier : Place → Nat
  | .t0 => 0
  | .t1 _ => 1
  | .t2 _ => 2
  | .t3 _ _ => 3

/-- Address of a tile's byte in the pool memory. -/
def tileAddr (tile off : Nat) : Nat := tile * tileBytes + off

/-- Line key of the poison list. -/
def lineKey (tile line : Nat) : Nat := tile * 1024 + line

/-- The module lost a tier-1 tile's content with its power (Table 15.12). -/
def tileLost (s : State) (tile : Nat) : Bool :=
  s.pool.lostTiles.contains tile || (s.pool.lostRuns.any (·.1 = tile / 2 ^ 24) && !has s.pool.places tile &&
    match s.pool.regions.find? (·.2.ext = tile / 2 ^ 24) with
    | some (_, r) => match runPlace (tile % 2 ^ 24) r.runs with
      | .t1 m => s.pool.lostRuns.contains (r.ext, m)
      | _ => false
    | none => false)

/-- A poisoned line is counted in the RAS telemetry with its node and offset (R82); `row` is the cause, a row of Table 3.14, free where the mark does not tell it. -/
def notePoison (row : Option Nat) (node off : Nat) (s : State) : State :=
  let (d, s) := match row with
    | some k => (k, s)
    | none => drawNat s
  ras 0x01 2 none node d off s

/-- The poisoned lines of a span, from a mask, each noted. -/
def notePoisons (row : Option Nat) (node off : Nat) : Nat → Nat → State → State
  | 0, _, s => s
  | n + 1, m, s => notePoisons row node (off + 64) n (m / 2) (if m % 2 = 1 then notePoison row node off s else s)

/-- Requests in one stage are ready again. -/
def wake (p : Stage → Bool) (s : State) : State :=
  { s with fab := { s.fab with txns := s.fab.txns.map fun x => if p x.stage then { x with stage := .ready } else x } }

/-- Is a line poisoned? -/
def isPoison (s : State) (tile line : Nat) : Bool := s.pool.poison.contains (lineKey tile line) || tileLost s tile

/-- A lost tile is about to move: its poison becomes marks of its lines. -/
def settleLost (tile : Nat) (s : State) : State :=
  if !tileLost s tile then s else
  { s with pool := { s.pool with
      lostTiles := delNat s.pool.lostTiles tile
      poison := (List.range 1024).foldl (fun m i => insNat m (lineKey tile i)) s.pool.poison } }

/-- Mark or clear the poison of a line (Table 3.14). -/
def setPoison (tile line : Nat) (b : Bool) (s : State) : State :=
  { s with pool := { s.pool with poison := if b then insNat s.pool.poison (lineKey tile line) else delNat s.pool.poison (lineKey tile line) } }

/-- Bytes of a tile. -/
def tileRead (s : State) (tile off n : Nat) : List Byte := readBytes s.pool.mem (tileAddr tile off) n

/-- Store bytes into a tile. -/
def tileWrite (tile off : Nat) (bs : List Byte) (s : State) : State :=
  { s with pool := { s.pool with mem := writeBytes s.pool.mem (tileAddr tile off) bs } }

/-- Copy the content and poison of a tile (R96). -/
def tileCopy (src dst : Nat) (s : State) : State :=
  let bs := s.pool.mem.filter fun e => e.1 / tileBytes = src
  let mem := bs.foldl (fun m e => put m (e.1 - src * tileBytes + dst * tileBytes) e.2) s.pool.mem
  let ps := if tileLost s src then (List.range 1024).map (lineKey src) else s.pool.poison.filter fun k => k / 1024 = src
  let poison := ps.foldl (fun m k => insNat m (k - src * 1024 + dst * 1024)) s.pool.poison
  { s with pool := { s.pool with mem := mem, poison := poison } }

/-- Forget the content, poison and place of a tile. -/
def tileErase (tile : Nat) (s : State) : State :=
  { s with pool := { s.pool with
      mem := zeroBytes s.pool.mem (tile * tileBytes) tileBytes
      poison := s.pool.poison.filter fun k => k / 1024 != tile
      places := del s.pool.places tile
      lostTiles := delNat s.pool.lostTiles tile } }

/-- Change one tray port. -/
def updTray (m : Nat) (f : Tray → Tray) (s : State) : State :=
  { s with fab := { s.fab with trays := put s.fab.trays m (f ((find s.fab.trays m).getD {})) } }

/-- A tray port. -/
def tray (s : State) (m : Nat) : Tray := (find s.fab.trays m).getD {}

/-- A module whose tiles can be reached: admitted, its link in L0, its session open (R124, R382, Table 15.12). -/
def trayUp (s : State) (m : Nat) : Bool :=
  let t := tray s m
  t.admitted && t.session && (t.link = .l0 || t.link = .retrain) && pdOn s (pdTray m)

/-- Write the tile tags of `count` module tiles, over the module's session (R323, Table 14.5): VALID, WR and SLOT. Which module tile addresses they are is the switch's own choice, a free value. -/
def gateTags (m tag count : Nat) (s : State) : State :=
  if count = 0 then s else
  let (f, s) := drawNat s
  emit (.gate m (leBytes 1 1 ++ [0] ++ leBytes 2 tag ++ leBytes 4 f ++ leBytes 4 count ++ List.replicate 4 0)) s

/-- Tag of a tile kept under a key slot (Table 14.4). -/
def tagOf (slot : Nat) (wr : Bool) : Nat := 0x8000 ||| place (bitOf wr) 14 1 ||| slot % 128

/-- One tile of a place returns to its free pool: tier 0 and 1 after clearing, tier 2 at once, tier 3 uncleared (R88, R328). -/
def freePlace (p : Place) (s : State) : State :=
  match p with
  | .t0 => { s with pool := { s.pool with dirty0 := s.pool.dirty0 + 1 } }
  | .t1 m => updTray m (fun t => { t with dirty1 := t.dirty1 + 1 }) s
  | .t2 m => updTray m (fun t => { t with free2 := t.free2 + 1 }) (gateTags m 0 1 s)
  | .t3 p i => { s with pool := { s.pool with used3 := delNat s.pool.used3 (p * 2 ^ 32 + i) } }

/-- Does a running near-bank run bind a tile (R290)? -/
def runBinds (s : State) (tile : Nat) : Bool :=
  s.nbu.any fun e => e.2.running.any fun r => r.binds.any fun b => !b.work && b.tiles.contains tile

/-- Remember a tile that a run still reads. -/
def keepForRun (tile : Nat) (p : Option Place) (s : State) : State :=
  { s with pool := { s.pool with runTiles := s.pool.runTiles ++ [(tile, p)] } }

/-- Change the writer of a region. -/
def updWriter (k : Nat) (f : Writer → Writer) (s : State) : State := updRegion k (fun r => { r with writer := r.writer.map f }) s

/-- A place that held a tile of region `k` is freed: one of tier 0 refills the writer's reserve first, and serves it uncleared (R88, R97). -/
def freeSource (k : Nat) (p : Place) (s : State) : State :=
  match p, (region s k).bind (·.writer) with
  | .t0, some w =>
    if w.left < w.reserve then updWriter k (fun w => { w with left := w.left + 1, soiled := w.soiled + 1 }) s
    else freePlace .t0 s
  | p, _ => freePlace p s

/-- A tile of region `k` is freed. -/
def freeTile (k : Nat) (r : Region) (tile : Nat) (s : State) : State :=
  let p := placeOf s r tile
  if runBinds s tile then keepForRun tile (some p) s else freeSource k p (tileErase tile s)

/-- Tiles that only an ended run read are erased and freed (R290). -/
def releaseRunTiles (s : State) : State :=
  let gone := s.pool.runTiles.filter fun e => !runBinds s e.1
  let s := { s with pool := { s.pool with runTiles := s.pool.runTiles.filter fun e => runBinds s e.1 } }
  gone.foldl (fun s e => match e.2 with
    | some p => freePlace p (tileErase e.1 s)
    | none => tileErase e.1 s) s

/-- Granules that some view of a list maps away from the first backing. -/
def touched (vs : List View) : List Nat := vs.foldl (fun a v => (keys v).foldl insNat a) []

/-- Tiles that a dying view holds and no other live view uses (R88). -/
def orphans (r : Region) (dead : View) (others : List View) : List Nat :=
  (touched (dead :: others)).filterMap fun g =>
    let t := tileOf r dead g
    if others.any fun v => tileOf r v g = t then none else some t

/-- Free tiles of a tier on a module. -/
def modFree (s : State) (tier m : Nat) : Nat :=
  if trayUp s m then (if tier = 1 then (tray s m).free1 else (tray s m).free2) else 0

/-- Modules in ascending order starting at one, wrapping (R124). -/
def modOrder (start : Nat) : List Nat := (List.range 8).map fun i => (start + i) % 8

/-- Stripe `count` tiles from `first` over the modules with room (R124): the runs, the room left, the last module used. -/
def stripe (tier : Nat) : Nat → Nat → Nat → Nat → List (Nat × Nat) → Option (List Run × List (Nat × Nat) × Nat)
  | 0, _, _, _, _ => none
  | fuel + 1, start, first, count, room =>
    let ms := (modOrder start).filter fun m => 0 < (find room m).getD 0
    let n := ms.length
    if n = 0 then none else
    let k := ms.foldl (fun a m => min a ((find room m).getD 0)) (2 ^ 40)
    let take := min count (k * n)
    let room' := (List.range n).foldl (fun rm i =>
      let m := ms.getD i 0
      put rm m ((find rm m).getD 0 - (take / n + if i < take % n then 1 else 0))) room
    let last := ms.getD ((take - 1) % n) 0
    let run : Run := ⟨first, take, tier, ms⟩
    if take = count then some ([run], room', last)
    else (stripe tier fuel ((last + 1) % 8) (first + take) (count - take) room').map fun r => (run :: r.1, r.2)

/-- Allocate `count` tiles in a tier 1 or 2 from module `start`, their tags written first (R124, R323). -/
def allocLower (tag tier start first count : Nat) (s : State) : Option (List Run × Nat × State) :=
  let room := (List.range 8).map fun m => (m, modFree s tier m)
  (stripe tier 9 start first count room).map fun (runs, room', last) =>
    let s := (List.range 8).foldl (fun s m =>
      if modFree s tier m = 0 then s else
      let left := (find room' m).getD 0
      updTray m (fun t => if tier = 1 then { t with free1 := left } else { t with free2 := left }) (gateTags m tag (modFree s tier m - left) s)) s
    (runs, last, s)

/-- Take `n` cleared free tier-0 tiles outside every reserve. -/
def takeFree0 (n : Nat) (s : State) : Option State :=
  if n ≤ s.pool.free0 then some { s with pool := { s.pool with free0 := s.pool.free0 - n } } else none

/-- Tier-0 tiles from the pool return to it by way of the clear engine (R88). -/
def giveDirty0 (n : Nat) (s : State) : State := { s with pool := { s.pool with dirty0 := s.pool.dirty0 + n } }

/-- Tier-0 tiles that held no tenant data return to free tier 0 at once. -/
def giveFree0 (n : Nat) (s : State) : State := { s with pool := { s.pool with free0 := s.pool.free0 + n } }

/-- Every tile of a region that some live reel uses, by place, for freeing at release: tiles of the first backing counted by tier, and the others one by one. -/
def regionTiles (r : Region) : List Nat :=
  (touched (liveViews r)).foldl (fun acc g => (liveViews r).foldl (fun a v => insNat a (tileOf r v g)) acc) []

/-- Tiles of the first backing still in use: all granules but those every live view maps away. -/
def baseLive (r : Region) (g : Nat) : Bool := (liveViews r).any fun v => tileOf r v g = r.ext * 2 ^ 24 + g

/-- Code of a place in the graves list: 0 tier 0, 1 + m tier 1, 9 + m tier 2, 17 + p + 16 i slot i of pool p. -/
def placeCode : Place → Nat
  | .t0 => 0
  | .t1 m => 1 + m
  | .t2 m => 9 + m
  | .t3 p i => 17 + p + 16 * i

/-- Add to a counter of a sparse count table; 0 is not listed. -/
def addCount (t : List (Nat × Nat)) (k n : Nat) : List (Nat × Nat) :=
  let v := (find t k).getD 0 + n
  if v = 0 then del t k else put t k v

/-- Take from a counter of a sparse count table. -/
def subCount (t : List (Nat × Nat)) (k n : Nat) : List (Nat × Nat) :=
  let v := (find t k).getD 0 - n
  if v = 0 then del t k else put t k v

/-- Tiles of one run, by place code. -/
def runCounts (x : Run) (acc : List (Nat × Nat)) : List (Nat × Nat) :=
  match x.mods with
  | [] => addCount acc 0 x.count
  | ms => (List.range ms.length).foldl (fun a i =>
      let m := ms.getD i 0
      addCount a (placeCode (if x.tier = 1 then .t1 m else .t2 m)) (x.count / ms.length + if i < x.count % ms.length then 1 else 0)) acc

/-- Every tile of a region by place code: its runs, less the first-backing tiles that moved or died, plus the others. -/
def regionCounts (s : State) (r : Region) : List (Nat × Nat) :=
  let c := r.runs.foldl (fun a x => runCounts x a) []
  let c := (touched (liveViews r)).foldl (fun a g => if baseLive r g then a else subCount a (placeCode (placeOf s r (r.ext * 2 ^ 24 + g))) 1) c
  let moved := s.pool.places.filter fun e => e.1 / 2 ^ 24 = r.ext && baseLive r (e.1 % 2 ^ 24)
  let c := moved.foldl (fun a e => addCount (subCount a (placeCode (runPlace (e.1 % 2 ^ 24) r.runs)) 1) (placeCode e.2) 1) c
  let own := (regionTiles r).filter fun t => t / 2 ^ 24 != r.ext
  own.foldl (fun a t => addCount a (placeCode (placeOf s r t)) 1) c

/-- Stacks that hash parameters reach (Table 3.7). -/
def stacksOf (span sel : Nat) : List Nat :=
  if span = 0 then [0, 1, 2, 3]
  else if span = 1 then [2 * bits sel 1 1, 2 * bits sel 1 1 + 1]
  else [sel]

/-- Tier-0 tiles that a region has or is to have: those it uses, what is left of its writer's reserve, the targets of its copies and promotions. -/
def tier0Of (s : State) (k : Nat) (r : Region) : Nat :=
  (find (regionCounts s r) 0).getD 0 + ((r.writer.map (·.left)).getD 0) + (s.pool.copies.filter fun c => c.1 = k).length
    + s.pool.hints.foldl (fun a h => if h.2.region = k then a + (h.2.moves.filter fun m => m.target = .t0).length else a) 0

/-- Quarter tiles of stack `j` that a tile takes under hash parameters (Table 3.7): its granules are spread evenly over the stacks it reaches. -/
def quarters (span sel j : Nat) : Nat := let ks := stacksOf span sel; if ks.contains j then 4 / ks.length else 0

/-- Tiles that stack `j` offers to regions: 64 GiB, less the gaffer's reserved area in stack 0 (Table 6.10). -/
def stackTiles (j : Nat) : Nat := 1048576 - (if j = 0 then 16384 else 0)

/-- Do the stacks that hash parameters reach, 64 GiB each, have room for `n` more tiles (R67, R86)? The gaffer's reserved area lies in stack 0. -/
def stackRoom (s : State) (span sel n : Nat) : Bool :=
  (stacksOf span sel).all fun j =>
    s.pool.regions.foldl (fun a e => a + quarters e.2.span e.2.stackSel j * tier0Of s e.1 e.2) (quarters span sel j * n)
      ≤ 4 * stackTiles j

/-- Header-chunk tiles of a compressed region of `n` tiles: one chunk of 1,024, 512 or 256 bytes per tile, in whole tiles of tier 0 (R152). -/
def headerTiles (g : GsbSet) (n : Nat) : Nat :=
  let chunk := if g.size = 0 then 1024 else if g.size = 1 then 512 else 256
  (n * chunk + tileBytes - 1) / tileBytes

/-- Tiles of a region, its running copies included: a compressed one has a header chunk for each (R152, R159). -/
def tilesOf (s : State) (k : Nat) (r : Region) : Nat :=
  (regionCounts s r).foldl (fun a e => a + e.2) (s.pool.copies.filter fun c => c.1 = k).length

/-- A copy into tier 0 takes a new header chunk from free tier 0 (R159); `none` where none is free. -/
def takeHead (k : Nat) (s : State) : Option State :=
  match (region s k).bind fun r => r.gsb.map fun g => (r, g) with
  | none => some s
  | some (r, g) =>
    let n := headerTiles g (tilesOf s k r + 1)
    if n ≤ r.heads then some s else (takeFree0 (n - r.heads) s).map (updRegion k fun r => { r with heads := n })

/-- Header chunks that a region no longer needs return to free tier 0. -/
def trimHeads (k : Nat) (s : State) : State :=
  match (region s k).bind fun r => r.gsb.map fun g => (r, g) with
  | none => s
  | some (r, g) =>
    let n := headerTiles g (tilesOf s k r)
    if n < r.heads then giveFree0 (r.heads - n) (updRegion k (fun r => { r with heads := n }) s) else s

/-- A tier-0 tile for a copy of region `k`: from the writer's reserve, uncleared granules first, then from free tier 0 (R97) where the region's stacks have room; and a header chunk where it is compressed (R159). -/
def takeCopyTile (k : Nat) (s : State) : Option State :=
  (takeHead k s).bind fun s =>
  match region s k with
  | none => takeFree0 1 s
  | some r =>
    match r.writer with
    | some w =>
      if 0 < w.left then some (updWriter k (fun w => { w with left := w.left - 1, soiled := w.soiled - 1 }) s)
      else if stackRoom s r.span r.stackSel 1 then takeFree0 1 s else none
    | none => if stackRoom s r.span r.stackSel 1 then takeFree0 1 s else none

/-- Free the tiles only a dying view held; answers how many. The region already lacks that view. -/
def dropView (k : Nat) (dead : View) (s : State) : Nat × State :=
  match region s k with
  | none => (0, s)
  | some r =>
    let ts := orphans r dead (liveViews r)
    (ts.length, trimHeads k (ts.foldl (fun s t => freeTile k r t s) s))

/-- Is a committed reel held by a reader handle (R88)? -/
def reelHeld (s : State) (k n : Nat) : Bool :=
  s.pool.handles.any fun h => !h.2.writer && h.2.region = k && h.2.reel = n

/-- A weight-list entry becomes CLOSED when its reel ceases to exist (Table 14.9). -/
def closeWeights (k n : Nat) (s : State) : State :=
  { s with kpr := { s.kpr with tents := s.kpr.tents.map fun e =>
      (e.1, { e.2 with weights := e.2.weights.map fun w => if w.region = k && w.reel = n && w.state = 0 then { w with state := 1 } else w }) } }

/-- Reels neither current nor held cease to exist (R88); answers the tiles freed. -/
def pruneReels (k : Nat) (s : State) : Nat × State :=
  match region s k with
  | none => (0, s)
  | some r =>
    let dead := r.reels.filter fun x => x.num != r.current && !reelHeld s k x.num
    dead.foldl (fun acc x =>
      let s1 := updRegion k (fun r => { r with reels := r.reels.filter fun y => y.num != x.num }) acc.2
      let (n, s2) := dropView k x.view s1
      (acc.1 + n, closeWeights k x.num s2)) (0, s)

/-- A fresh extent number. -/
def freshExt (s : State) : Nat × State :=
  (s.pool.nextExt, { s with pool := { s.pool with nextExt := s.pool.nextExt + 1 } })

/-- Set the head's tile of a granule. -/
def setHeadTile (k g tile : Nat) (s : State) : State :=
  updRegion k (fun r => { r with writer := r.writer.map fun w => { w with head := put w.head g tile } }) s

/-- Is the head's tile of a granule shared with another live reel (R96)? -/
def headShared (r : Region) (g : Nat) : Bool :=
  let t := tileOf r (headView r) g
  r.reels.any fun x => tileOf r x.view g = t

end Sys2Proof.Machine
end

