-- ==== Sys2Proof/Machine/Gate.lean ====
section
/-! DEFINITION. Fabric ports and routes as the map has them (R61, R65, R69), and the range gate (R320, R322) and what decides an access: source identity, tent of the target, permissions, sealed sources. -/

namespace Sys2Proof.Machine

/-! ### Ports and routes -/

/-- A fabric port. -/
def port (s : State) (p : Nat) : FPort := (find s.fab.ports p).getD {}

/-- Change a fabric port. -/
def updPort (p : Nat) (f : FPort → FPort) (s : State) : State :=
  { s with fab := { s.fab with ports := put s.fab.ports p (f (port s p)) } }

/-- The mode on a port's wire: the mode that PORT.SET_ROLE gave it, or, before one, the mode it first trained in (R361, R377). -/
def wireMode (x : FPort) : Nat := if x.roleSet then x.mode else x.trainMode

/-- A fabric port starts to retrain: RETRAINS counts it (Table 16.19), and its RETRAIN_LIMIT_MS begins (R367). -/
def noteRetrain (p : Nat) (s : State) : State :=
  startLimit (retrainLimit false p) (fld s .prtLinkCtl p 8 8 * 1000000) (bump .prtLinkStatus p 16 16 1 s)

/-- Edge roles: accelerator and host (Table 16.1). -/
def edgeRole (r : Nat) : Bool := r = 1 || r = 2

/-- The link of a port is up: in L0, or in a retrain that has not failed (Table 3.13, R367). A port that failed into a retrain has lost its link until the next L0. -/
def FPort.linkUp (x : FPort) : Bool := x.link = .l0 || (x.link = .retrain && x.up)

/-- A port is usable while its link is up and its role admits the traffic (R69, R330, R363). -/
def usable (s : State) (p : Nat) : Bool :=
  let x := port s p
  x.linkUp && x.enable && !x.blocked && x.role != 0 && pdOn s (pdFabric p) && (!x.ide || x.ideUp)

/-- Usable ports of a path group, ascending (R69). -/
def usablePorts (s : State) (ports : Nat) : List Nat := (setBits 20 ports).filter (usable s)

/-- ATTACH node of a port (R61). -/
def attachOf (s : State) (p : Nat) : Option Nat := find s.fab.attach p

/-- The edge-role port whose ATTACH node a node is (R322). -/
def edgePortOf (s : State) (node : Nat) : Option Nat :=
  (s.fab.attach.find? fun e => e.2 = node && edgeRole (port s e.1).role).map Prod.fst

/-- The NODE entry that covers a node (R65). -/
def nodeRoute (s : State) (node : Nat) : Option NodeEntry :=
  (s.fab.nodes.find? fun e => e.2.lo ≤ node && node ≤ e.2.hi).map Prod.snd

/-! ### The gate -/

/-- What the range gate answers. -/
inductive GateRes where
  /-- Admitted, for flows of this tent (R294). -/
  | ok (tent : Nat)
  | noEntry
  | noPerm
  | unauth
deriving DecidableEq, Repr

/-- Base of the clapper pages, and the tent of an offset in them (R58). -/
def clapBase : Nat := 0xA00000000000
/-- Base of the doorbell pages (R308). -/
def doorBase : Nat := 0xA00100000000

/-- Offset lies in the pooled aperture, the clapper pages, the doorbell pages (Table 3.2). -/
def inPool (o : Nat) : Bool := o < 0x800000000000
/-- See `inPool`. -/
def inColl (o : Nat) : Bool := 0x800000000000 ≤ o && o < 0x900000000000
/-- See `inPool`. -/
def inEmb (o : Nat) : Bool := 0x900000000000 ≤ o && o < 0xA00000000000
/-- See `inPool`. -/
def inClap (o : Nat) : Bool := clapBase ≤ o && o < clapBase + 0x8000000
/-- See `inPool`. -/
def inDoor (o : Nat) : Bool := doorBase ≤ o && o < doorBase + 0x100000000

/-- A tent that exists, whatever its state. -/
def tent (s : State) (t : Nat) : Option Tent := find s.kpr.tents t

/-- A tent that is ACTIVE. -/
def tentActive (s : State) (t : Nat) : Bool := ((tent s t).map (·.state)) = some .active

/-- A sealed tent. -/
def tentSealed (s : State) (t : Nat) : Bool := ((tent s t).map (·.isSealed)) = some true

/-- A source is admitted to a tent by its authentication, where the tent is sealed (R325). -/
def authOk (s : State) (t source : Nat) : Bool :=
  match tent s t with
  | some x => !x.isSealed || x.sources.any fun y => y.node = source && y.auth = .authenticated
  | none => true

/-- Decide a found entry (R319, R320, R325): fenced tent, work tent, permission bits, authentication. -/
def judge (s : State) (e : RngEntry) (source : Nat) (write eng : Bool) (work : Nat) (readEntry : Bool) : GateRes :=
  if !tentActive s e.tent then .noPerm
  else if eng && e.tent != work then .noPerm
  else if eng && !e.eng then .noPerm
  else if (if write then !e.wr else !e.rd && !readEntry) then .noPerm
  else if !authOk s e.tent source then .unauth
  else .ok e.tent

/-- The gate for an access in the self node, whose target belongs to `owner` (R320). `held` is the tent of the source's reel read entry: it grants RD, with a range-gate entry or without one (R89, R91), but not the ENG of a range-gate entry, which every engine access needs. -/
def gateSelf (s : State) (owner held : Option Nat) (source off len : Nat) (write eng : Bool) (work : Nat) : GateRes :=
  let es := s.fab.gate.filter fun e => !e.2.edge && e.2.source = source && covers e.2.base e.2.size off len
  match es.find? fun e => some e.2.tent = owner with
  | some (_, e) => judge s e source write eng work held.isSome
  | none =>
    match owner, held with
    | some t, some h =>
      if write || eng then .noEntry
      else if authOk s h source then .ok t else .unauth
    | _, _ => .noEntry

/-- The gate for an access to an attached device (R322). -/
def gateEdge (s : State) (node source off len : Nat) (write eng : Bool) (work : Nat) : GateRes :=
  match s.fab.gate.find? fun e => e.2.edge && e.2.source = source && e.2.target = node && covers e.2.base e.2.size off len with
  | some (_, e) => judge s e source write eng work false
  | none => .noEntry

/-- Count a refusal of the gate (Table 14.20). -/
def countGate (g : GateRes) (s : State) : State :=
  match g with
  | .ok _ => s
  | .noEntry => bump .rngGateStats 0 48 16 1 s
  | .noPerm => bump .rngGateStats 0 32 16 1 s
  | .unauth => bump .rngGateStats 0 16 16 1 s

/-- Gate for a pooled-memory access: the region's owner decides, and a reel read entry admits reads (R89, R320). -/
def gatePool (s : State) (source off len : Nat) (write eng : Bool) (work : Nat) : GateRes :=
  match regionAt s off with
  | some (k, r) => gateSelf s (some r.owner) (readTent s k source) source off len write eng work
  | none => gateSelf s none none source off len write eng work

/-- Channel of a granule of 256 bytes (R67). -/
def channelHash (off seed : Nat) : Nat :=
  bits off 8 7 ^^^ bits off 15 7 ^^^ bits off 22 7 ^^^ bits off 29 7 ^^^ bits off 36 7 ^^^ bits off 43 5 ^^^ seed

/-- Stack of a channel value under hash parameters (Table 3.7). -/
def stackOfC (c span sel : Nat) : Nat :=
  if span = 0 then bits c 5 2
  else if span = 1 then 2 * bits sel 1 1 + bits c 5 1
  else sel

/-- Stack that holds the granule of an offset of a region. -/
def stackOf (r : Region) (off : Nat) : Nat := stackOfC (channelHash off r.seed) r.span r.stackSel

end Sys2Proof.Machine
end

