-- ==== Sys2Proof/Machine/Shape.lean ====
section
/-! DEFINITION. Requests in flight; shapers (R298, R300) and the bytes that each shaped point has served (R305): for requests, which wait where their buckets lack tokens, and for the accesses of engines and the moves of tiles, which wait within their step. -/

namespace Sys2Proof.Machine

/-- Queue class of placement moves, conversions and copies (Table 13.1; for snapshot copies log entry 47). -/
def clsMigration : Nat := 6

/-- Queue class of engine accesses (Table 13.1). -/
def clsEngine : Nat := 7

/-! ### Requests in flight -/

/-- Change one request in flight. -/
def updTxn (id : Nat) (f : Txn → Txn) (s : State) : State :=
  { s with fab := { s.fab with txns := s.fab.txns.map fun x => if x.id = id then f x else x } }

/-- A request in flight. -/
def txn (s : State) (id : Nat) : Option Txn := s.fab.txns.find? (·.id = id)

/-- A request that no range gate has stamped (R47). -/
def unstamped : Nat := 2 ^ 32

/-- Add a request in flight; its number is set here. -/
def addTxn (x : Txn) (s : State) : State :=
  { s with fab := { s.fab with txns := s.fab.txns ++ [{ x with id := s.fab.nextTxn }], nextTxn := s.fab.nextTxn + 1 } }

/-- An engine access (R13) is issued: stamped at once (R47), in class 7, or 6 for the moves of tiles (Table 13.1). -/
def issue (o : Origin) (source t ty addr len : Nat) (data : List Byte) (mask : Nat) (s : State) (contrib : Bool := false) (cls : Nat := clsEngine) : State :=
  addTxn { id := 0, epoch := s.gaf.epoch.toNat, origin := o, source := source, tent := t, cls := cls, eng := true, ty := ty, addr := addr
           len := len, data := data, mask := mask, pline := false, contrib := contrib, hint := none, stage := .ready } s

/-! ### Bytes served -/

/-- Bytes served at a resource for a tent, saturating (Table 13.24). -/
def countServed (code t n : Nat) (s : State) : State :=
  if n = 0 then s else
  let k := code * 256 + t
  { s with qm := { s.qm with served := put s.qm.served k (satAdd 64 ((find s.qm.served k).getD 0) n) } }

/-! ### Shapers -/

/-- The shaper of a flow at a resource: of its class, or tent-wide (R301 admits one). -/
def shaperOf (s : State) (kind ix t cls : Nat) : Option (Nat × Shaper) :=
  s.qm.shapers.find? fun e => e.2.tent = t && e.2.kind = kind && e.2.index = ix && (e.2.wide || e.2.cls = cls)

/-- Buckets at a model time: tokens gained at CIR and PIR MB/s, in thousandths of a byte, up to the sizes (R298). -/
def Shaper.fill (now : Nat) (x : Shaper) : Shaper :=
  { x with committed := min (x.cbs * 1000) (x.committed + x.cir * (now - x.stamp))
           peak := min (x.pbs * 1000) (x.peak + x.pir * (now - x.stamp))
           stamp := max now x.stamp }

/-- Change a shaper entry. -/
def updShaper (k : Nat) (f : Shaper → Shaper) (s : State) : State :=
  { s with qm := { s.qm with shapers := upd s.qm.shapers k f } }

/-- Time passes for the shapers of a resource, if it has any. -/
def refill (kind ix : Nat) (s : State) : State :=
  if !s.qm.shapers.any fun e => e.2.kind = kind && e.2.index = ix then s else
  let (now, s) := clock s
  { s with qm := { s.qm with shapers := s.qm.shapers.map fun e =>
      (e.1, if e.2.kind = kind && e.2.index = ix then e.2.fill now else e.2) } }

/-- How a unit of `len` bytes stands: 0 committed-eligible, 1 excess-eligible, 2 waits (R298, R300). -/
def elig (s : State) (kind ix t cls len : Nat) : Nat :=
  match shaperOf s kind ix t cls with
  | none => 1
  | some (_, x) =>
    if x.reserved then (if 0 < x.slotLeft && len ≤ x.slotLeft then 0 else 2)
    else if len * 1000 ≤ x.committed then 0
    else if len * 1000 ≤ x.peak then 1
    else 2

/-- Serving a unit takes its tokens (R298). -/
def charge (kind ix t cls len : Nat) (s : State) : State :=
  match shaperOf s kind ix t cls with
  | none => s
  | some (k, _) =>
    let n := len * 1000
    updShaper k (fun x =>
      if x.reserved then { x with slotLeft := x.slotLeft - len }
      else if n ≤ x.committed then { x with committed := x.committed - n, peak := x.peak - n }
      else { x with peak := x.peak - n }) s

/-! ### Engines and moves -/

/-- Model time at which a reserved shaper's next slot falls due: one in every CBS / CIR from its boundary on (R300). -/
def Shaper.due (x : Shaper) : Nat := x.start.getD 0 + x.slots * x.cbs * 1000 / max x.cir 1

/-- An engine's unit passes a shaped point (R298). Where the buckets lack its tokens it waits until they hold them: the clock moves on within the step; under a reserved shaper it waits for the next slot (R300), which it has for itself (log entry 47). -/
def engUnit (kind ix t cls len : Nat) (s : State) : State :=
  let s := refill kind ix s
  match shaperOf s kind ix t cls with
  | none => s
  | some (k, x) =>
    if x.reserved then clockTo x.due (updShaper k (fun x => { x with slots := x.slots + 1 }) s) else
    let lack := len * 1000 - x.peak
    let s := if lack = 0 then s else
      let now := x.stamp + (lack + x.pir - 1) / max x.pir 1
      clockTo now (updShaper k (Shaper.fill now) s)
    charge kind ix t cls len s

/-- The units of at most 4,096 bytes of an engine's access pass a shaped point (Table 13.2). -/
def engUnits (kind ix t cls : Nat) : Nat → Nat → State → State
  | 0, _, s => s
  | fuel + 1, len, s =>
    if len = 0 then s else engUnits kind ix t cls fuel (len - min len 4096) (engUnit kind ix t cls (min len 4096) s)

/-- Bytes of `[off, off + len)` counted as served by the stacks that hold its 256-byte granules (R67, R305). -/
def servedTier0 (r : Region) (t : Nat) : Nat → Nat → Nat → State → State
  | 0, _, _, s => s
  | fuel + 1, off, len, s =>
    if len = 0 then s else
    let n := min len (256 - off % 256)
    servedTier0 r t fuel (off + n) (len - n) (countServed (0x100 + stackOf r off) t n s)

/-- Bytes that an engine reads or writes at a place, or that a move or copy does, pass its shaped point in the flow of tent and class, and are counted there (R294, R298, R305). -/
def engPass (r : Region) (p : Place) (t cls off len : Nat) (s : State) : State :=
  match p with
  | .t0 => servedTier0 r t (len / 256 + 2) off len (engUnits 1 0 t cls (len / 4096 + 1) len s)
  | .t1 m | .t2 m => countServed (0x200 + m) t len (engUnits 2 m t cls (len / 4096 + 1) len s)
  | .t3 _ _ => s

end Sys2Proof.Machine
end

