-- ==== Sys2Proof/Machine/Stored.lean ====
section
/-! DEFINITION. The stored form of tiles: the GSB blocks of a compressed tile (R152, R154, R155, R158), and the tiles that lie in a host's tier-3 pool (R125). State holds a tile as its decoded bytes and poison marks; the canonical encoding (R151) makes the stored payloads and headers a function of them. -/

namespace Sys2Proof.Machine

/-! ### Blocks of a compressed tile -/

/-- A region whose tiles are compressed, or still may be while a conversion runs (R153, R154). -/
def Region.coded (r : Region) : Bool := r.gsb.isSome || r.conv.isSome

/-- The setting in whose form a tile lies at this moment: a conversion rewrites tile after tile (R154). -/
def tileSetting (r : Region) (tile : Nat) : Option GsbSet :=
  match r.conv with
  | some (old, done, _) => if done.contains (tile % 2 ^ 24) then r.gsb else old
  | none => r.gsb

/-- The stored block `b` of a tile: its header, as the header chunk has it, and then its payload, as it lies at offset b S of the slot (R143, R152). -/
def storedBlock (s : State) (z : GsbSet) (tile b : Nat) : List Byte :=
  let n := gsbBytes z.size
  let marks := (List.range (n / 64)).foldl (fun m i => if isPoison s tile (b * n / 64 + i) then m ||| 2 ^ i else m) 0
  gsbEncode z.elem (tileRead s tile (b * n) n) marks

/-- The header chunk of a compressed tile (R152). -/
def headerChunk (s : State) (z : GsbSet) (tile : Nat) : List Byte :=
  ((List.range (tileBytes / gsbBytes z.size)).map fun b => (storedBlock s z tile b).take 32).flatten

/-- Payload of a stored block, in whole 64-byte lines of its slot; the slot bytes after it are unused (R152, R155). -/
def payloadLines (blk : List Byte) : List Byte :=
  let p := blk.drop 32
  p ++ List.replicate ((64 - p.length % 64) % 64) 0

/-- The bytes that lie in the slot of a tile, block after block: the payload lines of each, or the tile's own bytes (R152). -/
def slotBytes (s : State) (r : Region) (tile : Nat) : List (Nat × List Byte) :=
  match tileSetting r tile with
  | none => [(0, tileRead s tile 0 tileBytes)]
  | some z => (List.range (tileBytes / gsbBytes z.size)).map fun b => (b * gsbBytes z.size, payloadLines (storedBlock s z tile b))

/-- Stored bytes of a tile, which a copy or a move carries (R159). -/
def slotLength (s : State) (r : Region) (tile : Nat) : Nat := (slotBytes s r tile).foldl (fun a x => a + x.2.length) 0

/-- Blocks of a setting that `[lo, lo + len)` of a tile touches. -/
def blocksOf (z : GsbSet) (lo len : Nat) : List Nat :=
  let n := gsbBytes z.size
  if len = 0 then [] else (List.range ((lo + len + n - 1) / n - lo / n)).map fun i => lo / n + i

/-- A block stays in one of the 256 block buffers (R155). DESIGN CHOICE (log entry 52): the spec does not say which block leaves; where all are in use it is the one that came first. -/
def bufferBlock (tile b : Nat) (s : State) : State :=
  if s.pool.blockBufs.contains (tile, b) then s else
  let l := s.pool.blockBufs ++ [(tile, b)]
  { s with pool := { s.pool with blockBufs := l.drop (l.length - 256) } }

/-- The blocks of a tile that an access touches are decoded, but for those that a buffer holds (R155, Tables 7.9 and 7.10). -/
def decodeBlocks (r : Region) (tile lo len : Nat) (s : State) : State :=
  match tileSetting r tile with
  | none => s
  | some z => (blocksOf z lo len).foldl (fun s b =>
      if s.pool.blockBufs.contains (tile, b) then s
      else bufferBlock tile b (countCodec (gsbBytes z.size) (storedBlock s z tile b).length s)) s

/-- The blocks of a tile that a write touched are encoded again: their new payloads and headers are what `storedBlock` gives now (R156). -/
def encodeBlocks (r : Region) (tile lo len : Nat) (s : State) : State :=
  match tileSetting r tile with
  | none => s
  | some z => (blocksOf z lo len).foldl (fun s b => bufferBlock tile b (countCodec (gsbBytes z.size) (storedBlock s z tile b).length s)) s

/-- No buffer holds a block of these any more. -/
def dropBuffers (p : Nat × Nat → Bool) (s : State) : State :=
  { s with pool := { s.pool with blockBufs := s.pool.blockBufs.filter fun x => !p x } }

/-- The block buffers hold nothing of a region any more: it is cleared, or its tent is fenced (R328). -/
def dropRegionBuffers (r : Region) (s : State) : State :=
  dropBuffers (fun x => x.1 / 2 ^ 24 = r.ext || (regionTiles r).contains x.1) s

/-- Where a read of `[lo, lo + len)` of a tile fetches stored bytes, as one range of its slot: from the first block's payload to the end of the last one's, or the lines themselves (R152, R155). -/
def fetchSpan (s : State) (r : Region) (tile lo len : Nat) : Nat × Nat :=
  match tileSetting r tile with
  | none => (lo / 64 * 64, (lo + len + 63) / 64 * 64 - lo / 64 * 64)
  | some z =>
    let n := gsbBytes z.size
    let b := (lo + len - 1) / n
    (lo / n * n, b * n + (payloadLines (storedBlock s z tile b)).length - lo / n * n)

/-- Stored bytes that a read of `[lo, lo + len)` of a tile fetches: the payload lines and headers of its blocks, or the lines themselves (R155). -/
def fetchLength (s : State) (r : Region) (tile lo len : Nat) : Nat :=
  match tileSetting r tile with
  | none => (lo + len + 63) / 64 * 64 - lo / 64 * 64
  | some z => (blocksOf z lo len).foldl (fun a b => a + (payloadLines (storedBlock s z tile b)).length) 0

/-- A block found damaged in memory is rewritten as the canonical all-poisoned block, logged with its pooled-memory offset and counted by the check that failed (R158, Table 7.8): the CRC, or the header. -/
def damageBlock (r : Region) (z : GsbSet) (tile b : Nat) (crc : Bool) (s : State) : State :=
  let n := gsbBytes z.size
  let s := ras 0x0A 2 none (selfNode s) 0 (r.base + tile % 2 ^ 24 * tileBytes + b * n) (bump .cmpErrors 0 (if crc then 32 else 48) 16 1 s)
  let s := dropBuffers (· = (tile, b)) (tileWrite tile (b * n) (List.replicate n 0) s)
  bump .cmpErrors 0 0 16 1 ((List.range (n / 64)).foldl (fun s i => setPoison tile (b * n / 64 + i) true s) s)

/-! ### Lines that must be fetched -/

/-- A line that an engine's load waits for, if it has come; else it is asked for, and what the load goes on with is free (log entry 48). -/
def awaitLine (x : Need) (s : State) : Option (List Byte × Bool) × State :=
  match find s.coh.got x.key with
  | some d => (d, { s with coh := { s.coh with got := del s.coh.got x.key } })
  | none =>
    let (bs, s) := drawBytes 64 s
    (some (bs, false), { s with coh := { s.coh with need := s.coh.need ++ [x] } })

/-- Only the lines that `t` asks for are asked for in `s`. -/
def asked (s t : State) : State := { s with coh := { s.coh with need := t.coh.need } }

/-- Work that leads from `s` to `t`, where its engine loads need not wait for lines of agents or hosts; else it has not happened yet: the lines are asked for, and the machine is in `s0` (log entry 48). -/
def held (s0 s t : State) : State := if s.coh.need.length < t.coh.need.length then asked s0 t else t

/-- See `held`, for work that begins in `s`. -/
def ready (f : State → State) (s : State) : State := held s s (f s)

/-- Native address of the slot of a tile in a tier-3 pool (R125). -/
def hostAddr (s : State) (pl i : Nat) : Nat :=
  let lo := mapVal s .hbcT3PoolLo pl
  place (bits lo 36 14) 48 14 ||| ((bits lo 0 32 + i) * tileBytes) % 2 ^ 48

/-- The host port of a tier-3 pool is usable (Table 6.6). -/
def hostUp (s : State) (pl : Nat) : Bool := (edgePortOf s (bits (mapVal s .hbcT3PoolLo pl) 36 14)).any (usable s)

/-- A slot line of a tile in a host's pool. -/
def hostLine (t cls tile pl i line : Nat) (s : State) : Option (List Byte × Bool) × State :=
  awaitLine ⟨lineKey tile line, 0, some (hostAddr s pl i + 64 * line), t, cls⟩ s

/-- Lines `i` on of a block's payload, from the host; none where the host fails one. -/
def hostLines (t cls tile pl slot : Nat) : Nat → Nat → State → Option (List Byte × Bool) × State
  | 0, _, s => (some ([], false), s)
  | n + 1, line, s =>
    match hostLine t cls tile pl slot line s with
    | (none, s) => (none, s)
    | (some (bs, p), s) =>
      match hostLines t cls tile pl slot n (line + 1) s with
      | (none, s) => (none, s)
      | (some (cs, q), s) => (some (bs ++ cs, p || q), s)

/-- What a host returned for a block's payload, under the header that tier 0 keeps, takes the block's place in the tile: damaged, it yields no data (R150, R155, R158). -/
def hostBlock (r : Region) (z : GsbSet) (tile b : Nat) (bs : List Byte) (poison : Bool) (s : State) : State :=
  let n := gsbBytes z.size
  if poison then damageBlock r z tile b true s else
  match gsbDecode n ((storedBlock s z tile b).take 32 ++ bs) with
  | .ok (d, m) => (List.range (n / 64)).foldl (fun s i => setPoison tile (b * n / 64 + i) (m.testBit i) s) (tileWrite tile (b * n) d s)
  | .error crc => damageBlock r z tile b crc s

/-- Bring `[lo, lo + len)` of a tile from its host, as whole lines or as whole blocks; false where the host failed part of it, which is then poisoned. -/
def pull (t cls : Nat) (r : Region) (tile pl slot lo len : Nat) (s : State) : Bool × State :=
  let fail (line n : Nat) (s : State) : State := (List.range n).foldl (fun s i => setPoison tile (line + i) true s) s
  match tileSetting r tile with
  | none =>
    (List.range ((lo + len + 63) / 64 - lo / 64)).foldl (fun acc j =>
      let line := lo / 64 + j
      match hostLine t cls tile pl slot line acc.2 with
      | (some (bs, p), s) => (acc.1, setPoison tile line p (tileWrite tile (64 * line) bs s))
      | (none, s) => (false, fail line 1 s)) (true, s)
  | some z =>
    (blocksOf z lo len).foldl (fun acc b =>
      let n := gsbBytes z.size
      match hostLines t cls tile pl slot ((payloadLines (storedBlock acc.2 z tile b)).length / 64) (b * n / 64) acc.2 with
      | (some (bs, p), s) => (acc.1, hostBlock r z tile b bs p s)
      | (none, s) => (false, fail (b * n / 64) (n / 64) s)) (true, s)

/-- Reads of at most 4,096 bytes of `len` at an address of a host's pool, for a tile that moves. -/
def askParts (t addr : Nat) : Nat → Nat → State → State
  | 0, _, s => s
  | n + 1, len, s =>
    if len = 0 then s else
    askParts t (addr + 4096) n (len - 4096) (issue .none (selfNode s) t 1 addr (min len 4096) [] 0 s false clsMigration)

/-- The switch reads a tile that moves out of a host's pool with ordinary requests (R125). DESIGN CHOICE (log entry 48): the tile that moves holds what the switch last wrote there or read from there, whatever the host answers these. -/
def pullTile (t : Nat) (r : Region) (tile : Nat) (s : State) : State :=
  match placeOf s r tile with
  | .t3 pl i => (slotBytes s r tile).foldl (fun s x => askParts t (hostAddr s pl i + x.1) 17 x.2.length s) s
  | _ => s

/-- Writes of at most 4,096 bytes of `bs` at an address of a host's pool, with the poison of their lines. -/
def issueParts (t addr : Nat) : Nat → List Byte → Nat → State → State
  | 0, _, _, s => s
  | n + 1, bs, m, s =>
    if bs.isEmpty then s else
    issueParts t (addr + 4096) n (bs.drop 4096) (m >>> 64)
      (issue .none (selfNode s) t 2 addr (min bs.length 4096) (bs.take 4096) (m % 2 ^ 64) s false clsMigration)

/-- The switch writes a tile into a host's pool with ordinary requests (R125): the stored bytes, and for a tile that is not compressed its poison marks. -/
def writeHost (t pl slot : Nat) (r : Region) (tile : Nat) (s : State) : State :=
  let m := if (tileSetting r tile).isSome then 0 else (List.range 1024).foldl (fun a j => if isPoison s tile j then a ||| 2 ^ j else a) 0
  (slotBytes s r tile).foldl (fun s x => issueParts t (hostAddr s pl slot + x.1) 17 x.2 m s) s

/-- A move or a copy of a tile passes the shaped point of a place, in the migration class of a tent (R132, R298). -/
def movePass (r : Region) (p : Place) (t tile : Nat) (s : State) : State :=
  engPass r p t clsMigration (r.base + tile % 2 ^ 24 * tileBytes) (slotLength s r tile) s

end Sys2Proof.Machine
end

