-- ==== Sys2Proof/Machine/Access.lean ====
section
/-! DEFINITION. Reading and writing pooled memory: Table 4.3, poison (Table 3.14), copy-on-write and promotion (R96, R126), what a write does to moves and to guy lines, the tile moves themselves (R130), and the engine accesses of R13. -/

namespace Sys2Proof.Machine

/-- A byte with enable, for one line. -/
abbrev LineBytes := List Byte

/-- Bytes of `new` where the mask enables them, else of `old`. -/
def mergeBytes (mask : Nat) : Nat → List Byte → List Byte → List Byte
  | i, o :: os, n :: ns => (if mask.testBit i then n else o) :: mergeBytes mask (i + 1) os ns
  | _, os, _ => os

/-- Write enabled bytes of a line into a tile, with the poison rules of Table 3.14. -/
def lineWrite (tile line : Nat) (bs : List Byte) (mask : Nat) (poisoned : Bool) (s : State) : State :=
  let s := tileWrite tile (line * 64) (mergeBytes mask 0 (tileRead s tile (line * 64) 64) bs) s
  if poisoned then setPoison tile line true s
  else if mask = 2 ^ 64 - 1 then setPoison tile line false s
  else s

/-- A line of a guy-line primary is written: in SOLO its granule is marked (R343), in SYNCING and IN_SYNC the line is to be mirrored (R342). -/
def markLine (k off g : Nat) (s : State) : State :=
  { s with kpr := { s.kpr with guys := upd s.kpr.guys k fun y =>
      if y.secondary then y
      else if y.state = .solo then { y with dirty := insNat y.dirty g }
      else if y.state = .syncing || y.state = .inSync then { y with todo := y.todo ++ [off] }
      else y } }

/-- Counter of abandoned moves: HBC_MIG_STATUS.DEMOTE_ABORT or MOVE_LOST. -/
def countAbort (lost : Bool) (n : Nat) (s : State) : State :=
  if lost then bump .hbcMigStatus 0 8 8 n s else bump .hbcMigStatus 0 0 8 n s

/-- Space set aside for a move's target returns to its tier, to be cleared, since the copy may have begun (R328). -/
def freeTarget (p : Place) (s : State) : State := freePlace p s

/-- A hint whose every tile is switched over or abandoned ends and advances its clapper (R134). -/
def endHint (h : Nat) (s : State) : State :=
  match find s.pool.hints h with
  | some x => if x.moves.isEmpty then clapOpt x.clapper 1 { s with pool := { s.pool with hints := del s.pool.hints h } } else s
  | none => s

/-! ### Writes that wait for a tile -/

/-- Is a granule's head tile on its way to tier 0, by a copy that a write started or by a hint's promotion (R96, R126, Table 6.6)? -/
def tileComing (s : State) (k g : Nat) : Bool :=
  s.pool.copies.contains (k, g) || (region s k).any fun r =>
    s.pool.hints.any fun h => h.2.moves.any fun m => m.tile = tileOf r (headView r) g && m.target = .t0

/-- Writes that waited for a tile that no longer comes try again (R98, R134, Table 6.6). -/
def wakeCopies (s : State) : State :=
  if s.fab.txns.any fun x => match x.stage with | .copy k g => !tileComing s k g | _ => false
  then wake (fun g => match g with | .copy k g => !tileComing s k g | _ => false) s else s

/-- Abandon the moves of a hint that a test picks (Table 6.6); a whole-tensor hint loses its whole group (R131). The writes that waited for one of them go on. -/
def abandon (h : Nat) (p : TileMove → Bool) (lost count : Bool) (s : State) : State :=
  match find s.pool.hints h with
  | none => s
  | some x =>
    if !x.moves.any p then s else
    let gone := if x.whole then x.moves else x.moves.filter p
    let kept := if x.whole then [] else x.moves.filter fun m => !p m
    let s := gone.foldl (fun s m => freeTarget m.target s) s
    let s := if count then countAbort lost gone.length s else s
    wakeCopies (endHint h { s with pool := { s.pool with hints := upd s.pool.hints h fun x => { x with moves := kept } } })

/-- Abandon over every hint of a region. -/
def abandonIn (k : Nat) (p : TileMove → Bool) (lost count : Bool) (s : State) : State :=
  (s.pool.hints.filter fun h => h.2.region = k).foldl (fun s h => abandon h.1 p lost count s) s

/-- A write to a tile of tier 0 that a hint demotes abandons the demotion (Table 6.6). -/
def writeAborts (k tile : Nat) (s : State) : State :=
  abandonIn k (fun m => m.tile = tile && m.target.tier != 0) false true s

/-- A tile that a hint is promoting. -/
def promoting (s : State) (tile : Nat) : Bool :=
  s.pool.hints.any fun h => h.2.moves.any fun m => m.tile = tile && m.target = .t0

/-! ### Moves and copies -/

/-- One tile switches over (R130): its map entry takes the target, and the source is freed. Where a write needs its own tier-0 tile of a shared one (`needed`), the original stays for the older reels and the head takes the copy (R126, Table 6.6). Its bytes pass the shaped points of both places in the migration class of the hint's tent (R132). -/
def switchTile (k t : Nat) (m : TileMove) (needed : Bool) (s : State) : State :=
  match region s k with
  | none => freeTarget m.target s
  | some r =>
    let g := m.tile % 2 ^ 24
    let p := placeOf s r m.tile
    let s := pullTile t r m.tile s
    let s := movePass r m.target t m.tile (movePass r p t m.tile s)
    if m.target = .t0 && needed && r.writer.isSome && headShared r g && tileOf r (headView r) g = m.tile && (takeHead k s).isSome then
      let (e, s) := freshExt ((takeHead k s).getD s)
      setHeadTile k g (e * 2 ^ 24 + g) (tileCopy m.tile (e * 2 ^ 24 + g) s)
    else
      let s := settleLost m.tile s
      let s := match m.target with | .t3 pl i => writeHost t pl i r m.tile s | _ => s
      let s := match m.target with | .t1 n | .t2 n => gateTags n (tagOf r.slot false) 1 s | _ => s
      freeSource k p { s with pool := { s.pool with places := put s.pool.places m.tile m.target } }

/-- The hint that promotes a tile, and the move. -/
def promotionOf (s : State) (tile : Nat) : Option (Nat × Hint × TileMove) :=
  s.pool.hints.findSome? fun h => (h.2.moves.find? fun m => m.tile = tile && m.target = .t0).map fun m => (h.1, h.2, m)

/-- An engine's write waits for a hint's promotion of its tile within its step (Table 6.6, log entry 48): the move, or its whole group (R131), switches over now. -/
def promoteNow (h : Nat) (x : Hint) (m : TileMove) (s : State) : State :=
  let ms := if x.whole then x.moves else [m]
  let s := ms.foldl (fun s y => switchTile x.region x.tent y (y.tile = m.tile) s) s
  endHint h { s with pool := { s.pool with hints := upd s.pool.hints h fun y => { y with moves := if x.whole then [] else y.moves.filter (· != m) } } }

/-- The tile of a copy: the one that a running copy of the granule took at its start, or a new one (R96 to R98). -/
def tileForCopy (k g : Nat) (s : State) : Option State :=
  if s.pool.copies.contains (k, g) then some { s with pool := { s.pool with copies := s.pool.copies.filter (· != (k, g)) } }
  else takeCopyTile k s

/-- The head's tile of a granule is copied, or promoted by a move, into a tier-0 tile that has been taken (R96, R126). COPIES counts both. DESIGN CHOICE (log entry 49): the spec does not say whether COPIES of SNP_COPY_STATS counts the promotion of an unshared granule; it does, but a hint's own moves are not counted. -/
def copyGranule (k g : Nat) (r : Region) (s : State) : State :=
  let old := tileOf r (headView r) g
  let s := pullTile r.owner r old s
  let s := movePass r .t0 r.owner old (movePass r (placeOf s r old) r.owner old s)
  let (e, s) := freshExt s
  let new := e * 2 ^ 24 + g
  let s := bump .snpCopyStats 0 32 32 1 (setHeadTile k g new (tileCopy old new s))
  if headShared r g then s
  else trimHeads k (freeTile k r old (abandonIn k (fun m => m.tile = old) false false s))

/-- Give the head its own tier-0 tile of a granule: the copy of R96, or the promotion of R126, which a hint may already be making (Table 6.6). `none` when no tile is free (R97). -/
def ownGranule (k g : Nat) (s : State) : Option State :=
  match region s k with
  | none => none
  | some r =>
    let old := tileOf r (headView r) g
    if !headShared r g && placeOf s r old = .t0 then some s else
    match (if s.pool.copies.contains (k, g) || runBinds s old then none else promotionOf s old) with
    | some (h, x, m) => some (wakeCopies (promoteNow h x m s))
    | none => (tileForCopy k g s).map fun s => wakeCopies (copyGranule k g r s)

/-- Does a granule of the head need a copy or a promotion before a write? -/
def needsCopy (s : State) (k : Nat) (r : Region) (g : Nat) : Bool :=
  !r.coherent && (headShared r g || placeOf s r (tileOf r (headView r) g) != .t0) && (region s k).isSome

/-- Table 4.3 for a write: the refusal counter to bump, or none when it is accepted. -/
def writeRefused (s : State) (k : Nat) (r : Region) (source : Nat) : Option Nat :=
  if r.coherent then none
  else if (readEntry s k source).isSome then some 32
  else match r.writer with
    | some _ => none
    | none => some 16

/-- The tile a write lands in. -/
def writeTile (r : Region) (g : Nat) : Nat := tileOf r (if r.coherent then currentView r else headView r) g

/-- Apply the lines of a write from offset `off` on; each line carries its bytes, its enables and its poison; the granules are owned already. A line that is marked poisoned is logged (R82). -/
def applyLines (k : Nat) : Nat → List Byte → Nat → Nat → Nat → State → State
  | 0, _, _, _, _, s => s
  | n + 1, bs, off, en, ps, s =>
    match region s k with
    | none => s
    | some r =>
      let g := granuleOf r off
      let t := writeTile r g
      let s := writeAborts k t s
      let s := lineWrite t (bits off 6 10) (bs.take 64) en (ps.testBit 0) s
      let s := if ps.testBit 0 then notePoison (some 2) (selfNode s) (off / 64 * 64) s else s
      applyLines k n (bs.drop 64) (off + 64) en (ps / 2) (markLine k (off - r.base) g s)

/-- Granules that `[off, off + len)` of a region touches. -/
def granuleSpan (r : Region) (off len : Nat) : List Nat :=
  if len = 0 then [] else
  (List.range (granuleOf r (off + len - 1) + 1 - granuleOf r off)).map fun i => granuleOf r off + i

/-- Own every granule of a list. -/
def ownAll (k : Nat) : List Nat → State → Option State
  | [], s => some s
  | g :: gs, s => (ownGranule k g s).bind (ownAll k gs)

/-- Can the tile of a granule be reached: stack powered, module up, pool host port up (R26, Table 15.12)? -/
def tileUp (s : State) (r : Region) (off : Nat) (p : Place) : Bool :=
  match p with
  | .t0 => pdOn s (pdStack (stackOf r off))
  | .t1 m | .t2 m => trayUp s m
  | .t3 q _ => hostUp s q

/-- Two key-range entries match an offset, which only a fault can bring about (R327). -/
def keyMulti (s : State) (off : Nat) : Bool :=
  1 < (s.pool.regions.filter fun e => e.2.base ≤ off && off < e.2.base + e.2.size).length

/-- An access that failed closed is counted and logged with its offset (R327, Table 14.16). -/
def noteMulti (off : Nat) (s : State) : State :=
  ras 0x0C 2 none (selfNode s) 0 off (setFld .kprKeyFault 0 0 48 off (bump .kprKeyFault 0 48 16 1 s))

/-- Poison bits and bytes of a read, line by line. -/
def readLines (s : State) (r : Region) (v : View) : Nat → Nat → Nat → List Byte × Nat
  | 0, _, _ => ([], 0)
  | n + 1, i, off =>
    let t := tileOf r v (granuleOf r off)
    let line := bits off 6 10
    let p := r.keyDead || keyMulti s off || isPoison s t line || !tileUp s r off (placeOf s r t)
    let (bs, ps) := readLines s r v n (i + 1) (off + 64)
    (tileRead s t (line * 64) 64 ++ bs, ps ||| place (bitOf p) i 1)

/-- HBC_TEL_READS: `n` lines read from a tier for a tent (R139). -/
def countTier (t tier n : Nat) (s : State) : State :=
  { s with pool := { s.pool with tel := put s.pool.tel (t * 4 + tier) (satAdd 64 ((find s.pool.tel (t * 4 + tier)).getD 0) n) } }

/-- HBC_TEL_READS: count lines read per tier for a tent (R139). -/
def countReads (r : Region) (v : View) (t : Nat) : Nat → Nat → State → State
  | 0, _, s => s
  | n + 1, off, s =>
    countReads r v t n (off + 64) (countTier t (placeOf s r (tileOf r v (granuleOf r off))).tier 1 s)

/-- Lines that `[off, off+len)` covers, and the first one's offset. -/
def lineSpan (off len : Nat) : Nat × Nat := (off / 64 * 64, (off + len + 63) / 64 - off / 64)

/-- Directory entry of a line of a coherent region; an absent entry is INVALID (Table 5.3). -/
def dirOf (s : State) (line : Nat) : DirEntry := (find s.coh.dir line).getD {}

/-- Every line of a span lies in a tile that can be reached. -/
def linesUp (s : State) (r : Region) (v : View) (n o : Nat) : Bool :=
  (List.range n).all fun i => tileUp s r (o + 64 * i) (placeOf s r (tileOf r v (granuleOf r (o + 64 * i))))
    && (!r.coded || pdOn s 24)

/-! ### Coherent lines -/

/-- A coherent line that a transaction runs on, or that requests wait for (R109, R115). -/
def cohInUse (s : State) (line : Nat) : Bool := s.coh.txns.any (·.line = line) || s.coh.queue.any (·.1 = line)

/-- The hint entry of a source names a target agent for its whole-line stores (R112). -/
def hintEntry (s : State) (source : Nat) : Option Nat :=
  (List.range 64).findSome? fun h =>
    let e := mapVal s .cohHint h
    if e.testBit 63 && bits e 0 14 = source then some (bits e 32 5) else none

/-- What was brought of a line for an engine's load is out of date once the line is written or owned. -/
def forgetLine (line : Nat) (s : State) : State :=
  match regionAt s (line * 64) with
  | some (_, r) => { s with coh := { s.coh with got := del s.coh.got (lineKey (tileOf r (currentView r) (granuleOf r (line * 64))) (bits (line * 64) 6 10)) } }
  | none => s

/-- An engine's store of a line of a coherent region (Table 5.5). On an INVALID line that nothing uses, and with no hint to send, it is made at once; else it is posted, and takes effect in its turn (R115; log entry 48). -/
def cohEngine (source : Nat) (flow : Nat × Nat) (k line : Nat) (bs : List Byte) (en : Nat) (poison : Bool) (s : State) : State :=
  if (dirOf s line).state = .invalid && !cohInUse s line && (hintEntry s source).isNone then applyLines k 1 bs (line * 64) en (bitOf poison) (forgetLine line s)
  else { s with coh := { s.coh with queue := s.coh.queue ++ [(line, .engine source flow bs en poison)] } }

/-- Bytes and poison of lines of a coherent region for an engine's load: those of memory, or on a line that is owned or in use those that the directory's transaction brings (Table 5.5, R115). -/
def cohLines (t cls : Nat) (r : Region) : Nat → Nat → Nat → State → List Byte × Nat × State
  | 0, _, _, s => ([], 0, s)
  | n + 1, i, off, s =>
    let line := off / 64
    let (bs, p, s) :=
      if (dirOf s line).state = .owned || cohInUse s line then
        match awaitLine ⟨lineKey (tileOf r (currentView r) (granuleOf r off)) (bits off 6 10), line, none, t, cls⟩ s with
        | (some (bs, p), s) => (bs, bitOf p, s)
        | (none, s) => (List.replicate 64 0, 1, s)
      else
        let (bs, p) := readLines s r (currentView r) 1 0 off
        (bs, p, s)
    let (cs, q, s) := cohLines t cls r n (i + 1) (off + 64) s
    (bs ++ cs, place p i 1 ||| q, s)

/-! ### Engine accesses -/

/-- An engine's range in pieces that no region, no range-gate entry and no tile cuts, since all three lie on 64 KiB boundaries. -/
def cuts : Nat → Nat → Nat → List (Nat × Nat)
  | 0, _, _ => []
  | fuel + 1, off, len =>
    if len = 0 then [] else
    let n := min len (0x10000 - off % 0x10000)
    (off, n) :: cuts fuel (off + n) (len - n)

/-- See `cuts`. -/
def piecesOf (off len : Nat) : List (Nat × Nat) := cuts (len / 0x10000 + 2) off len

/-- The range gate's refusal of a piece of an engine's access, counted (R13, R320); with `table`, a write must also be admitted by Table 4.3. -/
def pieceRefused (table write : Bool) (source work : Nat) (p : Nat × Nat) (s : State) : Option State :=
  match regionAt s p.1 with
  | none => some (bump .rngGateStats 0 48 16 1 s)
  | some (k, r) =>
    match gatePool s source p.1 p.2 write true work with
    | .ok _ => if table && write then (writeRefused s k r source).map fun lo => bump .snpRefused 0 lo 16 1 s else none
    | g => some (countGate g s)

/-- An engine's access is refused as a whole where one piece of it is: the state with that refusal counted. -/
def engRefused (table write : Bool) (source work : Nat) (ps : List (Nat × Nat)) (s : State) : Option State :=
  ps.findSome? fun p => pieceRefused table write source work p s

/-- What an engine's read returned: bytes, whether a line of it was poisoned, and the poisoned lines from the first one touched. -/
structure EngRead where
  data : List Byte
  poison : Bool
  mask : Nat
deriving DecidableEq, Repr

/-- An engine reads one admitted piece in its source's view (Table 4.3): `none` where its tile cannot be reached or its host fails it. The reads are counted for the tent of the work (R139), the bytes pass their shaped point (R298) and the blocks their decoder (R155). -/
def readPiece (source work cls : Nat) (p : Nat × Nat) (s : State) : Option EngRead × State :=
  match regionAt s p.1 with
  | none => (none, s)
  | some (k, r) =>
    let v := viewFor s k r source
    let (o, n) := lineSpan p.1 p.2
    let tile := tileOf r v (granuleOf r o)
    if !linesUp s r v n o then (none, s) else
    let lo := (o - r.base) % tileBytes
    let (ok, s) := match placeOf s r tile with
      | .t3 pl i => pull work cls r tile pl i lo (64 * n) s
      | _ => (true, s)
    if !ok then (none, s) else
    let s := engPass r (placeOf s r tile) work cls o (fetchLength s r tile lo (64 * n)) (decodeBlocks r tile lo (64 * n) (countReads r v work n o s))
    let s := if keyMulti s o then noteMulti o s else s
    let (bs, ps, s) := if r.coherent then cohLines work cls r n 0 o s else let (bs, ps) := readLines s r v n 0 o; (bs, ps, s)
    (some ⟨(bs.drop (p.1 - o)).take p.2, ps != 0, ps⟩, s)

/-- See `readPiece`: one piece after the other. -/
def readPieces (source work cls : Nat) : List (Nat × Nat) → State → Option EngRead × State
  | [], s => (some ⟨[], false, 0⟩, s)
  | p :: ps, s =>
    match readPiece source work cls p s with
    | (none, s) => (none, s)
    | (some a, s) =>
      match readPieces source work cls ps s with
      | (none, s) => (none, s)
      | (some b, s) => (some ⟨a.data ++ b.data, a.poison || b.poison, a.mask ||| b.mask <<< (lineSpan p.1 p.2).2⟩, s)

/-- An engine's read of pooled memory under a source, for a tent's work (R13, R89): `none` when refused, as a whole, or unreachable. -/
def engRead (source work off len : Nat) (s : State) (cls : Nat := clsEngine) : Option EngRead × State :=
  match engRefused false false source work (piecesOf off len) s with
  | some s => (none, s)
  | none => readPieces source work cls (piecesOf off len) s

/-- The part of a store of `bs` at `addr` that falls in a line: 64 bytes, byte enables, and whether a poisoned piece of the data touches it. `marks` marks the poisoned 64-byte pieces of the data. -/
def linePart (addr : Nat) (bs : List Byte) (marks line : Nat) : List Byte × Nat × Bool :=
  let lo := line * 64
  let a := max addr lo
  let b := min (addr + bs.length) (lo + 64)
  let pad := List.replicate (a - lo) (0 : Byte) ++ (bs.drop (a - addr)).take (b - a)
  (pad ++ List.replicate (64 - pad.length) 0, maskOf (a - lo) (b - a),
    marks.testBit ((a - addr) / 64) || marks.testBit ((b - 1 - addr) / 64))

/-- Cut the lines of a read down to `[addr, addr + len)`: bytes, and the poisoned 64-byte pieces. -/
def cutLines (addr len : Nat) (bs : List Byte) (mask : Nat) : List Byte × Nat :=
  let h := addr % 64
  ((bs.drop h).take len, if h = 0 then mask % 2 ^ ((len + 63) / 64) else (mask ||| mask >>> 1) % 2 ^ ((len + 63) / 64))

/-- A line that an engine stores: its number in pooled memory, 64 bytes, byte enables, poison. -/
abbrev LinePart := Nat × List Byte × Nat × Bool

/-- The lines of a store of `bs` at an offset. -/
def lineParts (off : Nat) (bs : List Byte) (marks : Nat) : List LinePart :=
  if bs.isEmpty then [] else
  let (o, n) := lineSpan off bs.length
  (List.range n).map fun i => (o / 64 + i, linePart off bs marks (o / 64 + i))

/-- An admitted piece can be written: its key lives and matches alone, its tile and the stacks it goes to can be reached, and the codecs are on where its blocks need them (R26, R159, R326, R327). -/
def pieceUp (s : State) (p : Nat × Nat) : Bool :=
  match regionAt s p.1 with
  | none => false
  | some (_, r) =>
    let (o, n) := lineSpan p.1 p.2
    let t := writeTile r (granuleOf r o)
    !r.keyDead && !keyMulti s o && (!r.coded || pdOn s 24)
      && (List.range n).all fun i => tileUp s r (o + 64 * i) .t0 && tileUp s r (o + 64 * i) (placeOf s r t)

/-- Own the granules of pieces that need a copy or a promotion (R96, R126); `none` where one finds no tile. -/
def ownPieces : List (Nat × Nat) → State → Option State
  | [], s => some s
  | p :: ps, s =>
    match regionAt s p.1 with
    | none => none
    | some (k, r) =>
      (if needsCopy s k r (granuleOf r p.1) then ownGranule k (granuleOf r p.1) s else some s).bind (ownPieces ps)

/-- The bytes of a piece that is to be written pass their shaped point, and its blocks their codecs: decoded before the lines are merged, encoded after (R156, R298). -/
def writePass (enc : Bool) (work cls : Nat) (p : Nat × Nat) (s : State) : State :=
  match regionAt s p.1 with
  | none => s
  | some (_, r) =>
    let (o, n) := lineSpan p.1 p.2
    let tile := writeTile r (granuleOf r o)
    let lo := (o - r.base) % tileBytes
    if enc then engPass r .t0 work cls o (fetchLength s r tile lo (64 * n)) (encodeBlocks r tile lo (64 * n) s)
    else decodeBlocks r tile lo (64 * n) s

/-- One line of an engine's store takes effect. -/
def putLine (source : Nat) (flow : Nat × Nat) (l : LinePart) (s : State) : State :=
  match regionAt s (l.1 * 64) with
  | none => s
  | some (k, r) =>
    if r.coherent then cohEngine source flow k l.1 l.2.1 l.2.2.1 l.2.2.2 s
    else applyLines k 1 l.2.1 (l.1 * 64) l.2.2.1 (bitOf l.2.2.2) s

/-- An engine's store of lines of ranges of pooled memory, all of them or none, under a source, for a tent's work (R13, Table 4.3): did it happen? COPY_FAIL counts the lack of a tile (R97). -/
def engPut (source work cls : Nat) (ranges : List (Nat × Nat)) (ls : List LinePart) (s : State) : Bool × State :=
  let ps := ranges.flatMap fun x => piecesOf x.1 x.2
  match engRefused true true source work ps s with
  | some s => (false, s)
  | none =>
    if !ps.all (pieceUp s) then
      (false, match ps.find? fun p => keyMulti s p.1 with
        | some p => noteMulti p.1 s
        | none => s)
    else match ownPieces ps s with
    | none => (false, bump .snpRefused 0 48 16 1 (attn 10 s))
    | some s =>
      let s := ps.foldl (fun s p => writePass false work cls p s) s
      let s := ls.foldl (fun s l => putLine source (work, cls) l s) s
      (true, ps.foldl (fun s p => writePass true work cls p s) s)

/-- An engine's store of bytes at an offset: did it happen? `marks` are the poisoned 64-byte pieces of the bytes. -/
def engWriteS (source work off : Nat) (bs : List Byte) (s : State) (marks : Nat := 0) (cls : Nat := clsEngine) : Bool × State :=
  engPut source work cls [(off, bs.length)] (lineParts off bs marks) s

/-- An engine's store of the enabled bytes of one line, poisoned or not: did it happen? -/
def engStore (source work off : Nat) (bs : List Byte) (en : Nat) (poison : Bool) (s : State) : Bool × State :=
  engPut source work clsEngine [(off, 64)] [(off / 64, bs, en, poison)] s

/-- May a source read a whole range as an engine, as the range gate stands? Nothing is counted. -/
def mayRead (s : State) (source work off len : Nat) : Bool := (engRefused false false source work (piecesOf off len) s).isNone
/-- May it write the range, as the range gate and Table 4.3 stand? -/
def mayWrite (s : State) (source work off len : Nat) : Bool := (engRefused true true source work (piecesOf off len) s).isNone
/-- Does the range gate admit its writes of the range, Table 4.3 apart? -/
def mayGateWrite (s : State) (source work off len : Nat) : Bool := (engRefused false true source work (piecesOf off len) s).isNone

end Sys2Proof.Machine
end

