-- ==== Sys2Proof/Machine/GafQ.lean ====
section
/-! DEFINITION. Command queues: fetching a descriptor (R33 to R36, R314), the checks every command meets (R32, R37 to R39, R445, Table 14.6), staging (R41, R42), and posting a completion (Table 2.8). -/

namespace Sys2Proof.Machine

/-- Status codes of Table 2.9. -/
def stSuccess : Nat := 0x0000
/-- See Table 2.9. -/
def stStaged : Nat := 0x0001
/-- See Table 2.9. -/
def stBadOpcode : Nat := 0x0101
/-- See Table 2.9. -/
def stBadField : Nat := 0x0102
/-- See Table 2.9. -/
def stBadLength : Nat := 0x0103
/-- See Table 2.9. -/
def stNotPermitted : Nat := 0x0201
/-- See Table 2.9. -/
def stFeatureDisabled : Nat := 0x0202
/-- See Table 2.9. -/
def stTamperLock : Nat := 0x0203
/-- See Table 2.9. -/
def stNotReady : Nat := 0x0204
/-- See Table 2.9. -/
def stNotFound : Nat := 0x0301
/-- See Table 2.9. -/
def stNoResource : Nat := 0x0302
/-- See Table 2.9. -/
def stResourceBusy : Nat := 0x0303
/-- See Table 2.9. -/
def stRangeOverlap : Nat := 0x0304
/-- See Table 2.9. -/
def stNotOwner : Nat := 0x0305
/-- See Table 2.9. -/
def stRegionBusy : Nat := 0x0306
/-- See Table 2.9. -/
def stReelLimit : Nat := 0x0307
/-- See Table 2.9. -/
def stTakeState : Nat := 0x0401
/-- See Table 2.9. -/
def stTakeFailed : Nat := 0x0402
/-- See Table 2.9. -/
def stTakeExpired : Nat := 0x0403
/-- See Table 2.9. -/
def stAdmissionRefused : Nat := 0x0404
/-- See Table 2.9. -/
def stKeyConflict : Nat := 0x0405
/-- See Table 2.9. -/
def stPowerOrder : Nat := 0x0501
/-- See Table 2.9. -/
def stPowerOff : Nat := 0x0502
/-- See Table 2.9. -/
def stTimeout : Nat := 0x0601
/-- See Table 2.9. -/
def stAborted : Nat := 0x0602
/-- See Table 2.9. -/
def stInternalError : Nat := 0x0701

/-- An operand field: bits `[lo+w-1:lo]` of the little-endian field that starts at a descriptor byte (Table 2.7). -/
def opf (d : Desc) (byte lo w : Nat) : Nat := bits d.ops.toNat (8 * (byte - 16) + lo) w

/-- The descriptor's TENT. -/
def dtent (d : Desc) : Nat := d.tent.toNat

/-- Every operand bit outside the listed fields (byte, lowest bit, width) is 0 (R37). -/
def onlyFields (d : Desc) (fs : List (Nat × Nat × Nat)) : Bool :=
  let m := fs.foldl (fun a f => a ||| maskOf (8 * (f.1 - 16) + f.2.1) f.2.2) 0
  (d.ops.toNat ||| m) ^^^ m = 0

/-- Operand bytes `[byte, byte + n)`. -/
def opBytes (d : Desc) (byte n : Nat) : List Byte := leBytes n (opf d byte 0 (8 * n))

/-- Number of a queue for ties: the operator queue is 0 (R34; log entry 5). -/
def qNum : QId → Nat
  | .operator => 0
  | .tent t k => 1 + t.toNat * 16 + k.toNat

/-- Issuer of a queue: `none` the operator (R41). -/
def issuer : QId → Option Nat
  | .operator => none
  | .tent t _ => some t.toNat

/-- The queue, if it exists. -/
def getQ (s : State) : QId → Option CmdQueue
  | .operator => some s.gaf.opq
  | .tent t k => find s.gaf.cmdqs (t.toNat * 16 + k.toNat)

/-- Which creation of a queue number is in force (R314). -/
def genOf (s : State) (q : QId) : Nat := ((getQ s q).map (·.gen)).getD 0

/-- What the completion of a descriptor fetched from queue q echoes (Table 2.8). -/
def crefOf (q : QId) (d : Desc) (s : State) : CRef := ⟨q, d.tag, d.complInt, genOf s q⟩

/-- Change a queue. -/
def updQ (q : QId) (f : CmdQueue → CmdQueue) (s : State) : State :=
  match q with
  | .operator => { s with gaf := { s.gaf with opq := f s.gaf.opq } }
  | .tent t k => { s with gaf := { s.gaf with cmdqs := upd s.gaf.cmdqs (t.toNat * 16 + k.toNat) f } }

/-- Set ERROR of a command queue and GAF_ATTN.CMDQ_ERROR (R33, Table 19.8). -/
def queueError (q : QId) (s : State) : State := attn 1 (updQ q (fun x => { x with error := true, stopped := true }) s)

/-- Descriptors not fetched: (TAIL - HEAD) mod 2^n (R33). -/
def backlog (x : CmdQueue) : Nat := (x.tail + 2 ^ x.n - x.head) % 2 ^ x.n

/-- The gaffer fetches from this queue now (R33, R36). -/
def fetchable (x : CmdQueue) : Bool :=
  x.enable && !x.stopped && backlog x != 0 && x.posted + x.running < 2 ^ x.n

/-- Bytes of the submission ring entry that a fetch reads. -/
def ringEntry (x : CmdQueue) (i : Nat) : Nat := x.base + 64 * i

/-- FENCE of the descriptor at the head of a ring (Table 2.7): byte 2 [6], as the operator window or the tent's pooled memory holds it. -/
def headFence (s : State) (operator : Bool) (x : CmdQueue) : Bool :=
  let a := ringEntry x x.head + 2
  if operator then (byteAt s.gaf.window a).toNat.testBit 6
  else match regionAt s a with
  | some (k, r) => (byteAt s.pool.mem (tileAddr (tileOf r (viewFor s k r x.source) (granuleOf r a)) (a % tileBytes))).toNat.testBit 6
  | none => false

/-- A queue takes part in the fair queuing of R34: it is fetchable, and no FENCE at its head waits for its running commands (R35). -/
def contends (s : State) (operator : Bool) (x : CmdQueue) : Bool := fetchable x && (x.running = 0 || !headFence s operator x)

/-- Fair-queuing key of every queue that takes part: start tag, then queue number (R34). -/
def fetchKeys (s : State) : List (Nat × Nat) :=
  (if contends s true s.gaf.opq then [(s.gaf.opq.vtag, 0)] else []) ++
  (s.gaf.cmdqs.filter fun e => contends s false e.2).map fun e => (e.2.vtag, 1 + e.1)

/-- Order of fair-queuing keys. -/
def keyLe (a b : Nat × Nat) : Bool := a.1 < b.1 || (a.1 = b.1 && a.2 ≤ b.2)

/-- Is this queue the one that R34 serves next? -/
def isNext (s : State) (q : QId) (x : CmdQueue) : Bool := (fetchKeys s).all fun k => keyLe (x.vtag, qNum q) k

/-- The gaffer serves commands at all: boot stage 6 or later, or a halt that still serves STATUS; awake (R376, R334, R356, R404). -/
def gafferServes (s : State) : Bool :=
  (6 ≤ s.gaf.stage || s.gaf.bootHalt || s.gaf.errorHalt) && s.chip.sleep = 0 && !s.chip.inReset

/-- The gaffer can fetch a descriptor from `q` now, with its FENCE bit (R34, R35). -/
def canFetch (s : State) (q : QId) (fence : Bool) : Bool :=
  match getQ s q with
  | some x => gafferServes s && fetchable x && isNext s q x && (!fence || x.running = 0)
  | none => false

/-- Address of a completion ring entry: the completion ring follows the submission ring (Table 2.2, Table 13.8). -/
def cqEntry (x : CmdQueue) (i : Nat) : Nat := x.base + 64 * 2 ^ x.n + 16 * i

/-- The 16 bytes of a completion (Table 2.8). -/
def complBytes (tag status detail : Nat) (phase : Bool) (result : Nat) : List Byte :=
  leBytes 4 tag ++ leBytes 2 status ++ leBytes 2 (place detail 0 15 ||| place (bitOf phase) 15 1) ++ leBytes 8 result

/-- Post a completion into the next free entry, PHASE and CQ_TAIL moving on (R36): was it posted? A ring access that is refused sets ERROR (R314). -/
def postTo (q : QId) (x : CmdQueue) (bs : List Byte) (s : State) : Bool × State :=
  let wrap := x.cqTail + 1 = 2 ^ x.n
  let adv := updQ q fun x => { x with
    cqTail := if wrap then 0 else x.cqTail + 1, phase := if wrap then !x.phase else x.phase
    posted := x.posted + 1, running := x.running - 1 }
  match q with
  | .operator => (true, adv { s with gaf := { s.gaf with window := writeBytes s.gaf.window (cqEntry x x.cqTail) bs } })
  | .tent t _ =>
    let (ok, s) := engWriteS x.source t.toNat (cqEntry x x.cqTail) bs s
    (ok, if ok then adv s else queueError q (updQ q (fun x => { x with running := x.running - 1 }) s))

/-- After the completion is posted: COMPL_INT raises the queue's vector or its NOTIFY clapper (R36, Table 13.8). -/
def signal (c : CRef) (x : CmdQueue) (s : State) : State :=
  if !c.complInt then s else
  match c.q with
  | .operator => emit (.vector (fld s .gafCmdqCtl 0 32 8)) s
  | .tent _ _ => clapOpt x.notify 1 s

/-- Complete a command (R36, R38): the interrupt or NOTIFY comes after the post, and only then. A command of a queue destroyed since posts nothing, whether or not its number has been given to another queue (R314). -/
def complete (c : CRef) (status detail result : Nat) (s : State) : State :=
  match getQ s c.q with
  | none => s
  | some x =>
    if x.gen != c.gen then s else
    let (posted, s) := postTo c.q x (complBytes c.tag.toNat status detail x.phase result) s
    if posted then signal c x s else s

/-- Complete with a status and nothing else. -/
def reject (c : CRef) (status : Nat) (s : State) : State := complete c status 0 0 s

/-- Fetch: HEAD advances, the turn is charged, one more command runs (R33, R34). -/
def fetchAdvance (q : QId) (s : State) : State :=
  match getQ s q with
  | none => s
  | some x =>
    let cost := match q with | .operator => 1 | .tent _ _ => 8
    let s := updQ q (fun x => { x with head := (x.head + 1) % 2 ^ x.n, running := x.running + 1, vtag := x.vtag + cost }) s
    { s with gaf := { s.gaf with vtime := x.vtag } }

/-- A tent queue's descriptor fetch is an engine access under SOURCE (R314); the operator ring lies in the window. -/
def fetchOk (q : QId) (s : State) : Bool × State :=
  match q, getQ s q with
  | .tent t _, some x =>
    let (r, s) := engRead x.source t.toNat (ringEntry x x.head) 64 s
    (r.isSome, s)
  | _, _ => (true, s)

/-- The line of the ring that a fetch reads must come from an agent or a host first: the descriptor is not fetched yet (log entry 48). -/
def ringWaits (q : QId) (s : State) : Bool := s.coh.need.length < (fetchOk q s).2.coh.need.length

/-- Who may issue a command, and what sealing changes (Tables 2.10 to 2.12, Table 14.6). -/
structure Rule where
  /-- Issuer column A. -/
  any : Bool
  /-- Served in tamper lockdown. -/
  inLock : Bool := false
  /-- Served in error halt. -/
  inHalt : Bool := false
  /-- A take command: TAKE_ID is used (R37). -/
  takeCmd : Bool := false
  /-- The operator may issue it for a sealed tent. -/
  sealedOk : Bool := false

/-- Checks on the issuer (R32, R450, Table 14.6). -/
def issuerCheck (s : State) (q : QId) (d : Desc) (r : Rule) : Option Nat :=
  match q with
  | .operator => if r.any && !r.sealedOk && tentSealed s (dtent d) then some stNotPermitted else none
  | .tent t _ => if !r.any || d.tent != t then some stNotPermitted else none

/-- Lockdown and halts (R334, R356). -/
def haltCheck (s : State) (r : Rule) : Option Nat :=
  if (s.kpr.lockdown || s.gaf.bootHalt) && !r.inLock then some stTamperLock
  else if s.gaf.errorHalt && !r.inHalt then some stInternalError
  else none

/-- Checks of the descriptor's header for a command that is not staged (R37, R39). -/
def headerCheck (d : Desc) (r : Rule) : Option Nat :=
  if d.rsv != 0 then some stBadField
  else if !d.stage && d.takeId != 0 && !r.takeCmd then some stBadField
  else none

/-- First status that applies, if any. -/
def firstStatus : List (Option Nat) → Option Nat
  | [] => none
  | some x :: _ => some x
  | none :: t => firstStatus t

/-- Run a command marked I: fetch, the common checks, its field check, then its body, which completes it now or later. -/
def runI (q : QId) (d : Desc) (r : Rule) (fields : Desc → Option Nat) (body : CRef → State → State) (s : State) : State :=
  if !canFetch s q d.fence then s else
  if ringWaits q s then asked s (fetchOk q s).2 else
  let (ok, s) := fetchOk q s
  if !ok then queueError q s else
  let s := fetchAdvance q s
  let c := crefOf q d s
  match firstStatus [haltCheck s r, headerCheck d r, if d.stage then some stBadField else none, issuerCheck s q d r, fields d] with
  | some st => reject c st s
  | none => body c s

/-- A body whose loads must wait for lines leaves its descriptor unfetched until they are there (log entry 48); `s0` is the state before the fetch. -/
def orLater (s0 : State) (body : CRef → State → State) (c : CRef) (s : State) : State := held s0 s (body c s)

/-- A take by identifier, as its issuer sees it (R41). -/
def takeOf (s : State) (q : QId) (id : Nat) : Option Take :=
  (find s.gaf.takes id).filter fun k => k.owner = issuer q

/-- Change a take. -/
def updTake (id : Nat) (f : Take → Take) (s : State) : State :=
  { s with gaf := { s.gaf with takes := upd s.gaf.takes id f } }

/-- A staging error fails the take and records the stage index (R42). -/
def failTake (id idx : Nat) (s : State) : State := updTake id (fun k => { k with state := .failed, failed := idx }) s

/-- Stage a command whose checks are `bad`; `copied` are the bytes it copies (R41, R42). -/
def stageCmd (q : QId) (d : Desc) (cmd : Instr) (bad : Option Nat) (copied : List Byte) (c : CRef) (s : State) : State :=
  match takeOf s q d.takeId.toNat with
  | none => reject c stNotFound s
  | some k =>
    match k.state with
    | .open =>
      if k.cmds.length ≥ 4096 then reject c stNoResource (failTake d.takeId.toNat 4096 s) else
      match bad with
      | some st => reject c st (failTake d.takeId.toNat k.cmds.length s)
      | none => complete c stStaged 0 0 (updTake d.takeId.toNat (fun k => { k with cmds := k.cmds ++ [⟨cmd, copied⟩] }) s)
    | _ => reject c stTakeState s

/-- Run a command marked E or T: fetch, common checks, then stage it, or commit it alone (R39). `alone` is the commit of a take of one. -/
def runE (q : QId) (d : Desc) (r : Rule) (mustStage : Bool) (fields : State → Desc → Option Nat) (copy : State → List Byte)
    (cmd : Instr) (alone : Staged → CRef → State → State) (s : State) : State :=
  if !canFetch s q d.fence then s else
  if ringWaits q s then asked s (fetchOk q s).2 else
  let (ok, s) := fetchOk q s
  if !ok then queueError q s else
  let s := fetchAdvance q s
  let c := crefOf q d s
  let bad := firstStatus [headerCheck d r, issuerCheck s q d r, fields s d]
  match haltCheck s r with
  | some st => reject c st s
  | none =>
    if d.stage then stageCmd q d cmd bad (copy s) c s
    else if mustStage then reject c stBadField s
    else match bad with
      | some st => reject c st s
      | none => alone ⟨cmd, copy s⟩ c s

/-- What applying one command of a commit answers: a status with its DETAIL where it is not the stage index and its RESULT, or the new state and RESULT. -/
abbrev ApplyRes := Except (Nat × Option Nat × Nat) (State × Nat)

/-- A check of what may change between a commit's validation and its flip: made at validation only (R44, R48). -/
def fresh (s : State) (b : Bool) : Bool := b && !s.gaf.flipping

/-- A failing status. -/
def bad (st : Nat) : ApplyRes := .error (st, none, 0)

/-- Applied, with RESULT 0. -/
def good (s : State) : ApplyRes := .ok (s, 0)

/-- Bytes in the operator window (R384). -/
def windowBytes : Nat := 0x10000000

/-- A command's range in the gaffer's reserved area must lie in the operator window (R384). -/
def inWindow (off len : Nat) : Bool := off + len ≤ windowBytes

end Sys2Proof.Machine
end

