-- ==== Sys2Proof/Machine/RegionOps.lean ====
section
/-! DEFINITION. Creating, releasing, handing over and opening regions (R83 to R103): the commands of chapter 4 and REGION.SET_OWNER (R52). -/

namespace Sys2Proof.Machine

/-- What released regions held is erased: their tiles' bytes, poison and places, but for the tiles that a near-bank run still reads (R290). -/
def eraseDead (s : State) : State :=
  let exts := s.pool.dead.map (·.2.ext)
  let tiles := s.pool.dead.foldl (fun a e => (regionTiles e.2).foldl insNat a) []
  let gone (t : Nat) : Bool := (exts.contains (t / 2 ^ 24) || tiles.contains t) && !runBinds s t
  { s with pool := { s.pool with
      mem := s.pool.mem.filter fun e => !gone (e.1 / tileBytes)
      poison := s.pool.poison.filter fun p => !gone (p / 1024)
      places := s.pool.places.filter fun e => !gone e.1
      lostRuns := s.pool.lostRuns.filter fun e => !exts.contains e.1
      lostTiles := s.pool.lostTiles.filter fun t => !gone t
      dead := [], deadHandles := [] } }

/-- Tiles of the graves return to their pools for clearing, once no old-epoch request remains (R87, R88). -/
def freeGraves (s : State) : State :=
  let s := eraseDead s
  let s' := s.pool.graves.foldl (fun s e =>
    if e.1 = 0 then giveDirty0 e.2 s
    else if e.1 < 9 then updTray (e.1 - 1) (fun t => { t with dirty1 := t.dirty1 + e.2 }) s
    else if e.1 < 17 then updTray (e.1 - 9) (fun t => { t with free2 := t.free2 + e.2 }) (gateTags (e.1 - 9) 0 e.2 s)
    else freePlace (.t3 ((e.1 - 17) % 16) ((e.1 - 17) / 16)) s) s
  { s' with pool := { s'.pool with graves := [] } }

/-- Close a handle: the reel read entry or the writer's handle goes. -/
def closeHandle (h : Nat) (s : State) : State :=
  { s with pool := { s.pool with handles := del s.pool.handles h } }

/-- Close a reader handle: its entry goes, and reels no longer held cease to exist (R95); answers tiles freed. -/
def closeReader (h : Nat) (x : Handle) (s : State) : Nat × State := pruneReels x.region (closeHandle h s)

/-- The copy reserve of a writer returns to free tier 0 (R93), its uncleared granules by way of the clear engine (R88). -/
def returnReserve (w : Writer) (s : State) : State := giveDirty0 w.soiled (giveFree0 (w.left - w.soiled) s)

/-- Discard the head of a writer (R95): its tiles are freed; answers how many. -/
def discardHead (k : Nat) (s : State) : Nat × State :=
  match (region s k).bind (·.writer) with
  | none => (0, s)
  | some w =>
    let s := returnReserve w (closeHandle w.handle s)
    let s := updRegion k (fun r => { r with writer := none }) s
    dropView k w.head s

/-- Next reel number: wraps from 0xFFFF_FFFF to 1 (R87). -/
def nextReel (n : Nat) : Nat := if n = 0xFFFFFFFF then 1 else n + 1

/-- The commit point (R93): the head becomes the current reel; with REOPEN a new head stands on it. -/
def commitHead (k : Nat) (reopen : Bool) (s : State) : State :=
  match region s k with
  | none => s
  | some r =>
    match r.writer with
    | none => s
    | some w =>
      let n := nextReel r.current
      let s := updRegion k (fun r => { r with current := n, reels := ⟨n, w.head⟩ :: r.reels, writer := none }) s
      let s := if reopen then updRegion k (fun r => { r with writer := some { w with commitWait := none } }) s
               else returnReserve w (closeHandle w.handle s)
      (pruneReels k s).2

/-- Abandon a waiting write open: handle and reserve return (R92). -/
def dropOpenWait (k status : Nat) (s : State) : State :=
  match (region s k).bind (·.waiting) with
  | none => s
  | some w =>
    let s := giveFree0 w.reserve (closeHandle w.handle s)
    reject w.cref status (updRegion k (fun r => { r with waiting := none }) s)

/-- Header-chunk tiles of a region: of its setting, and of the one a conversion leaves (R152, R154). -/
def heldHeaders (r : Region) : Nat :=
  r.heads + (match r.conv.bind (·.1) with | some g => headerTiles g (granules r) | none => 0)

/-- Release or fencing abandons a region's conversion: its clapper is not advanced, and it keeps the header chunks of both forms (R154). -/
def abandonConversion (k : Nat) (s : State) : State :=
  updRegion k (fun r => if r.conv.isSome then { r with conv := none, heads := heldHeaders r } else r) s

/-- The owner is fenced: the head is discarded, waits end with ABORTED, a conversion is abandoned (Table 4.6, R154), and no block buffer keeps a block of it (R328). -/
def fenceRegion (k : Nat) (s : State) : State :=
  let s := match region s k with | some r => dropRegionBuffers r s | none => s
  let s := dropOpenWait k stAborted (abandonConversion k s)
  let s := match ((region s k).bind (·.writer)).bind (·.commitWait) with
    | some (_, c) => reject c stAborted s
    | none => s
  (discardHead k s).2

/-- The region ceases to exist at the boundary (R87). Its content stays until the old map is freed, for the requests stamped before (R47, R48). -/
def releaseRegion (k : Nat) (s : State) : State :=
  let s := fenceRegion k s
  match region s k with
  | none => s
  | some r =>
    let counts := regionCounts s r
    let tiles := regionTiles r
    let s := abandonIn k (fun _ => true) false false s
    let bound := ((s.nbu.map fun e => (e.2.running.map fun x => (x.binds.map (·.tiles)).flatten).getD []).flatten).filter fun t =>
      (t / 2 ^ 24 = r.ext || tiles.contains t) && runBinds s t
    let s := bound.foldl (fun s t => keepForRun t none s) s
    let s := { s with pool := { s.pool with
      handles := s.pool.handles.filter fun h => h.2.region != k
      clears := del s.pool.clears k
      regions := del s.pool.regions k
      dead := s.pool.dead ++ [(k, r)]
      deadHandles := s.pool.deadHandles ++ s.pool.handles.filter fun h => h.2.region = k
      graves := counts.foldl (fun a e => addCount a e.1 e.2) s.pool.graves } }
    let s := giveFree0 (heldHeaders r) s
    r.reels.foldl (fun s x => closeWeights k x.num s) s

/-- Field check of REGION.CREATE (Table 4.1, R86). -/
def stageRegionCreate (d : Desc) : Option Nat :=
  let base := opf d 24 0 64
  let size := opf d 32 0 64
  if !onlyFields d [(16, 0, 18), (20, 0, 2), (24, 0, 64), (32, 0, 64)] || opf d 20 0 2 = 3
    || base % 0x200000 != 0 || size % 0x200000 != 0 || size < 0x200000 || 2 ^ 40 < size || 0x800000000000 < base + size
  then some stBadField else none

/-- A new region's record (R86). -/
def newRegion (t : Tent) (tn base size ext : Nat) (runs : List Run) (last1 last2 : Option Nat) : Region :=
  ⟨tn, base, size, ext, runs, t.span, t.stackSel, t.seed, t.slot, 0, false, 1, [⟨1, []⟩], none, none, none, none, false, last1, last2, none, none, 0⟩

/-- REGION.CREATE applied (R86, R44). -/
def applyRegionCreate (d : Desc) (s : State) : ApplyRes :=
  let k := opf d 16 0 18
  let tier := opf d 20 0 2
  let base := opf d 24 0 64
  let size := opf d 32 0 64
  let n := size / tileBytes
  if has s.pool.regions k then bad stResourceBusy
  else if s.pool.regions.any fun e => overlaps e.2.base e.2.size base size then bad stRangeOverlap
  else match tent s (dtent d) with
  | none => bad stNotFound
  | some t =>
    let (ext, s) := freshExt s
    if tier = 0 then
      match if stackRoom s t.span t.stackSel n then takeFree0 n s else none with
      | none => bad stNoResource
      | some s =>
        good { s with pool := { s.pool with regions := put s.pool.regions k (newRegion t (dtent d) base size ext [⟨0, n, 0, []⟩] none none) } }
    else
      match allocLower (tagOf t.slot false) tier (k % 8) 0 n s with
      | none => bad stNoResource
      | some (runs, last, s) =>
        good { s with pool := { s.pool with regions := put s.pool.regions k (newRegion t (dtent d) base size ext runs (if tier = 1 then some last else none) (if tier = 2 then some last else none)) } }

/-- Field check of REGION.RELEASE (Table 4.2). -/
def stageRegionRelease (d : Desc) : Option Nat := if onlyFields d [(16, 0, 18)] then none else some stBadField

/-- REGION.RELEASE applied (R87, R108, R339). -/
def applyRegionRelease (d : Desc) (s : State) : ApplyRes :=
  let k := opf d 16 0 18
  match region s k with
  | none => bad stNotFound
  | some r =>
    if r.owner != dtent d then bad stNotOwner
    else if fresh s (r.writer.isSome || r.waiting.isSome) || r.coherent then bad stRegionBusy
    else if has s.kpr.guys k then bad stResourceBusy
    else good { releaseRegion k s with kpr := { (releaseRegion k s).kpr with replicas := del s.kpr.replicas k } }

/-- Field check of REGION.SET_OWNER (Table 2.19). -/
def stageRegionSetOwner (d : Desc) : Option Nat := if onlyFields d [(16, 0, 18), (20, 0, 7)] then none else some stBadField

/-- REGION.SET_OWNER applied (R52). -/
def applyRegionSetOwner (d : Desc) (s : State) : ApplyRes :=
  let k := opf d 16 0 18
  let n := opf d 20 0 7
  match region s k with
  | none => bad stNotFound
  | some r =>
    if r.owner != dtent d then bad stNotOwner
    else if (tent s n).isNone then bad stNotFound
    else if fresh s (r.writer.isSome || r.waiting.isSome) || r.coherent then bad stRegionBusy
    else if n = r.owner then good s
    else
      let gate := s.fab.gate.filter fun e => e.2.edge || e.2.tent != r.owner || !overlaps e.2.base e.2.size r.base r.size
      good (updRegion k (fun r => { r with owner := n }) { s with fab := { s.fab with gate := gate } })

/-- Field check of REEL.OPEN (Table 4.4). -/
def fieldsReelOpen (d : Desc) : Option Nat :=
  let wr := opf d 20 0 1 = 1
  let wait := opf d 20 1 1 = 1
  if !onlyFields d [(16, 0, 18), (20, 0, 2), (22, 0, 14), (24, 0, 32), (28, 0, 18)] then some stBadField
  else if wr then (if opf d 22 0 14 != 0 || (!wait && opf d 24 0 32 != 0) then some stBadField else none)
  else if wait || opf d 24 0 32 != 0 || opf d 28 0 18 != 0 then some stBadField else none

/-- A free handle (log entry 3). -/
def freeHandle (s : State) : Option (Nat × State) :=
  if s.pool.handles.length ≥ 65536 then none else drawFree (fun h => !has s.pool.handles h) 0 65536 s

/-- REEL.OPEN for reading (R90). -/
def openRead (k : Nat) (r : Region) (d : Desc) (c : CRef) (s : State) : State :=
  let src := opf d 22 0 14
  if r.owner != dtent d then reject c stNotOwner s
  else if r.coherent then reject c stNotPermitted s
  else if !(s.fab.gate.any fun e => !e.2.edge && e.2.source = src && e.2.tent = dtent d && e.2.rd && covers e.2.base e.2.size r.base r.size) then reject c stNotPermitted s
  else if (s.kpr.guys.any fun g => g.1 = k && g.2.secondary && g.2.state = .syncing) then reject c stRegionBusy s
  else if (readEntry s k src).isSome then reject c stResourceBusy s
  else match freeHandle s with
  | none => reject c stNoResource s
  | some (h, s) =>
    let s := { s with pool := { s.pool with handles := put s.pool.handles h ⟨k, dtent d, false, src, r.current⟩ } }
    complete c stSuccess 0 (place r.current 32 32 ||| h) s

/-- Install a writer on a region (R92). -/
def installWriter (k h reserve timeout : Nat) (onLimit : Bool) (s : State) : State :=
  updRegion k (fun r => { r with writer := some { handle := h, head := currentView r, reserve := reserve, left := reserve, onLimit := onLimit, timeout := timeout, commitWait := none }, waiting := none }) s

/-- REEL.OPEN for writing (R92, R108, R154, R342). -/
def openWrite (k : Nat) (r : Region) (d : Desc) (c : CRef) (s : State) : State :=
  let reserve := opf d 28 0 18
  let wait := opf d 20 1 1 = 1
  let timeout := opf d 24 0 32
  if r.owner != dtent d then reject c stNotOwner s
  else if (s.kpr.guys.any fun g => g.1 = k && g.2.secondary) then reject c stNotPermitted s
  else if r.writer.isSome || r.waiting.isSome || r.coherent || r.conv.isSome then reject c stRegionBusy s
  else match freeHandle s with
  | none => reject c stNoResource s
  | some (h, s) =>
    match takeFree0 reserve s with
    | none => reject c stNoResource s
    | some s =>
      let withH := { s with pool := { s.pool with handles := put s.pool.handles h ⟨k, dtent d, true, 0, r.current⟩ } }
      if liveCount r < 8 then
        complete c stSuccess 0 (place r.current 32 32 ||| h) (installWriter k h reserve timeout wait withH)
      else if !wait then reject c stReelLimit (bump .snpRefused 0 0 16 1 (giveFree0 reserve s))
      else
        let (now, s) := clock withH
        updRegion k (fun r => { r with waiting := some ⟨h, reserve, timeout, if timeout = 0 then none else some (now + timeout * 1000), c⟩ }) s

/-- Body of REEL.OPEN (R90, R92). -/
def bodyReelOpen (d : Desc) (c : CRef) (s : State) : State :=
  let k := opf d 16 0 18
  match region s k with
  | none => reject c stNotFound s
  | some r => if opf d 20 0 1 = 1 then openWrite k r d c s else openRead k r d c s

/-- Live reels after a commit with REOPEN 1 (R94). -/
def liveAfterReopen (s : State) (k : Nat) (r : Region) : Nat := liveCount r + (if reelHeld s k r.current then 1 else 0)

/-- Send a guy-line primary's commit point to its partner, or apply alone (R103, Table 15.4). -/
def guyCommitSeq (s : State) (k : Nat) : Option Guy :=
  (find s.kpr.guys k).filter fun g => !g.secondary && (g.state = .inSync || g.state = .syncing)

/-- Body of REEL.COMMIT (R93, R94); `mirror` sends a commit point where the region is a primary in step. -/
def bodyReelCommit (mirror : Nat → CRef → Nat → State → Option State) (q : QId) (d : Desc) (c : CRef) (s : State) : State :=
  let h := opf d 16 0 16
  match find s.pool.handles h with
  | none => reject c stNotFound s
  | some x =>
    if issuer q != some x.tent then reject c stNotPermitted s
    else if !x.writer then reject c stBadField s
    else match region s x.region with
    | none => reject c stNotFound s
    | some r =>
      match r.writer with
      | none => reject c stNotFound s   -- an open that still waits has no head to commit
      | some w =>
        if w.commitWait.isSome then reject c stResourceBusy s
        else
          let reopen := opf d 18 0 1 = 1
          let n := nextReel r.current
          let finish (s : State) : State :=
            match mirror x.region c n s with
            | some s => s
            | none => complete c stSuccess 0 (place n 32 32) s
          if !reopen then finish (commitHead x.region false s)
          else if liveAfterReopen s x.region r ≤ 8 then finish (commitHead x.region true s)
          else if !w.onLimit then reject c stReelLimit (bump .snpRefused 0 0 16 1 s)
          else
            let (now, s) := clock s
            updRegion x.region (fun r => { r with writer := r.writer.map fun w =>
              { w with commitWait := some (if w.timeout = 0 then none else some (now + w.timeout * 1000), c) } }) s

/-- Body of REEL.CLOSE (R95, R101). -/
def bodyReelClose (d : Desc) (c : CRef) (s : State) : State :=
  let h := opf d 16 0 16
  match find s.pool.handles h with
  | none => reject c stNotFound s
  | some x =>
    if x.tent != dtent d then reject c stNotPermitted s
    else if !x.writer then
      let (n, s) := closeReader h x s
      complete c stSuccess 0 n s
    else match (region s x.region).bind (·.writer) with
    | some w =>
      if w.commitWait.isSome then reject c stResourceBusy s else
      let (n, s) := discardHead x.region s
      complete c stSuccess 0 n s
    | none => reject c stNotFound s   -- an open that still waits has opened nothing (Table 4.7)

/-- A waiting write open creates its head once a slot is there (R92, Table 4.7). -/
def endOpenWait (k : Nat) (s : State) : State :=
  match region s k with
  | none => s
  | some r =>
    match r.waiting with
    | none => s
    | some w =>
      if liveCount r < 8 then
        complete w.cref stSuccess 0 (place r.current 32 32 ||| w.handle)
          (installWriter k w.handle w.reserve w.timeout true s)
      else s

/-- A waiting write open expires (R92). -/
def timeoutOpenWait (k : Nat) (s : State) : State :=
  match (region s k).bind (·.waiting) with
  | none => s
  | some w => match w.deadline with
    | none => s
    | some t => dropOpenWait k stTimeout (clockTo t s)

/-- A waiting commit commits and reopens once a slot is there (R94). -/
def endCommitWait (mirror : Nat → CRef → Nat → State → Option State) (k : Nat) (s : State) : State :=
  match region s k with
  | none => s
  | some r =>
    match r.writer.bind (·.commitWait) with
    | none => s
    | some (_, c) =>
      if liveAfterReopen s k r ≤ 8 then
        let n := nextReel r.current
        let s := commitHead k true s
        match mirror k c n s with
        | some s => s
        | none => complete c stSuccess 0 (place n 32 32) s
      else s

/-- A waiting commit expires and the writer stays open (R94). -/
def timeoutCommitWait (k : Nat) (s : State) : State :=
  match (region s k).bind (·.writer) with
  | none => s
  | some w => match w.commitWait with
    | some (some t, c) =>
      reject c stTimeout (updRegion k (fun r => { r with writer := r.writer.map fun w => { w with commitWait := none } }) (clockTo t s))
    | _ => s

end Sys2Proof.Machine
end

