-- ==== Sys2Proof/Machine/RouteOps.lean ====
section
/-! DEFINITION. Range-gate, route-table and port commands (Table 2.18, R449, R321, R63, R64, R362, R363) and which ports are usable (R69). -/

namespace Sys2Proof.Machine

/-- FAILOVER_QUIET_US of the epoch in force (Table 3.12). -/
def failoverQuiet (s : State) : Nat :=
  let v := bits (mapVal s .rngRouteCtl 0) 16 16
  if v = 0 then 128 else v

/-- A path group changes: its new requests are held for FAILOVER_QUIET_US from now (R77); a hold that already runs starts again. -/
def startHold (ports : Nat) (s : State) : State :=
  let (now, s) := clock s
  { s with fab := { s.fab with holds := (s.fab.holds.filter fun h => h.ports != ports) ++ [⟨ports, now + failoverQuiet s * 1000⟩] } }

/-- The usable state of a port changed: every path group with it is held (R77). -/
def usableChanged (p : Nat) (s : State) : State :=
  (s.fab.nodes.filter fun e => e.2.ports.testBit p).foldl (fun s e => startHold e.2.ports s) s

/-- Holds for every port whose usable state differs between two states (R77). -/
def holdDiff (old new : State) : State :=
  (List.range 20).foldl (fun s p => if usable old p = usable new p then s else usableChanged p s) new

/-- Does a NODE entry give some node another PORT_SET than a map gave it? -/
def movesPath (old : State) (e : NodeEntry) : Bool := old.fab.nodes.any fun o => o.2.lo ≤ e.hi && e.lo ≤ o.2.hi && o.2.ports != e.ports

/-- What a boundary holds (R77): the groups that nodes with an earlier path now take instead of it, and those with a port whose usable state the commit changed. -/
def holdMap (old new : State) : State :=
  holdDiff old ((new.fab.nodes.filter fun e => movesPath old e.2).foldl (fun s e => startHold e.2.ports s) new)

/-- Field check of RNG.ADD (Table 2.18, R57). -/
def stageRngAdd (d : Desc) : Option Nat :=
  let edge := opf d 20 3 1 = 1
  let base := opf d 24 0 64
  let size := opf d 32 0 64
  if !onlyFields d [(16, 0, 14), (18, 0, 14), (20, 0, 4), (22, 0, 14), (24, 0, 64), (32, 0, 64)]
    || (!edge && opf d 22 0 14 != 0) || base % 0x10000 != 0 || size % 0x10000 != 0 || size = 0 || 2 ^ 48 < base + size
  then some stBadField else none

/-- The entry that RNG.ADD writes. -/
def rngEntry (d : Desc) : RngEntry :=
  ⟨opf d 18 0 14, dtent d, opf d 20 3 1 = 1, opf d 22 0 14, opf d 20 2 1 = 1, opf d 20 1 1 = 1, opf d 20 0 1 = 1, opf d 24 0 64, opf d 32 0 64⟩

/-- Is a node in a tent's source list (Table 14.6)? -/
def listed (t : Tent) (node : Nat) : Bool := t.sources.any (·.node = node)

/-- RNG.ADD applied (R449, Table 14.6). -/
def applyRngAdd (d : Desc) (s : State) : ApplyRes :=
  let i := opf d 16 0 14
  let e := rngEntry d
  match tent s e.tent with
  | none => bad stNotFound
  | some t =>
    if fresh s (t.state != .active) then bad stNotPermitted
    else if t.isSealed && !listed t e.source then bad stNotPermitted
    else if has s.fab.gate i then bad stResourceBusy
    else if e.edge then
      if s.fab.gate.any fun x => x.2.edge && x.2.source = e.source && x.2.target = e.target && overlaps x.2.base x.2.size e.base e.size then bad stRangeOverlap
      else if (edgePortOf s e.target).isNone then bad stBadField
      else good { s with fab := { s.fab with gate := put s.fab.gate i e } }
    else if s.fab.gate.any fun x => !x.2.edge && x.2.source = e.source && x.2.tent = e.tent && overlaps x.2.base x.2.size e.base e.size then bad stRangeOverlap
    else if s.pool.regions.any fun r => r.2.owner != e.tent && overlaps r.2.base r.2.size e.base e.size then bad stNotOwner
    else good { s with fab := { s.fab with gate := put s.fab.gate i e } }

/-- Field check of RNG.REMOVE (Table 14.3). -/
def stageRngRemove (d : Desc) : Option Nat := if onlyFields d [(16, 0, 14)] then none else some stBadField

/-- RNG.REMOVE applied (R321). -/
def applyRngRemove (d : Desc) (s : State) : ApplyRes :=
  let i := opf d 16 0 14
  match find s.fab.gate i with
  | some e => if e.tent = dtent d then good { s with fab := { s.fab with gate := del s.fab.gate i } } else bad stNotFound
  | none => bad stNotFound

/-- Field check of RNG.MODIFY (Table 14.3). -/
def stageRngModify (d : Desc) : Option Nat := if onlyFields d [(16, 0, 14), (20, 0, 3)] then none else some stBadField

/-- RNG.MODIFY applied (R321). -/
def applyRngModify (d : Desc) (s : State) : ApplyRes :=
  let i := opf d 16 0 14
  match find s.fab.gate i with
  | some e =>
    if e.tent = dtent d then
      let e' := { e with eng := opf d 20 2 1 = 1, wr := opf d 20 1 1 = 1, rd := opf d 20 0 1 = 1 }
      good { s with fab := { s.fab with gate := put s.fab.gate i e' } }
    else bad stNotFound
  | none => bad stNotFound

/-- Operand bytes a route kind uses (Table 3.3). -/
def routeFields (kind : Nat) : List (Nat × Nat × Nat) :=
  if kind = 0 then [(16, 0, 8), (18, 0, 12), (20, 0, 14), (22, 0, 14), (24, 0, 20)]
  else if kind = 1 then [(16, 0, 8), (17, 0, 5), (18, 0, 12), (20, 0, 14), (32, 0, 64), (40, 0, 64), (48, 0, 64)]
  else if kind = 2 then [(16, 0, 8), (17, 0, 5), (20, 0, 14)]
  else [(16, 0, 8), (20, 0, 14)]

/-- Field check of ROUTE.SET (Table 3.3). -/
def stageRouteSet (d : Desc) : Option Nat :=
  let kind := opf d 16 0 8
  if 3 < kind || !onlyFields d (routeFields kind) then some stBadField
  else if kind = 0 then
    if opf d 22 0 14 < opf d 20 0 14 || opf d 24 0 20 = 0 then some stBadField else none
  else if kind = 1 then
    if 19 < opf d 17 0 5 || 15 < opf d 18 0 12 || opf d 32 0 64 % 0x10000 != 0 || opf d 40 0 64 % 0x10000 != 0
      || opf d 40 0 64 = 0 || opf d 48 0 64 % 0x10000 != 0 || 2 ^ 48 ≤ opf d 48 0 64 then some stBadField else none
  else if kind = 2 then (if 19 < opf d 17 0 5 then some stBadField else none)
  else none

/-- Is a port named by the source list of some sealed tent (Table 14.6)? -/
def sealedPort (s : State) (p : Nat) : Bool := s.kpr.tents.any fun t => t.2.isSealed && t.2.sources.any (·.port = p)

/-- A NODE entry breaks the edge-port rule of R64. -/
def badEdgeSet (s : State) (e : NodeEntry) : Bool :=
  (setBits 20 e.ports).any fun p => edgeRole (port s p).role && !(e.ports = 2 ^ p && e.lo = e.hi && attachOf s p = some e.lo)

/-- A NODE entry breaks the port-based-routing rule of R60. -/
def badPbrSet (s : State) (e : NodeEntry) : Bool :=
  4096 ≤ e.hi && (setBits 20 e.ports).any fun p => (port s p).mode = 2

/-- Distinct values of a list. -/
def distinct : List Nat → List Nat
  | [] => []
  | x :: xs => insNat (distinct xs) x

/-- R64 over the state that results: the status of the first fault. -/
def routeFault (s : State) : Option Nat :=
  if s.fab.nodes.any fun a => s.fab.nodes.any fun b => a.1 != b.1 && a.2.lo ≤ b.2.hi && b.2.lo ≤ a.2.hi then some stRangeOverlap
  else if s.fab.nodes.any fun a => s.fab.self.any fun n => a.2.lo ≤ n && n ≤ a.2.hi then some stRangeOverlap
  else if s.fab.decoders.any fun a => s.fab.decoders.any fun b => a.1 != b.1 && a.1 / 16 = b.1 / 16 && overlaps a.2.base a.2.size b.2.base b.2.size then some stRangeOverlap
  else if 256 < (distinct (s.fab.nodes.map fun e => e.2.ports)).length then some stNoResource
  else if s.fab.nodes.any fun e => badEdgeSet s e.2 then some stBadField
  else if s.fab.nodes.any fun e => badPbrSet s e.2 then some stBadField
  else none

/-- ROUTE.SET applied (R63, Table 14.6); the faults of R64 are found in the state that the whole take leaves. -/
def applyRouteSet (d : Desc) (s : State) : ApplyRes :=
  let kind := opf d 16 0 8
  let p := opf d 17 0 5
  let i := opf d 18 0 12
  let node := opf d 20 0 14
  if kind = 2 && sealedPort s p then bad stNotPermitted else
  good (
    if kind = 0 then { s with fab := { s.fab with nodes := put s.fab.nodes i ⟨node, opf d 22 0 14, opf d 24 0 20⟩ } }
    else if kind = 1 then { s with fab := { s.fab with decoders := put s.fab.decoders (p * 16 + i) ⟨node, opf d 32 0 64, opf d 40 0 64, opf d 48 0 64⟩ } }
    else if kind = 2 then { s with fab := { s.fab with attach := put s.fab.attach p node } }
    else { s with fab := { s.fab with self := some node } })

/-- Field check of ROUTE.CLEAR (R63). -/
def stageRouteClear (d : Desc) : Option Nat :=
  let kind := opf d 16 0 8
  if 3 < kind || !onlyFields d [(16, 0, 8), (17, 0, 5), (18, 0, 12)] then some stBadField
  else if (kind = 0 || kind = 3) && opf d 17 0 5 != 0 then some stBadField
  else if (kind = 1 || kind = 2) && 19 < opf d 17 0 5 then some stBadField
  else if kind = 1 && 15 < opf d 18 0 12 then some stBadField
  else if (kind = 2 || kind = 3) && opf d 18 0 12 != 0 then some stBadField
  else none

/-- ROUTE.CLEAR applied (R63, Table 14.6). -/
def applyRouteClear (d : Desc) (s : State) : ApplyRes :=
  let kind := opf d 16 0 8
  let p := opf d 17 0 5
  let i := opf d 18 0 12
  if kind = 2 && sealedPort s p then bad stNotPermitted
  else if kind = 0 then
    if has s.fab.nodes i then good { s with fab := { s.fab with nodes := del s.fab.nodes i } } else bad stNotFound
  else if kind = 1 then
    if has s.fab.decoders (p * 16 + i) then good { s with fab := { s.fab with decoders := del s.fab.decoders (p * 16 + i) } } else bad stNotFound
  else if kind = 2 then
    if has s.fab.attach p then good { s with fab := { s.fab with attach := del s.fab.attach p } } else bad stNotFound
  else match s.fab.self with
    | some _ => good { s with fab := { s.fab with self := none } }
    | none => bad stNotFound

/-- Does a role allow a mode (Table 16.1)? -/
def modeAllowed (role mode : Nat) : Bool :=
  if role = 0 then true else if role = 1 || role = 2 then mode != 2 else if role = 3 then mode = 1 else mode != 0

/-- Field check of PORT.SET_ROLE (Table 16.2, R362, R445). -/
def stagePortSetRole (d : Desc) : Option Nat :=
  let role := opf d 17 0 3
  let mode := opf d 18 0 2
  if !onlyFields d [(16, 0, 5), (17, 0, 3), (18, 0, 2), (19, 0, 1)] || 19 < opf d 16 0 5 || 4 < role || mode = 3
    || !modeAllowed role mode || (opf d 19 0 1 = 1 && role != 4) then some stBadField
  else if (opf d 19 0 1 = 1 && fused 11) || (mode = 2 && fused 15) then some stFeatureDisabled
  else none

/-- PORT.SET_ROLE applied (R362, R363, R330, Table 14.6): a port that is not trained so already retrains and accepts nothing until L0. The boundary holds its groups (`holdMap`). -/
def applyPortSetRole (d : Desc) (s : State) : ApplyRes :=
  let p := opf d 16 0 5
  let role := opf d 17 0 3
  let mode := opf d 18 0 2
  let ide := opf d 19 0 1 = 1
  let x := port s p
  if fresh s (pdOff s (pdFabric p)) then bad stPowerOff
  else if sealedPort s p then bad stNotPermitted
  else
    let changed := x.role != role || wireMode x != mode || x.ide != ide
    let again := changed && !(!x.roleSet && x.trainMode = mode && !ide)
    let y := { x with
      role := role, mode := mode, ide := ide, roleSet := true
      enable := if x.role = 0 && role != 0 then true else x.enable
      ideUp := if changed then false else x.ideUp
      link := if again && x.link = .l0 then .retrain else x.link
      blocked := x.blocked || (again && (x.link = .l0 || x.link = .retrain)) }
    good (updPort p (fun _ => y) (if again && (x.link = .l0 || x.link = .retrain) then noteRetrain p s else s))

/-- Field check of PORT.ENABLE (Table 16.2). -/
def stagePortEnable (d : Desc) : Option Nat :=
  if !onlyFields d [(16, 0, 5), (17, 0, 1)] || 19 < opf d 16 0 5 then some stBadField else none

/-- PORT.ENABLE applied (R363). -/
def applyPortEnable (d : Desc) (s : State) : ApplyRes :=
  let p := opf d 16 0 5
  if fresh s (pdOff s (pdFabric p)) then bad stPowerOff
  else good (updPort p (fun x => { x with enable := opf d 17 0 1 = 1 }) s)

/-- Field check of PORT.RETRAIN (Table 16.2). -/
def fieldsPortRetrain (d : Desc) : Option Nat :=
  if !onlyFields d [(16, 0, 5), (17, 0, 2)] || 19 < opf d 16 0 5 || opf d 17 0 2 = 3 then some stBadField else none

/-- Body of PORT.RETRAIN (R364): the link retrains, and the command waits for L0 or the limit. -/
def bodyPortRetrain (d : Desc) (c : CRef) (s : State) : State :=
  let p := opf d 16 0 5
  if pdOff s (pdFabric p) then reject c stPowerOff s
  else
    let s := noteRetrain p s
    holdDiff s (updPort p (fun x => { x with maxRate := opf d 17 0 2, retrain := x.retrain ++ [c], link := if x.link = .l0 then .retrain else x.link }) s)

end Sys2Proof.Machine
end

