-- ==== Sys2Proof/Machine/QmgrOps.lean ====
section
/-! DEFINITION. Hardware queues, tent command queues, shapers, admission and weights (chapter 13). -/

namespace Sys2Proof.Machine

/-- Operand fields of QUEUE.CREATE (Table 13.6). -/
def queueFields : List (Nat × Nat × Nat) :=
  [(16, 0, 20), (20, 0, 3), (21, 0, 8), (22, 0, 5), (23, 0, 4), (24, 0, 14), (28, 0, 32), (32, 0, 32), (40, 0, 64)]

/-- Field check of QUEUE.CREATE (Table 13.6). -/
def stageQueueCreate (d : Desc) : Option Nat :=
  let n := opf d 22 0 5
  let e := opf d 23 0 4
  if !onlyFields d queueFields || n < 6 || 20 < n || e < 6 || 12 < e || 30 < n + e || opf d 40 0 64 % 4096 != 0 then some stBadField else none

/-- The ring lies in one region the tent owns (R306). -/
def ringOwned (s : State) (t base len : Nat) : Bool :=
  s.pool.regions.any fun e => e.2.owner = t && covers e.2.base e.2.size base len

/-- SOURCE holds an entry of the tent with RD and WR over a range (R306). -/
def sourceCovers (s : State) (t src base len : Nat) : Bool :=
  s.fab.gate.any fun e => !e.2.edge && e.2.source = src && e.2.tent = t && e.2.rd && e.2.wr && covers e.2.base e.2.size base len

/-- QUEUE.CREATE applied (R306). -/
def applyQueueCreate (d : Desc) (s : State) : ApplyRes :=
  let k := opf d 16 0 20
  let n := opf d 22 0 5
  let e := opf d 23 0 4
  let t := dtent d
  let src := opf d 24 0 14
  let base := opf d 40 0 64
  if has s.qm.queues k then bad stResourceBusy
  else if (tent s t).isNone || fresh s (!clapOk s (some t) (opf d 28 0 32) || !clapOk s (some t) (opf d 32 0 32)) then bad stNotFound
  else if !ringOwned s t base (2 ^ (n + e)) then bad stNotOwner
  else if !sourceCovers s t src base (2 ^ (n + e)) then bad stNotPermitted
  else
    let x : HwQueue := { tent := t, cls := opf d 20 0 3, weight := opf d 21 0 8, n := n, e := e, source := src
                         put := clapName (opf d 28 0 32), get := clapName (opf d 32 0 32), base := base }
    good { s with qm := { s.qm with queues := put s.qm.queues k x } }

/-- Field check of QUEUE.DESTROY (Table 13.6). -/
def stageQueueDestroy (d : Desc) : Option Nat := if onlyFields d [(16, 0, 20)] then none else some stBadField

/-- Remove a hardware queue. -/
def removeQueue (k : Nat) (s : State) : State :=
  { s with qm := { s.qm with queues := del s.qm.queues k, hot := delNat s.qm.hot k } }

/-- QUEUE.DESTROY applied (R307). -/
def applyQueueDestroy (d : Desc) (s : State) : ApplyRes :=
  let k := opf d 16 0 20
  match find s.qm.queues k with
  | none => bad stNotFound
  | some x => if x.tent = dtent d then good (removeQueue k s) else bad stNotOwner

/-- Field check of CMDQ.CREATE (Table 13.8). -/
def stageCmdqCreate (d : Desc) : Option Nat :=
  let n := opf d 17 0 8
  if !onlyFields d [(16, 0, 4), (17, 0, 8), (18, 0, 14), (20, 0, 32), (24, 0, 64)] || n < 6 || 16 < n || opf d 24 0 64 % 4096 != 0
  then some stBadField else none

/-- CMDQ.CREATE applied (R314, Table 14.6). -/
def applyCmdqCreate (d : Desc) (s : State) : ApplyRes :=
  let t := dtent d
  let key := t * 16 + opf d 16 0 4
  let n := opf d 17 0 8
  let src := opf d 18 0 14
  let base := opf d 24 0 64
  if has s.gaf.cmdqs key then bad stResourceBusy
  else match tent s t with
  | none => bad stNotFound
  | some x =>
    if x.isSealed && !listed x src then bad stNotPermitted
    else if fresh s (!clapOk s (some t) (opf d 20 0 32)) then bad stNotFound
    else if !ringOwned s t base (2 ^ n * 80) then bad stNotOwner
    else if !sourceCovers s t src base (2 ^ n * 80) then bad stNotPermitted
    else
      let q : CmdQueue := { enable := true, n := n, base := base, source := src, notify := clapName (opf d 20 0 32), vtag := s.gaf.vtime,
                             gen := s.gaf.nextGen }
      good { s with gaf := { s.gaf with cmdqs := put s.gaf.cmdqs key q, nextGen := s.gaf.nextGen + 1 } }

/-- Field check of CMDQ.DESTROY (Table 13.8). -/
def stageCmdqDestroy (d : Desc) : Option Nat := if onlyFields d [(16, 0, 4)] then none else some stBadField

/-- A tent command queue is destroyed: commands not fetched are discarded, running ones post nothing (R314). -/
def removeCmdq (key : Nat) (s : State) : State :=
  { s with gaf := { s.gaf with cmdqs := del s.gaf.cmdqs key } }

/-- CMDQ.DESTROY applied (R314). -/
def applyCmdqDestroy (d : Desc) (s : State) : ApplyRes :=
  let key := dtent d * 16 + opf d 16 0 4
  if has s.gaf.cmdqs key then good (removeCmdq key s) else bad stNotFound

/-- Highest RES_INDEX of a resource kind (Table 13.3). -/
def resMax (kind : Nat) : Nat := if kind = 0 then 19 else if kind = 1 then 0 else 7

/-- Field check of SHAPER.SET (Table 13.4, R301, R445). -/
def stageShaperSet (d : Desc) : Option Nat :=
  let cir := opf d 20 0 32
  let pir := opf d 24 0 32
  let cbs := opf d 28 0 32
  let pbs := opf d 32 0 32
  let resv := opf d 18 6 1 = 1
  let kind := opf d 19 5 2
  if opf d 18 7 1 = 1 then
    if onlyFields d [(16, 0, 12), (18, 7, 1)] then none else some stBadField
  else if !onlyFields d [(16, 0, 12), (18, 4, 4), (18, 0, 3), (19, 0, 7), (20, 0, 32), (24, 0, 32), (28, 0, 32), (32, 0, 32)]
    || (opf d 18 4 1 = 1 && opf d 18 0 3 != 0) || resMax kind < opf d 19 0 5
    || pir = 0 || pir < cir
    || (if cir = 0 then cbs != 0 && (cbs < 4096 || 2 ^ 30 < cbs) else cbs < 4096 || 2 ^ 30 < cbs)
    || pbs < 4096 || 2 ^ 30 < pbs
    || (resv && (kind = 1 || cir = 0 || cir != pir || cbs != pbs)) then some stBadField
  else if resv && fused 14 then some stFeatureDisabled
  else none

/-- SHAPER.SET applied (R301, R302): the boundary sets the time from which the buckets gain and the slots count. -/
def applyShaperSet (d : Desc) (s : State) : ApplyRes :=
  let k := opf d 16 0 12
  if opf d 18 7 1 = 1 then
    if has s.qm.shapers k then good { s with qm := { s.qm with shapers := del s.qm.shapers k } } else bad stNotFound
  else if (tent s (dtent d)).isNone then bad stNotFound
  else
    let wide := opf d 18 4 1 = 1
    let cls := opf d 18 0 3
    let kind := opf d 19 5 2
    let ix := opf d 19 0 5
    let zero := opf d 18 5 1 = 1
    let cbs := opf d 28 0 32
    let pbs := opf d 32 0 32
    if s.qm.shapers.any fun e => e.1 != k && e.2.tent = dtent d && e.2.kind = kind && e.2.index = ix && (e.2.wide || wide || e.2.cls = cls) then bad stResourceBusy
    else
      let x : Shaper := { tent := dtent d, reserved := opf d 18 6 1 = 1, wide := wide, cls := cls, kind := kind, index := ix, cir := opf d 20 0 32, pir := opf d 24 0 32
                          cbs := cbs, pbs := pbs, committed := if zero then 0 else cbs * 1000, peak := if zero then 0 else pbs * 1000, stamp := s.now }
      good { s with qm := { s.qm with shapers := put s.qm.shapers k x } }

/-- Lane rate of a RATE or MAX_RATE code in GT/s. -/
def rateGT (code : Nat) : Nat := if code = 3 then 128 else if code = 2 then 64 else if code = 1 then 32 else 0

/-- MAX_RATE code in GT/s (Table 16.2). -/
def maxRateGT (code : Nat) : Nat := if code = 0 then 128 else if code = 1 then 64 else 32

/-- Capacity of fabric egress port p in MB/s at its present rate (Table 13.5, R366). -/
def portCapacity (s : State) (p : Nat) : Nat :=
  let x := port s p
  if x.link = .l0 then 238000 * (rateGT x.rate * x.width) / (128 * 16) else 238000 * maxRateGT x.maxRate / 128

/-- Four times the CIR of a tent's TIER0 shaper that falls on a stack: the whole, a half or a quarter of it (Table 13.5). -/
def tier0Share (s : State) (k : Nat) (x : Shaper) : Nat :=
  match tent s x.tent with
  | none => 0
  | some t =>
    if (stacksOf t.span t.stackSel).contains k then 4 * x.cir / (stacksOf t.span t.stackSel).length else 0

/-- Four times the committed sum, and the capacity, of a resource code (Table 13.5, R303). -/
def admitSum4 (s : State) (code : Nat) : Nat × Nat :=
  let kind := bits code 8 2
  let i := bits code 0 5
  let xs := s.qm.shapers.map Prod.snd
  let sum := if kind = 1 then (xs.filter fun x => x.kind = 1).foldl (fun a x => a + tier0Share s i x) 0
             else (xs.filter fun x => x.kind = kind && x.index = i).foldl (fun a x => a + 4 * x.cir) 0
  (sum, if kind = 0 then portCapacity s i else if kind = 1 then 2457600 else if kind = 2 then 112000 else 1638400)

/-- Committed sum and capacity of a resource code in MB/s (Tables 13.5 and 13.22); a fraction of a sum is not shown. -/
def admitSum (s : State) (code : Nat) : Nat × Nat := ((admitSum4 s code).1 / 4, (admitSum4 s code).2)

/-- Does a resource's committed sum exceed its capacity (R303)? -/
def overCommitted (s : State) (code : Nat) : Bool := 4 * (admitSum4 s code).2 < (admitSum4 s code).1

/-- Resource codes in the order of Table 13.5. -/
def admitCodes : List Nat :=
  (List.range 20) ++ (List.range 4).map (0x100 + ·) ++ (List.range 8).map (0x200 + ·) ++ (List.range 8).map (0x300 + ·)

/-- First resource over its capacity, with its sum (R303). -/
def admitFault (s : State) : Option (Nat × Nat) :=
  (admitCodes.find? (overCommitted s)).map fun c => (c, (admitSum s c).1)

/-- The OVER bits set now: fabric ports whose sum exceeds the present capacity (R304). -/
def overPort (s : State) (p : Nat) : Bool := overCommitted s p

/-- A rate change that sets an OVER bit sets GAF_ATTN.ADMIT_OVER (Table 19.8). -/
def noteOver (old new : State) : State :=
  if (List.range 20).any fun p => overPort new p && !overPort old p then attn 9 new else new

/-! ### Doorbell words -/

/-- Write TAIL of a command queue (R33). -/
def doorbell (q : QId) (v : Nat) (s : State) : State :=
  match getQ s q with
  | none => s
  | some x =>
    let m := 2 ^ x.n
    if v < m && (x.tail + m - x.head) % m ≤ (v + m - x.head) % m then
      updQ q (fun x => { x with tail := v, lastTail := v, vtag := if backlog x = 0 then s.gaf.vtime else x.vtag }) s
    else queueError q (updQ q (fun x => { x with lastTail := v % 65536 }) s)

/-- Write CQ_HEAD of a command queue (R36). -/
def cqHeadWrite (q : QId) (v : Nat) (s : State) : State :=
  match getQ s q with
  | none => s
  | some x =>
    let m := 2 ^ x.n
    let k := (v + m - x.cqHead) % m
    if v < m && k ≤ x.posted then updQ q (fun x => { x with cqHead := v, posted := x.posted - k }) s
    else queueError q s

/-- ENABLE changes from 0 to 1 (R451, Table 13.7): the operator queue reads BASE and SIZE_LOG2 and checks the placement. Two points here are the model's choice (DESIGN CHOICE, log entry 45): with another SIZE_LOG2 than before, HEAD, CQ_HEAD and CQ_TAIL are reduced modulo the new size, the completions not consumed still count and PHASE stays; and a doorbell written while ENABLE was 0 is discarded on the operator queue and counts on a tent queue. -/
def enableQueue (q : QId) (s : State) : State :=
  match getQ s q with
  | none => s
  | some x =>
    if x.enable then s else
    match q with
    | .tent _ _ => updQ q (fun x => { x with enable := true, stopped := false }) s
    | .operator =>
      let base := fld s .gafCmdqBase 0 12 52 * 4096
      let n := fld s .gafCmdqCtl 0 16 5
      let s := setFld .gafCmdqCtl 0 0 1 1 s
      let s := updQ q (fun x => { x with enable := true, stopped := false, base := base, n := n, vtag := s.gaf.vtime,
                                         head := x.head % 2 ^ n, tail := x.head % 2 ^ n, cqHead := x.cqHead % 2 ^ n, cqTail := x.cqTail % 2 ^ n }) s
      if inWindow base (2 ^ n * 80) then s else queueError q s

/-- ENABLE is cleared: commands not fetched are discarded and TAIL takes HEAD (R33). -/
def disableQueue (q : QId) (s : State) : State :=
  let s := updQ q (fun x => { x with enable := false, tail := x.head }) s
  match q with
  | .operator => setFld .gafCmdqCtl 0 0 1 0 s
  | .tent _ _ => s

/-- The hot-state cache serves an operation on queue `k` (R313): hit or miss counted, least recently used state leaves. -/
def touchHot (k : Nat) (s : State) : State :=
  if s.qm.hot.contains k then bump .qmgCache 0 32 32 1 { s with qm := { s.qm with hot := k :: s.qm.hot.filter (· != k) } }
  else bump .qmgCache 0 0 32 1 { s with qm := { s.qm with hot := k :: s.qm.hot.take 65535 } }

/-- Change a hardware queue. -/
def updHw (k : Nat) (f : HwQueue → HwQueue) (s : State) : State :=
  { s with qm := { s.qm with queues := upd s.qm.queues k f } }

/-- An invalid counter write: ERROR and DOORBELL_BAD (R309). -/
def doorbellBad (k : Nat) (s : State) : State := bump .qmgErrors 0 48 16 1 (updHw k (fun x => { x with error := true }) s)

/-- Write TAIL of a hardware queue (R309, R311): done, and the state. -/
def hwTail (k : Nat) (v : BitVec 32) (s : State) : Bool × State :=
  match find s.qm.queues k with
  | none => (false, s)
  | some x =>
    let s := touchHot k s
    if x.error then (false, s)
    else if (v - x.tail).toNat ≤ 2 ^ x.n - (x.tail - x.head).toNat then
      (true, clapOpt x.put (v - x.tail).toNat (updHw k (fun x => { x with tail := v }) s))
    else (false, doorbellBad k s)

/-- Write HEAD of a hardware queue with RESET 0 (R309, R311). -/
def hwHead (k : Nat) (v : BitVec 32) (s : State) : Bool × State :=
  match find s.qm.queues k with
  | none => (false, s)
  | some x =>
    let s := touchHot k s
    if x.error then (false, s)
    else if (v - x.head).toNat ≤ (x.tail - x.head).toNat then
      (true, clapOpt x.get (v - x.head).toNat (updHw k (fun x => { x with head := v }) s))
    else (false, doorbellBad k s)

/-- Write HEAD of a hardware queue with RESET 1 (R309). -/
def hwReset (k : Nat) (v : BitVec 32) (s : State) : Bool × State :=
  match find s.qm.queues k with
  | none => (false, s)
  | some _ => (true, updHw k (fun x => { x with head := v, tail := v, error := false }) (touchHot k s))

/-- Outcome of qput and qget (R310). -/
inductive QRes where
  | done | full | error
deriving DecidableEq, Repr

/-- Ring slot address of entry i. -/
def slotAddr (x : HwQueue) (i : BitVec 32) : Nat := x.base + (i.toNat % 2 ^ x.n) * 2 ^ x.e

/-- A ring access refused or failed (R310). -/
def ringRefused (k : Nat) (s : State) : State := bump .qmgErrors 0 32 16 1 (updHw k (fun x => { x with error := true }) s)

/-- Enqueue one entry (R310, R311); the ring access is of the queue's class (R293). -/
def qPut (k : Nat) (bs : List Byte) (marks : Nat) (s : State) : QRes × State :=
  match find s.qm.queues k with
  | none => (.error, s)
  | some x =>
    let s := touchHot k s
    if x.error then (.error, s)
    else if (x.tail - x.head).toNat = 2 ^ x.n then (.full, s)
    else
      let (ok, s) := engWriteS x.source x.tent (slotAddr x x.tail) bs s marks x.cls
      if ok then (.done, clapOpt x.put 1 (updHw k (fun x => { x with tail := x.tail + 1 }) s)) else (.error, ringRefused k s)

/-- Dequeue one entry (R310, R311); the ring access is of the queue's class (R293). -/
def qGet (k : Nat) (s : State) : QRes × List Byte × Nat × State :=
  match find s.qm.queues k with
  | none => (.error, [], 0, s)
  | some x =>
    let s := touchHot k s
    if x.error then (.error, [], 0, s)
    else if x.tail = x.head then (.full, [], 0, s)
    else match engRead x.source x.tent (slotAddr x x.head) (2 ^ x.e) s x.cls with
    | (some r, s) => (.done, r.data, r.mask, clapOpt x.get 1 (updHw k (fun x => { x with head := x.head + 1 }) s))
    | (none, s) => (.error, [], 0, ringRefused k s)

end Sys2Proof.Machine
end

