-- ==== Sys2Proof/Machine/TentOps.lean ====
section
/-! DEFINITION. Tents: creation with key and sources (R317, R325, R326), sealing, consent (R333), MEM.CLEAR (R329), claims (R50, R424, R447), replicas (R349), guy-line and rushes settings (R339, R351). -/

namespace Sys2Proof.Machine

/-- Change one tent. -/
def updTent (t : Nat) (f : Tent → Tent) (s : State) : State :=
  { s with kpr := { s.kpr with tents := upd s.kpr.tents t f } }

/-- Bytes of the operator window. -/
def windowRead (s : State) (off n : Nat) : List Byte := readBytes s.gaf.window off n

/-- Store bytes in the operator window. -/
def windowWrite (off : Nat) (bs : List Byte) (s : State) : State :=
  { s with gaf := { s.gaf with window := writeBytes s.gaf.window off bs } }

/-- One 8-byte source-list entry: node and port, none when a fixed bit is set or the port is above 19 (R317). -/
def parseSource (bs : List Byte) : Option Source :=
  let v := leNat bs
  if bits v 14 2 = 0 && bits v 21 3 = 0 && bits v 24 40 = 0 && bits v 16 5 ≤ 19 then some ⟨bits v 0 14, bits v 16 5, .pending, none⟩ else none

/-- A source list of n entries (R317): no node twice. -/
def parseSources : Nat → List Byte → Option (List Source)
  | 0, _ => some []
  | n + 1, bs =>
    match parseSource (bs.take 8), parseSources n (bs.drop 8) with
    | some x, some xs => if xs.any (·.node = x.node) then none else some (x :: xs)
    | _, _ => none

/-- Bytes TENT.CREATE copies at staging: the source list and the tenant key (R317, R42). -/
def copyTentCreate (d : Desc) (s : State) : List Byte :=
  windowRead s (opf d 24 0 64) (8 * opf d 18 0 8) ++ (if opf d 32 0 64 = 0 then [] else windowRead s (opf d 32 0 64) 96)

/-- Field check of TENT.CREATE at staging, copied bytes included (Table 14.1, R317, R384, R445). -/
def stageTentCreate (s : State) (d : Desc) : Option Nat :=
  let span := opf d 16 2 2
  let sel := opf d 16 0 2
  let n := opf d 18 0 8
  let list := opf d 24 0 64
  let key := opf d 32 0 64
  if !onlyFields d [(16, 7, 1), (16, 0, 4), (17, 0, 7), (18, 0, 8), (24, 0, 64), (32, 0, 64)]
    || span = 3 || (span = 0 && sel != 0) || (span = 1 && sel % 2 != 0)
    || 64 < n || (opf d 16 7 1 = 1 && n = 0)
    || list % 64 != 0 || (n = 0 && list != 0) || !inWindow list (8 * n) || (key != 0 && !inWindow key 96)
    || (parseSources n (windowRead s list (8 * n))).isNone
    || (key != 0 && !Config.onCurve (windowRead s key 96)) then some stBadField
  else if opf d 16 7 1 = 1 && fused 13 then some stFeatureDisabled
  else none

/-- A free key slot (R317, R326). -/
def freeSlot (s : State) : Option Nat := firstFree s.kpr.slots 0 128

/-- TENT.CREATE applied (R317): the keeper takes a slot and generates its key. -/
def applyTentCreate (d : Desc) (copied : List Byte) (s : State) : ApplyRes :=
  let t := dtent d
  let n := opf d 18 0 8
  match parseSources n copied with
  | none => bad stBadField
  | some srcs =>
    if srcs.any fun x => attachOf s x.port != some x.node || !edgeRole (port s x.port).role then bad stBadField
    else if (tent s t).isSome then bad stResourceBusy
    else match freeSlot s with
    | none => bad stNoResource
    | some k =>
      let x : Tent := { state := .active, isSealed := opf d 16 7 1 = 1, span := opf d 16 2 2, stackSel := opf d 16 0 2, seed := opf d 17 0 7
                        slot := k, sources := srcs, tenantKey := if opf d 32 0 64 = 0 then none else some (copied.drop (8 * n)) }
      let s := { s with kpr := { s.kpr with tents := put s.kpr.tents t x, slots := put s.kpr.slots k s.kpr.nextKey, nextKey := s.kpr.nextKey + 1 } }
      good (if x.isSealed then srcs.foldl (fun s y => emit (.spdmReq false y.port 0) s) s else s)

/-- Field check of a command without operands. -/
def fieldsNone (d : Desc) : Option Nat := if d.ops = 0 then none else some stBadField

/-- A key slot is held by its tent or by a region made under it (R326). -/
def slotHeld (s : State) (k : Nat) : Bool :=
  (s.kpr.tents.any fun t => t.2.slot = k) || (s.pool.regions.any fun r => r.2.slot = k)

/-- Slots that nothing holds are zeroised and free (R326). -/
def dropSlots (s : State) : State :=
  { s with kpr := { s.kpr with slots := s.kpr.slots.filter fun e => slotHeld s e.1 } }

/-- Tents in CLEARING with nothing left to clear are ABSENT, and slots without a holder are free (R318, R326, Table 14.2). -/
def endTents (s : State) : State :=
  dropSlots { s with kpr := { s.kpr with tents := s.kpr.tents.filter fun e => !(e.2.state = .clearing && e.2.clearing.isEmpty) } }

/-- Every region of a tent reads as poisoned from the fence on (R319). -/
def killKeys (t : Nat) (s : State) : State :=
  { s with pool := { s.pool with regions := s.pool.regions.map fun e => (e.1, if e.2.owner = t then { e.2 with keyDead := true } else e.2) } }

/-- Regions a tent owns. -/
def regionsOf (s : State) (t : Nat) : List Nat := (s.pool.regions.filter fun e => e.2.owner = t).map Prod.fst

/-- Close the reader handles of a tent (Table 4.6). -/
def closeReaders (t : Nat) (s : State) : State :=
  (s.pool.handles.filter fun h => h.2.tent = t && !h.2.writer).foldl (fun s h => (closeReader h.1 h.2 s).2) s

/-- Waits on clappers of a fenced tent complete with ABORTED (R54). -/
def abortWaits (p : Nat → Wait → Bool) (s : State) : State :=
  (s.gaf.waits.filter fun w => p w.1 w.2).foldl (fun s w =>
    let s := { s with gaf := { s.gaf with waits := del s.gaf.waits w.1, fired := del s.gaf.fired w.1 } }
    reject w.2.who stAborted s) s

/-- STATE code of a guy line (Table 15.18). -/
def GuyState.code : GuyState → Nat
  | .linking => 1
  | .syncing => 2
  | .inSync => 3
  | .solo => 4
  | .stale => 5
  | .broken => 6

/-- Set the state of a guy line, with its RAS entry (Table 15.10) and GAF_ATTN.GUY when it enters or leaves IN_SYNC (Table 19.8). -/
def setGuy (k : Nat) (st : GuyState) (reason : Nat) (s : State) : State :=
  match find s.kpr.guys k with
  | none => s
  | some g =>
    let s := { s with kpr := { s.kpr with guys := upd s.kpr.guys k fun y => { y with state := st, reason := reason } } }
    if g.state = st then s else
    let s := ras 0x10 (if st = .inSync then 0 else 2) none g.partner (st.code ||| reason <<< 3) k s
    if st = .inSync || g.state = .inSync then attn 6 s else s

/-- Guy lines of a tent's regions break with REASON FENCED (Table 15.3); `tell` sends NOT_LINKED to the partner. -/
def breakGuys (tell : Nat → Guy → State → State) (t : Nat) (s : State) : State :=
  (s.kpr.guys.filter fun g => ((region s g.1).map (·.owner)) = some t).foldl (fun s g => tell g.1 g.2 (setGuy g.1 .broken 6 s)) s

/-- Field check of MEM.CLEAR (Table 14.7). -/
def fieldsMemClear (d : Desc) : Option Nat := if onlyFields d [(16, 0, 18), (20, 0, 32)] then none else some stBadField

/-- Body of MEM.CLEAR (R329): the key generation advances at once, the zeros follow. -/
def bodyMemClear (d : Desc) (c : CRef) (s : State) : State :=
  let k := opf d 16 0 18
  match region s k with
  | none => reject c stNotFound s
  | some r =>
    if !clapOk s none (opf d 20 0 32) then reject c stNotFound s
    else if (s.pool.handles.any fun h => h.2.region = k) || r.waiting.isSome || 1 < liveCount r then reject c stRegionBusy s
    else
      let ts := regionTiles r
      let n := granules r
      let s := dropRegionBuffers r s
      let s := updRegion k (fun r => { r with keyGen := r.keyGen + 1, current := nextReel r.current
                                              reels := r.reels.map fun x => { x with num := nextReel r.current } }) s
      let s := { s with pool := { s.pool with
        mem := s.pool.mem.filter fun e => !(e.1 / tileBytes / 2 ^ 24 = r.ext || ts.contains (e.1 / tileBytes))
        poison := s.pool.poison.filter fun p => !(p / 1024 / 2 ^ 24 = r.ext || ts.contains (p / 1024))
        lostRuns := s.pool.lostRuns.filter (·.1 != r.ext)
        lostTiles := s.pool.lostTiles.filter fun t => !(t / 2 ^ 24 = r.ext || ts.contains t)
        clears := put s.pool.clears k (n, clapName (opf d 20 0 32)) } }
      complete c stSuccess 0 0 (closeWeights k r.current s)

/-- The offset of a debug-consent token, in the operator window or in pooled memory (R333). -/
def tokenBytes (q : QId) (off : Nat) (s : State) : Option (List Byte) × State :=
  match q with
  | .operator => (some (windowRead s off 192), s)
  | .tent t _ =>
    match engRead (((getQ s q).map (·.source)).getD 0) t.toNat off 192 s with
    | (some r, s) => (if r.poison then none else some r.data, s)
    | (none, s) => (none, s)

/-- Is a token valid for a tent (R333, Table 14.10)? -/
def tokenValid (t : Nat) (x : Tent) (bs : List Byte) : Bool :=
  let le (o n : Nat) : Nat := leNat ((bs.drop o).take n)
  bs.length = 192 && le 0 4 = 0x4E534E43 && le 4 1 = t && bits (le 5 1) 2 6 = 0 && le 6 2 = 0 && x.serial < le 8 8
    && 1 ≤ le 16 4 && le 16 4 ≤ 86400 && le 20 4 = 0 && (bs.drop 24).take 48 = Config.deviceDigest && le 72 24 = 0
    && match x.tenantKey with
       | some k => Config.ecdsaOk k (bs.take 96) (bs.drop 96)
       | none => false

/-- Field check of DEBUG.CONSENT (R333, R384). -/
def fieldsConsent (q : QId) (d : Desc) : Option Nat :=
  if !onlyFields d [(16, 0, 64)] then some stBadField
  else match q with
    | .operator => if inWindow (opf d 16 0 64) 192 then none else some stBadField
    | .tent _ _ => none

/-- Body of DEBUG.CONSENT (R333). -/
def bodyConsent (q : QId) (d : Desc) (c : CRef) (s : State) : State :=
  let t := dtent d
  match tokenBytes q (opf d 16 0 64) s with
  | (bs, s) =>
    match tent s t, bs with
    | some x, some bs =>
      if x.state = .active && tokenValid t x bs then
        if x.consent.isSome then reject c stResourceBusy (bump .kprConsentStats 0 32 16 1 s)
        else
          let (now, s) := clock s
          let le (o n : Nat) : Nat := leNat ((bs.drop o).take n)
          let s := updTent t (fun x => { x with serial := le 8 8, consent := some (now + le 16 4 * 1000000000, bits (le 5 1) 0 2, le 8 8) }) s
          complete c stSuccess 0 0 (bump .kprConsentStats 0 16 16 1 s)
      else reject c stNotPermitted (bump .kprConsentStats 0 48 16 1 s)
    | _, _ => reject c stNotPermitted (bump .kprConsentStats 0 48 16 1 s)

/-- Body of DEBUG.REVOKE (R333). -/
def bodyRevoke (d : Desc) (c : CRef) (s : State) : State :=
  match (tent s (dtent d)).bind (·.consent) with
  | some _ => complete c stSuccess 0 0 (updTent (dtent d) (fun x => { x with consent := none }) s)
  | none => reject c stNotFound s

/-! ### Claims -/

/-- A resource of classes 2 to 4 that a claim holds (Table 2.17). -/
def claimed (s : State) (cls ix : Nat) : Bool := has s.gaf.claims (cls * 2 ^ 32 + ix)

/-- Field check of TIMER.CLAIM (R447, Table 18.10). -/
def stageTimerClaim (d : Desc) : Option Nat :=
  if !onlyFields d [(16, 0, 3), (20, 0, 32)] || opf d 16 0 3 != 2 || 31 < opf d 20 0 32 then some stBadField else none

/-- Field check of BUFFER.CLAIM (R447). -/
def stageBufferClaim (d : Desc) : Option Nat :=
  let c := opf d 16 0 3
  let i := opf d 20 0 32
  if !onlyFields d [(16, 0, 3), (20, 0, 32)] || !((c = 3 && i ≤ 7) || (c = 4 && i ≤ 63)) then some stBadField else none

/-- A claim of classes 2 to 4 applied; `held` says that a window holds the buffer (R50, R224, R447). -/
def applyClaim (held : State → Nat → Bool) (d : Desc) (s : State) : ApplyRes :=
  let c := opf d 16 0 3
  let i := opf d 20 0 32
  if claimed s c i || (c = 4 && fresh s (held s i)) then .error (stResourceBusy, some c, i)
  else good { s with gaf := { s.gaf with claims := put s.gaf.claims (c * 2 ^ 32 + i) 0 } }

/-- A function-switched pin. -/
def pin (s : State) (n : Nat) : Pin := (find s.chip.pins n).getD {}

/-- Change a pin. -/
def updPin (n : Nat) (f : Pin → Pin) (s : State) : State :=
  { s with chip := { s.chip with pins := put s.chip.pins n (f (pin s n)) } }

/-- Field check of PIN.SET_FUNCTION (Table 18.9). -/
def stagePinSet (d : Desc) : Option Nat :=
  let f := opf d 17 0 3
  if !onlyFields d [(16, 0, 4), (17, 0, 3), (18, 0, 2), (19, 0, 8)] || f = 0 || f = 7
    || (f != 3 && opf d 18 1 1 = 1) || (f != 2 && opf d 18 0 1 = 1) || (f != 4 && opf d 19 0 8 != 0) then some stBadField else none

/-- Safe level of GPF pin n (R423). -/
def safeLevel (n : Nat) : Bool := 8 ≤ n

/-- DUTY register and bit of a pin. -/
def dutyReg (n : Nat) : Reg × Nat := if n < 8 then (.pinGpfDutyLo, 8 * n) else (.pinGpfDutyHi, 8 * (n - 8))

/-- PIN.SET_FUNCTION applied (R424, R425): the pin drives its safe level first, which is also where EPOCH_OUT begins. -/
def applyPinSet (d : Desc) (s : State) : ApplyRes :=
  let n := opf d 16 0 4
  let f := opf d 17 0 3
  if (pin s n).func != 0 then .error (stResourceBusy, some 1, n)
  else
    let s := updPin n (fun x => { x with func := f, polarity := opf d 18 1 1 = 1, safe := true, level := false, stuck := false, edges := 0, tach := 0, epochOut := safeLevel n }) s
    let s := if f = 2 then setFld .pinGpfOut 0 n 1 (opf d 18 0 1) s else s
    good (if f = 4 then setFld (dutyReg n).1 0 (dutyReg n).2 8 (opf d 19 0 8) s else s)

/-- Field check of RES.RELEASE (Table 18.10). -/
def stageResRelease (d : Desc) : Option Nat :=
  if !onlyFields d [(16, 0, 3), (20, 0, 32)] || opf d 16 0 3 = 0 || 4 < opf d 16 0 3 then some stBadField else none

/-- RES.RELEASE applied (R424). -/
def applyResRelease (d : Desc) (s : State) : ApplyRes :=
  let c := opf d 16 0 3
  let i := opf d 20 0 32
  if c = 1 then
    if i < 16 && (pin s i).func != 0 then good (updPin i (fun x => { x with func := 0, safe := true, level := false, stuck := false, edges := 0, tach := 0 }) s) else bad stNotFound
  else if claimed s c i then good { s with gaf := { s.gaf with claims := del s.gaf.claims (c * 2 ^ 32 + i) } } else bad stNotFound

/-! ### Replica sets, guy lines, rushes: the settings -/

/-- Field check of REPLICA.SET (Table 15.6, R349, R445). -/
def stageReplicaSet (d : Desc) : Option Nat :=
  let n := opf d 20 0 2
  if !onlyFields d [(16, 0, 18), (20, 0, 2), (22, 0, 14), (24, 0, 64), (32, 0, 64), (40, 0, 64)]
    || (List.range 3).any fun k => let a := opf d (24 + 8 * k) 0 64
                                   if k < n then a % 0x10000 != 0 || 2 ^ 62 ≤ a else a != 0 then some stBadField
  else if 0 < n && fused 10 then some stFeatureDisabled
  else none

/-- REPLICA.SET applied (R349). -/
def applyReplicaSet (d : Desc) (s : State) : ApplyRes :=
  let k := opf d 16 0 18
  let n := opf d 20 0 2
  let alts := (List.range n).map fun i => opf d (24 + 8 * i) 0 64
  if alts.any fun a => s.fab.self = some (bits a 48 14) || (nodeRoute s (bits a 48 14)).isNone then bad stBadField
  else match region s k with
  | none => bad stNotFound
  | some r =>
    if n = 0 then (if has s.kpr.replicas k then good { s with kpr := { s.kpr with replicas := del s.kpr.replicas k } } else bad stNotFound)
    else if tentSealed s r.owner then bad stNotPermitted
    else if !has s.kpr.replicas k && s.kpr.replicas.length ≥ 256 then bad stNoResource
    else good { s with kpr := { s.kpr with replicas := put s.kpr.replicas k ⟨opf d 22 0 14, alts⟩ } }

/-- Field check of GUY.LINK (Table 15.2, R445). -/
def stageGuyLink (d : Desc) : Option Nat :=
  if !onlyFields d [(16, 0, 18), (20, 0, 1), (22, 0, 14), (24, 0, 18), (28, 0, 32), (32, 0, 32)] || opf d 28 0 32 = 0 then some stBadField
  else if fused 8 then some stFeatureDisabled else none

/-- Tier-0 tiles of a region's dirty map: one bit per granule (R339). -/
def dirtyMapTiles (r : Region) : Nat := (granules r + 524287) / 524288

/-- GUY.LINK applied (R339). -/
def applyGuyLink (d : Desc) (s : State) : ApplyRes :=
  let k := opf d 16 0 18
  let node := opf d 22 0 14
  let sec := opf d 20 0 1 = 1
  if s.fab.self = some node || (nodeRoute s node).isNone || mapVal s .gafFailDomain 0 = 0 then bad stBadField
  else match region s k with
  | none => bad stNotFound
  | some r =>
    if fresh s (!clapOk s none (opf d 32 0 32)) then bad stNotFound
    else if r.coherent || r.gsb.isSome || r.conv.isSome || tentSealed s r.owner then bad stNotPermitted
    else if has s.kpr.guys k then bad stResourceBusy
    else if sec && fresh s ((s.pool.handles.any fun h => h.2.region = k) || r.waiting.isSome) then bad stRegionBusy
    else if 1024 ≤ s.kpr.guys.length then bad stNoResource
    else match takeFree0 (dirtyMapTiles r) s with
    | none => bad stNoResource
    | some s =>
      let g : Guy := { secondary := sec, partner := node, partnerRegion := opf d 24 0 18, pairId := opf d 28 0 32, clapper := clapName (opf d 32 0 32) }
      good { s with kpr := { s.kpr with guys := put s.kpr.guys k g } }

/-- Field check of GUY.UNLINK (Table 15.2). -/
def stageGuyUnlink (d : Desc) : Option Nat := if onlyFields d [(16, 0, 18)] then none else some stBadField

/-- A secondary's own head becomes its current reel under a number (R341, R347). -/
def promoteGuyHead (k n : Nat) (s : State) : State :=
  match region s k with
  | none => s
  | some r =>
    let v := (r.mhead.orElse fun _ => r.mbase).getD (currentView r)
    let s := updRegion k (fun r => { r with current := n, reels := ⟨n, v⟩ :: r.reels, mhead := none, mbase := none }) s
    let dead := match r.mhead, r.mbase with
      | some _, some b => [b]
      | _, _ => []
    let s := dead.foldl (fun s b => (dropView k b s).2) s
    (pruneReels k s).2

/-- GUY.UNLINK applied (R347): a secondary is promoted; a primary frees its dirty map. -/
def applyGuyUnlink (d : Desc) (s : State) : ApplyRes :=
  let k := opf d 16 0 18
  match find s.kpr.guys k, region s k with
  | some g, some r =>
    let s := if g.secondary then promoteGuyHead k (nextReel r.current) s else s
    let s := giveFree0 (dirtyMapTiles r) s
    let s := g.commitOut.foldl (fun s x => complete x.2.1 stSuccess 0 (place x.2.2 32 32) s) s
    good { s with kpr := { s.kpr with guys := del s.kpr.guys k } }
  | _, _ => bad stNotFound

/-- Field check of RUSHES.BEGIN (Table 15.7, R445). -/
def stageRushesBegin (d : Desc) : Option Nat :=
  let cand := opf d 16 0 1 = 1
  let zero (b : Bool) : Bool := if cand then b else !b
  if !onlyFields d [(16, 0, 1), (18, 0, 14), (20, 0, 20), (24, 0, 128), (40, 0, 32), (44, 0, 32)]
    || !zero (opf d 20 0 20 = 0) || !zero (opf d 24 0 128 = 0) || !zero (opf d 40 0 32 = 0) then some stBadField
  else if fused 9 then some stFeatureDisabled else none

/-- Sealed tents are left out of a rushes session (R351, Table 14.6). -/
def unsealedOnly (s : State) (ts : Nat) : Nat :=
  (setBits 128 ts).foldl (fun a t => if tentSealed s t then a else a ||| 2 ^ t) 0

/-- RUSHES.BEGIN applied (R351). -/
def applyRushesBegin (d : Desc) (s : State) : ApplyRes :=
  if (setBits 20 (opf d 20 0 20)).any fun p => (port s p).role != 3 then bad stBadField
  else if s.gaf.rushes.state != 0 then bad stResourceBusy
  else if fresh s (!clapOk s none (opf d 44 0 32)) then bad stNotFound
  else
    let cand := opf d 16 0 1 = 1
    good { s with gaf := { s.gaf with rushes := { state := if cand then 5 else 1, candidate := cand, peer := opf d 18 0 14, ports := opf d 20 0 20
                                                  tents := unsealedOnly s (opf d 24 0 128), target := opf d 40 0 32, clapper := clapName (opf d 44 0 32) } } }

/-- RUSHES.END applied (R351, R354). -/
def applyRushesEnd (s : State) : ApplyRes :=
  let r := s.gaf.rushes
  if r.state = 0 then bad stNotFound
  else
    let s := if r.state = 1 || r.state = 5 then clapOpt r.clapper 1 s else s
    good { s with gaf := { s.gaf with rushes := {} } }

end Sys2Proof.Machine
end

