-- ==== Sys2Proof/Machine/Ops.lean ====
section
/-! DEFINITION. What a cell does with any instruction: fetching it (R170, R215), the exception it takes (R180, Table 8.14), its retirement, waits, barriers (R179), and local memory accesses with their checks (R165, R171, R173, R215). -/

namespace Sys2Proof.Machine

/-- The outcome of a command. -/
abbrev Res := Host.Outcome State Fault Refusal

/-- The word of a Burpor instruction. -/
def wordOf (i : Instr) : Nat := ((encodeBurpor i).map BitVec.toNat).getD 0

/-- Causes of Table 8.14 and Table 9.14. -/
def cIllegal : Nat := 0x01
/-- See `cIllegal`. -/
def cFetch : Nat := 0x02
/-- See `cIllegal`. -/
def cMisaligned : Nat := 0x03
/-- See `cIllegal`. -/
def cAccess : Nat := 0x04
/-- See `cIllegal`. -/
def cPoison : Nat := 0x05
/-- See `cIllegal`. -/
def cDolly : Nat := 0x06
/-- See `cIllegal`. -/
def cClapper : Nat := 0x07
/-- See `cIllegal`. -/
def cQueue : Nat := 0x08
/-- See `cIllegal`. -/
def cTrap : Nat := 0x09
/-- See `cIllegal`. -/
def cBreak : Nat := 0x0A
/-- See `cIllegal`. -/
def cPower : Nat := 0x0B
/-- See `cIllegal`. -/
def cXlock : Nat := 0x10

/-- What an instruction does to its cell. -/
inductive CellOut where
  /-- It retires, and pc moves past it. -/
  | done (x : Cell)
  /-- It retires, and pc takes a value. -/
  | jump (x : Cell) (pc : U64)
  /-- It raises an exception: cause, ADDR, VALUE. -/
  | raise (cause addr value : Nat)
  /-- It waits. -/
  | wait (w : CellWait)
deriving DecidableEq, Repr

/-- Members of a barrier: the cells of a crew that one CREW.START started and that run or wait (R179). -/
def barMembers (s : State) (k group : Nat) : List Nat :=
  (crewCells k).filter fun n =>
    let x := cellOf s n
    x.group = group && (x.state = .running || x.state = .waiting)

/-- The barrier releases once every remaining member has arrived (R179). -/
def releaseBar (k group : Nat) (s : State) : State :=
  let ms := barMembers s k group
  if ms.all fun n => (cellOf s n).wait = some .bar then ms.foldl (fun s n => updCell n Cell.resume s) s else s

/-- Take an exception (R180): the cell enters FAULTED with pc at the instruction; its record is written later. -/
def raiseCell (n cause instr addr value : Nat) (s : State) : State :=
  let x := cellOf s n
  releaseBar (n / 32) x.group (updCell n (fun x =>
    { x with state := .faulted, wait := none, recordDue := true, fault := some ⟨cause, instr, x.pc, addr, value⟩ }) s)

/-- halt, its fence passed (R181): HALTED, then one more in the DONE clapper. -/
def haltCell (n : Nat) (s : State) : State :=
  let x := cellOf s n
  releaseBar (n / 32) x.group (clapOpt x.doneClap 1 (updCell n (fun x => { x.next with state := .halted, wait := none }) s))

/-- Submit a checked transfer: its ticket goes to gd (R174). -/
def submitXfer (gd : BitVec 5) (t : Xfer) (x : Cell) : Cell :=
  { x.wg gd (BitVec.ofNat 64 (x.submitted + 1)) with submitted := x.submitted + 1, xfers := x.xfers ++ [{ t with ticket := x.submitted + 1, run := x.group }] }

/-- A transfer retired: the wait it may have met (Table 8.16). -/
def settle (n : Nat) (s : State) : State :=
  let x := cellOf s n
  if x.state != .waiting then s else
  match x.wait with
  | some (.retired t) => if t.toNat ≤ x.retired then updCell n Cell.resume s else s
  | some (.submit gd t) => if x.xfers.length < 16 then updCell n (fun x => (submitXfer gd t x).resume) s else s
  | some .fence => if x.xfers.isEmpty then updCell n Cell.resume s else s
  | some .barFence => if x.xfers.isEmpty then releaseBar (n / 32) x.group (updCell n (fun x => { x with wait := some .bar }) s) else s
  | some .haltFence => if x.xfers.isEmpty then haltCell n s else s
  | _ => s

/-- Apply what an instruction does. -/
def applyOut (n word : Nat) (o : CellOut) (s : State) : State :=
  match o with
  | .done x => updCell n (fun _ => x.next) s
  | .jump x pc => updCell n (fun _ => { x.next with pc := pc }) s
  | .raise cause addr value => raiseCell n cause word addr value s
  | .wait w => settle n (updCell n (fun x => { x with state := .waiting, wait := some w }) s)

/-- The fetch at pc lies in the text of the loaded image (R170). -/
def fetchable? (s : State) (n : Nat) (pc : Nat) : Bool :=
  let k := crewOf s (n / 32)
  k.loaded && covers (crewBase + k.textBase) k.textLen pc 4

/-- Run one instruction on a RUNNING cell: the fetch checks, then its meaning. A crew lent to ATTN.DECODE runs the kernel in ROM instead (R267), and a group whose clock relocks issues nothing (R402). -/
def runCell (c : CellId) (i : Instr) (body : Cell → State → CellOut × State) (s : State) : State :=
  let n := (cellNum c)
  let x := cellOf s n
  if x.state != .running || (crewOf s (n / 32)).decode.isSome || relocking s (n / 512) then s
  else if !fetchable? s n x.pc.toNat then
    let (w, s) := drawNat s
    raiseCell n cFetch (w % 2 ^ 32) x.pc.toNat 0 s
  else if inArea (crewOf s (n / 32)) (x.pc.toNat - crewBase) 4 then
    let (w, s) := drawNat s
    raiseCell n cXlock (w % 2 ^ 32) x.pc.toNat 0 (countXlock (n / 32) s)
  else
    let (o, s) := body x s
    applyOut n (wordOf i) o s

/-- An instruction that only changes its own cell. -/
def runPure (c : CellId) (i : Instr) (f : Cell → CellOut) (s : State) : State := runCell c i (fun x s => (f x, s)) s

/-- An instruction whose result goes to a g register. -/
def runG (c : CellId) (i : Instr) (d : BitVec 5) (f : Cell → U64) (s : State) : State :=
  runPure c i (fun x => .done (x.wg d (f x))) s

/-- An instruction whose result goes to a predicate. -/
def runP (c : CellId) (i : Instr) (pd : BitVec 3) (f : Cell → BitVec 32) (s : State) : State :=
  runPure c i (fun x => .done (x.wp pd (f x))) s

/-! ### Local accesses -/

/-- The checks of a load: alignment, mapping, bound area, poison mark (R171, R165, R215, R173), in this order. -/
def loadCheck (s : State) (n a len align : Nat) : Except Nat Loc :=
  if a % align != 0 then .error cMisaligned
  else match locOf a len with
  | none => .error cAccess
  | some l =>
    if locArea s n l len then .error cXlock
    else if locMarked s n l len then .error cPoison
    else .ok l

/-- The checks of a store: alignment, mapping and text, bound area (R171, R165, R215). -/
def storeCheck (s : State) (n a len align : Nat) : Except Nat Loc :=
  if a % align != 0 then .error cMisaligned
  else match locOf a len with
  | none => .error cAccess
  | some l =>
    if locText s n l len then .error cAccess
    else if locArea s n l len then .error cXlock
    else .ok l

/-- The exception of a failed access check; XLOCK is counted. -/
def accessFault (n cause a : Nat) (s : State) : CellOut × State :=
  (.raise cause a 0, if cause = cXlock then countXlock (n / 32) s else s)

/-- Load bytes and go on with them. -/
def loadThen (n a len align : Nat) (k : List Byte → CellOut) (s : State) : CellOut × State :=
  match loadCheck s n a len align with
  | .error e => accessFault n e a s
  | .ok l => (k (locRead s n l len), s)

/-- Store bytes. -/
def storeThen (n a align : Nat) (bs : List Byte) (x : Cell) (s : State) : CellOut × State :=
  match storeCheck s n a bs.length align with
  | .error e => accessFault n e a s
  | .ok l =>
    let s := locWrite n l bs s
    (.done { x with scratch := (cellOf s n).scratch, marks := (cellOf s n).marks }, s)

/-- A scalar load (Table 8.10). -/
def runLoad (c : CellId) (i : Instr) (r b : BitVec 5) (off : BitVec 12) (len : Nat) (signed : Bool) (s : State) : State :=
  runCell c i (fun x s => loadThen (cellNum c) (memAddr x b off) len len (fun bs =>
    let v := leNat bs
    .done (x.wg r (if signed then BitVec.ofInt 64 (sext (8 * len) v) else BitVec.ofNat 64 v))) s) s

/-- A scalar store (Table 8.10). -/
def runStore (c : CellId) (i : Instr) (r b : BitVec 5) (off : BitVec 12) (len : Nat) (s : State) : State :=
  runCell c i (fun x s => storeThen (cellNum c) (memAddr x b off) len (leBytes len (x.rg r).toNat) x s) s

end Sys2Proof.Machine
end

