-- ==== Sys2Proof/Machine/CellSys.lean ====
section
/-! DEFINITION. Dolly submission, clapper, queue, fence, barrier and halt instructions (R174 to R181, Table 8.13). -/

namespace Sys2Proof.Machine

/-- The tent of a cell's crew; a cell that runs has one. -/
def cellTent (s : State) (n : Nat) : Nat := ((crewOf s (n / 32)).tent).getD 0

/-- A transfer from the 64 bytes of its descriptor (Table 8.11); none when a reserved bit is set or a limit is broken (R174). -/
def parseXfer (a : Nat) (bs : List Byte) : Option Xfer :=
  let f (o n : Nat) : Nat := leNat ((bs.drop o).take n)
  let src := f 0 8
  let dst := f 8 8
  let len := f 16 4
  let rows := f 20 2
  let b22 := f 22 1
  let sFab := b22.testBit 7
  let dFab := b22.testBit 6
  if b22 % 64 != 0 || f 23 1 != 0 || f 48 16 != 0
    || src % 64 != 0 || dst % 64 != 0 || f 24 4 % 64 != 0 || f 28 4 % 64 != 0
    || len % 64 != 0 || len = 0 || 16777216 < len || rows = 0 || (sFab && dFab)
    || (sFab && 2 ^ 62 ≤ src) || (dFab && 2 ^ 62 ≤ dst) then none
  else some { ticket := 0, addr := a, src := src, dst := dst, len := len, rows := rows, srcFab := sFab, dstFab := dFab
              srcStride := f 24 4, dstStride := f 28 4, clapper := clapName (f 32 4) }

/-- Every local row lies wholly within scratch or within crew memory, and no local destination row touches text (R174). -/
def rowsOk (s : State) (n : Nat) (t : Xfer) : Bool :=
  (List.range t.rows).all fun r =>
    (t.srcFab || (locOf (t.src + r * t.srcStride) t.len).isSome) &&
    (t.dstFab || match locOf (t.dst + r * t.dstStride) t.len with
      | some l => !locText s n l t.len
      | none => false)

/-- Check and submit a dolly descriptor, returning a ticket. (R174) -/
def execDsub (c : CellId) (d s1 : BitVec 5) (s : State) : Res :=
  .next (runCell c (.dsub c d s1) (fun x s =>
    let n := cellNum c
    let a := (x.rg s1).toNat
    if a % 64 != 0 then (.raise cMisaligned a 0, s)
    else match locOf a 64 with
    | none => (.raise cAccess a 0, s)
    | some l =>
      if locArea s n l 64 then accessFault n cXlock a s else
      match parseXfer a (locRead s n l 64) with
      | none => (.raise cDolly a 0, s)
      | some t =>
        if !rowsOk s n t || !(match t.clapper with | some k => ownsClap s (some (cellTent s n)) k | none => true) then (.raise cDolly a 0, s)
        else if x.xfers.length < 16 then (.done (submitXfer d t x), s)
        else (.wait (.submit d t), s)) s)

/-- Wait until the retired count reaches a ticket. (R176) -/
def execDwait (c : CellId) (s1 : BitVec 5) (s : State) : Res :=
  .next (runPure c (.dwait c s1) (fun x => if (x.rg s1).toNat ≤ x.retired then .done x else .wait (.retired (x.rg s1))) s)

/-- Read the retired count. (R176) -/
def execDpoll (c : CellId) (d : BitVec 5) (s : State) : Res :=
  .next (runG c (.dpoll c d) d (fun x => BitVec.ofNat 64 x.retired) s)

/-- The clapper a register names, if it is one of the cell's tent (R177). -/
def cellClap (s : State) (n : Nat) (v : U64) : Option Clapper :=
  if v.toNat < 131072 && ownsClap s (some (cellTent s n)) v.toNat then clapper s v.toNat else none

/-- Add to a clapper of the tent; gd takes the value after. (R177, R53) -/
def execCadd (c : CellId) (d s1 s2 : BitVec 5) (s : State) : Res :=
  .next (runCell c (.cadd c d s1 s2) (fun x s =>
    match cellClap s (cellNum c) (x.rg s1) with
    | none => (.raise cClapper 0 (x.rg s1).toNat, s)
    | some k => (.done (x.wg d (addCtr k (x.rg s2).toNat).ctr), clapAdd (x.rg s1).toNat (x.rg s2).toNat s)) s)

/-- Read a clapper of the tent. (R177) -/
def execCld (c : CellId) (d s1 : BitVec 5) (s : State) : Res :=
  .next (runCell c (.cld c d s1) (fun x s =>
    match cellClap s (cellNum c) (x.rg s1) with
    | none => (.raise cClapper 0 (x.rg s1).toNat, s)
    | some k => (.done (x.wg d k.ctr), s)) s)

/-- Wait until a clapper reaches a threshold; gd takes its value then. (R177) -/
def execCwait (c : CellId) (d s1 s2 : BitVec 5) (s : State) : Res :=
  .next (runCell c (.cwait c d s1 s2) (fun x s =>
    match cellClap s (cellNum c) (x.rg s1) with
    | none => (.raise cClapper 0 (x.rg s1).toNat, s)
    | some k => if x.rg s2 ≤ k.ctr then (.done (x.wg d k.ctr), s) else (.wait (.clap d (x.rg s1).toNat (x.rg s2)), s)) s)

/-- Checks of qput and qget before the queue manager acts (R178): alignment, the queue and its tent, the entry's place. R178 orders neither QUEUE and ACCESS nor says what a qget whose entry touches the loaded text does: the model checks the queue first, and treats the entry of a qget as a store is treated (R171), with ACCESS (log entry 53). -/
def queueCheck (s : State) (n : Nat) (v : U64) (a : Nat) (load : Bool) : Except (Nat × Nat × Nat) (HwQueue × Loc) :=
  if a % 64 != 0 then .error (cMisaligned, a, 0)
  else match find s.qm.queues v.toNat with
  | none => .error (cQueue, 0, v.toNat)
  | some x =>
    if x.tent != cellTent s n then .error (cQueue, 0, v.toNat)
    else match locOf a (2 ^ x.e) with
    | none => .error (cAccess, a, 0)
    | some l =>
      if !load && locText s n l (2 ^ x.e) then .error (cAccess, a, 0)
      else if locArea s n l (2 ^ x.e) then .error (cXlock, a, 0)
      else .ok (x, l)

/-- Poison marks of the lines of a local range, as a mask from its first line. -/
def locMarks (s : State) (n : Nat) (a len : Nat) : Nat :=
  (List.range (len / 64)).foldl (fun m i =>
    match locOf (a + 64 * i) 64 with
    | some l => if locMarked s n l 64 then m ||| 2 ^ i else m
    | none => m) 0

/-- Whole lines of a dolly transfer reach a local address, each setting or clearing its line's poison mark (R173). -/
def locFill (n a : Nat) : Nat → List Byte → Nat → State → State
  | 0, _, _, s => s
  | k + 1, bs, ps, s =>
    match locOf a 64 with
    | some l => locFill n (a + 64) k (bs.drop 64) (ps / 2) (locMark n l (ps % 2 = 1) (locWrite n l (bs.take 64) s))
    | none => s

/-- Whole lines that are stored at a local address otherwise: a poisoned one sets its mark, and no mark is cleared (R173; log entry 53). -/
def locPut (n a : Nat) : Nat → List Byte → Nat → State → State
  | 0, _, _, s => s
  | k + 1, bs, ps, s =>
    match locOf a 64 with
    | some l =>
      let s := locWrite n l (bs.take 64) s
      locPut n (a + 64) k (bs.drop 64) (ps / 2) (if ps % 2 = 1 then locMark n l true s else s)
    | none => s

/-- Enqueue an entry on a hardware queue. (R178, R310) -/
def execQput (c : CellId) (d s1 s2 : BitVec 5) (s : State) : Res :=
  .next (runCell c (.qput c d s1 s2) (fun x s =>
    let n := cellNum c
    let a := (x.rg s2).toNat
    match queueCheck s n (x.rg s1) a true with
    | .error (e, ad, v) => (.raise e ad v, if e = cXlock then countXlock (n / 32) s else s)
    | .ok (q, l) =>
      match qPut (x.rg s1).toNat (locRead s n l (2 ^ q.e)) (locMarks s n a (2 ^ q.e)) s with
      | (.done, s) => (.done (x.wg d 0), s)
      | (.full, s) => (.done (x.wg d 1), s)
      | (.error, s) => (.raise cQueue 0 (x.rg s1).toNat, s)) s)

/-- Dequeue an entry from a hardware queue. (R178, R310) -/
def execQget (c : CellId) (d s1 s2 : BitVec 5) (s : State) : Res :=
  .next (ready (runCell c (.qget c d s1 s2) (fun x s =>
    let n := cellNum c
    let a := (x.rg s2).toNat
    match queueCheck s n (x.rg s1) a false with
    | .error (e, ad, v) => (.raise e ad v, if e = cXlock then countXlock (n / 32) s else s)
    | .ok (q, _) =>
      match qGet (x.rg s1).toNat s with
      | (.done, bs, ps, s) =>
        let s := locPut n a (2 ^ q.e / 64) bs ps (ringLoad (n / 32) (2 ^ q.e / 64) s)
        (.done { x.wg d 0 with scratch := (cellOf s n).scratch, marks := (cellOf s n).marks }, s)
      | (.full, _, _, s) => (.done (x.wg d 1), s)
      | (.error, _, _, s) => (.raise cQueue 0 (x.rg s1).toNat, s))) s)

/-- Wait for the cell's earlier stores, transfers, clapper and queue operations. (R179) -/
def execFence (c : CellId) (s : State) : Res :=
  .next (runPure c (.fence c) (fun x => if x.xfers.isEmpty then .done x else .wait .fence) s)

/-- Fence, then wait at the crew barrier. (R179) -/
def execBar (c : CellId) (s : State) : Res :=
  .next (runPure c (.bar c) (fun _ => .wait .barFence) s)

/-- Fence, enter HALTED and add to the DONE clapper. (R181) -/
def execHalt (c : CellId) (s : State) : Res :=
  .next (runPure c (.halt c) (fun _ => .wait .haltFence) s)

end Sys2Proof.Machine
end

