-- ==== Sys2Proof/Machine/Wire.lean ====
section
/-! DEFINITION. The native message header on the wire (R371, Table 16.5): its bytes, and the message that bytes spell. -/

namespace Sys2Proof.Machine

/-- The 32 bytes of a native header (Table 16.5). -/
def headerBytes (ty : Nat) (m : Msg) : List Byte :=
  leBytes 1 ty
    ++ leBytes 1 (place (bitOf m.contrib) 7 1 ||| place (bitOf m.gsb) 6 1 ||| place (bitOf m.hint) 5 1 ||| m.hintAgent.toNat)
    ++ leBytes 1 (place m.hops.toNat 5 3 ||| place m.tc.toNat 2 3 ||| place (bitOf m.pline) 1 1)
    ++ leBytes 1 m.op.toNat ++ leBytes 2 m.snode.toNat ++ leBytes 2 m.tag.toNat ++ leBytes 8 m.addr.toNat
    ++ leBytes 2 m.length.toNat ++ leBytes 2 m.storedLen.toNat ++ leBytes 2 m.status.toNat ++ leBytes 2 m.seq.toNat ++ leBytes 8 m.mask.toNat

/-- A message as bytes: header, then data (R371). -/
def messageBytes (ty : Nat) (m : Msg) : List Byte := headerBytes ty m ++ m.data

/-- The TYPE and message that bytes spell (Table 16.5). -/
def parseMessage (bs : List Byte) : Nat × Msg :=
  let f (o n : Nat) : Nat := leNat ((bs.drop o).take n)
  let b1 := f 1 1
  let b2 := f 2 1
  (f 0 1, { contrib := b1.testBit 7, gsb := b1.testBit 6, hint := b1.testBit 5, hintAgent := BitVec.ofNat 5 b1
            hops := BitVec.ofNat 3 (b2 / 32), tc := BitVec.ofNat 3 (b2 / 4), pline := b2.testBit 1
            rsv := b2.testBit 0 || 2 ^ 14 ≤ f 4 2 || 2 ^ 13 ≤ f 16 2
            op := BitVec.ofNat 8 (f 3 1), snode := BitVec.ofNat 14 (f 4 2), tag := BitVec.ofNat 16 (f 6 2), addr := BitVec.ofNat 64 (f 8 8)
            length := BitVec.ofNat 13 (f 16 2), storedLen := BitVec.ofNat 16 (f 18 2), status := BitVec.ofNat 16 (f 20 2)
            seq := BitVec.ofNat 16 (f 22 2), mask := BitVec.ofNat 64 (f 24 8), data := bs.drop 32 })

end Sys2Proof.Machine
end

