-- ==== Sys2Proof/Machine/Flit.lean ====
section
/-! DEFINITION. The native link below its messages (R370): flits, the link word, the replay buffer, and the packing of messages into the transaction bytes. -/

namespace Sys2Proof.Machine

/-- Data cut or padded to the bytes that a header announces (R371). -/
def fit (n : Nat) (bs : List Byte) : List Byte := (bs ++ List.replicate n 0).take n

/-- The data of a message, as long as its header says (R371, R161). -/
def framed (m : Msg) : Msg :=
  { m with data := fit (if m.gsb then (m.storedLen.toNat + 63) / 64 * 64 else m.length.toNat) m.data }

/-- Transaction bytes of a flit, and flits of a replay buffer (R370). -/
def flitData : Nat := 238
/-- See `flitData`. -/
def replayFlits : Nat := 1024

/-- The link word: FLIT_SEQ [31:22], ACK_SEQ [21:12], NAK [11], zeros below (R370). -/
def linkWord (seq ack : Nat) (nak : Bool) : Nat := place seq 22 10 ||| place ack 12 10 ||| place (bitOf nak) 11 1

/-- The 256 bytes of a flit (R370): transaction bytes, link word, and the CRC and FEC of PCIe 7.0 FLIT mode. -/
def flitBytes (seq ack : Nat) (nak : Bool) (bs : List Byte) : List Byte :=
  let body := fit flitData bs ++ leBytes 4 (linkWord seq ack nak)
  let body := body ++ leBytes 8 (Config.flitCrc body).toNat
  body ++ leBytes 6 (Config.flitFec body).toNat

/-- A flit of a port's replay buffer goes out, with the sequence number it acknowledges now. -/
def emitFlit (p : Nat) (f : Flit) (nak : Bool) (s : State) : State := emit (.flit p (flitBytes f.seq (port s p).rxSeq nak f.data)) s

/-- One flit is formed of the bytes that wait, padded with zeros where they run out, and goes out; a NAK that is due goes with it (R370, R375). -/
def formFlit (p : Nat) (s : State) : State :=
  let x := port s p
  let f : Flit := ⟨x.txSeq, fit flitData x.tx⟩
  emitFlit p f x.nak (updPort p (fun x => { x with tx := x.tx.drop flitData, flits := x.flits ++ [f], txSeq := (x.txSeq + 1) % 1024, nak := false }) s)

/-- Form flits while the replay buffer has room for one and `more` says that there is one to send. -/
def formFlits (p : Nat) (more : FPort → Bool) : Nat → State → State
  | 0, s => s
  | n + 1, s => if (port s p).flits.length < replayFlits && more (port s p) then formFlits p more n (formFlit p s) else s

/-- Full flits go out; what is left of the bytes may share its flit with the next message (R370). -/
def fullFlits (p : Nat) (s : State) : State := formFlits p (fun x => flitData ≤ x.tx.length) ((port s p).tx.length / flitData) s

/-- The link has nothing more to send for now: the rest of a flit is padding (R370). -/
def padFlits (p : Nat) (s : State) : State := formFlits p (fun x => !x.tx.isEmpty || x.nak) ((port s p).tx.length / flitData + 1) s

/-- Bytes of a message join the transaction bytes of a native port, back to back with those before (R370). -/
def packBytes (p : Nat) (bs : List Byte) (s : State) : State :=
  if wireMode (port s p) != 1 then s else fullFlits p (updPort p (fun x => { x with tx := x.tx ++ bs }) s)

/-- A message leaves a port; on a native link its bytes go into flits (R370, R371). -/
def linkSend (p ty : Nat) (m : Msg) (s : State) : State := packBytes p (messageBytes ty (framed m)) (emit (.msg p ty m) s)

/-- What every port has begun to send is sent. -/
def padAll (s : State) : State := ((s.fab.ports.filter fun e => !e.2.tx.isEmpty).map Prod.fst).foldl (fun s p => padFlits p s) s

/-- A message has come in on a native port: how many flits it ended and how many of the flits sent they acknowledge is free (log entry 54). -/
def linkHears (p : Nat) (s : State) : State :=
  if wireMode (port s p) != 1 then s else
  let (x, s) := drawNat s
  fullFlits p (updPort p (fun y => { y with flits := y.flits.drop (x % (y.flits.length + 1)), rxSeq := (y.rxSeq + x / 1025) % 1024 }) s)

/-- A flit came damaged: NAK goes out with the next flit, which is sent now (R375). -/
def linkNak (p : Nat) (s : State) : State :=
  let s := emit (.nak p) s
  if wireMode (port s p) != 1 then s else padFlits p (updPort p (fun x => { x with nak := true }) s)

/-- The flits that the partner has not acknowledged go out again, after a retrain (R370, R375). -/
def replayAll (p : Nat) (s : State) : State :=
  if wireMode (port s p) != 1 then s else (port s p).flits.foldl (fun s f => emitFlit p f false s) s

/-- The bytes of an INIT message: TYPE 0x07 in the CREDIT layout (R372). -/
def initBytes (gs : List Nat) : List Byte := leBytes 1 7 ++ List.replicate 15 0 ++ (gs.map fun g => leBytes 2 g).flatten

end Sys2Proof.Machine
end

