-- ==== Sys2Proof/Machine/Egress.lean ====
section
/-! DEFINITION. Fair queuing at the arbitration points (R295 to R297, R299), the fabric egress ports, credits (R372), and the completions sent back through a port (R374). -/

namespace Sys2Proof.Machine

/-- Least common multiple of 1 to 256: tags count this fraction of a byte, so that a length over a weight is exact (R296, R297). -/
def tagUnit : Nat := 16674490806895842671659008751776385350270324508909651849955453691538889375930032935391666564679008085339616000

/-! ### Fair queuing -/

/-- The state of an arbitration point. -/
def arb (s : State) (code : Nat) : Arb := (find s.qm.arbs code).getD {}

/-- Change an arbitration point. -/
def updArb (code : Nat) (f : Arb → Arb) (s : State) : State :=
  { s with qm := { s.qm with arbs := put s.qm.arbs code (f (arb s code)) } }

/-- Tent-level weight; flow 128 is the transit flow (R297). -/
def tentWeight (s : State) (t : Nat) : Nat :=
  if t = 128 then bits (mapVal s .qmgCtl 0) 8 8 + 1 else bits (mapVal s .qmgWeight t) 56 8 + 1

/-- Class-level weight (R297). -/
def classWeight (s : State) (t c : Nat) : Nat :=
  if t = 128 then 1 else bits (mapVal s .qmgWeight t) (7 * c) 7 + 1

/-- Key of a class-level flow. -/
def clsKey (t c : Nat) : Nat := t * 8 + c

/-- A unit waits at a point: its flows wake at the virtual time in force, if they had no unit (R296). -/
def wakeFlow (code t c : Nat) (s : State) : State :=
  updArb code (fun a => { a with
    tags := if has a.tags t then a.tags else put a.tags t a.v
    tagsClass := if has a.tagsClass (clsKey t c) then a.tagsClass else put a.tagsClass (clsKey t c) ((find a.vClass t).getD 0) }) s

/-- A unit of `len` bytes is served (R296). -/
def serveFlow (code t c len : Nat) (s : State) : State :=
  let a := arb s code
  let st := (find a.tags t).getD a.v
  let sc := (find a.tagsClass (clsKey t c)).getD 0
  let tw := tentWeight s t
  let cw := classWeight s t c
  updArb code (fun a => { a with
    v := st
    tags := put a.tags t (st + len * tagUnit / tw)
    vClass := put a.vClass t sc
    tagsClass := put a.tagsClass (clsKey t c) (sc + len * tagUnit / cw) }) s

/-- The flows of a point that have no unit left drop their tags (R296); `fs` are those that have one. -/
def dropFlows (code : Nat) (fs : List (Nat × Nat)) (s : State) : State :=
  updArb code (fun a => { a with
    tags := a.tags.filter fun e => fs.any fun f => f.1 = e.1
    tagsClass := a.tagsClass.filter fun e => fs.any fun f => clsKey f.1 f.2 = e.1 }) s

/-- Least of a list of keys, by tag and then flow number (R296). -/
def least : List (Nat × Nat) → Option (Nat × Nat)
  | [] => none
  | k :: ks => match least ks with
    | some m => some (if keyLe k m then k else m)
    | none => some k

/-- Candidates of one tent at a point, from the next units of its classes (class and length): class, and how it stands. A tent-wide shaper judges the tent's next unit (R299). -/
def tentUnits (s : State) (code kind ix t : Nat) (us : List (Nat × Nat)) : List (Nat × Nat) :=
  let a := arb s code
  let cs := us.map fun u => (u.1, elig s kind ix t u.1 u.2)
  match (shaperOf s kind ix t 8).filter (·.2.wide) with
  | none => cs
  | some _ =>
    match least (us.map fun u => ((find a.tagsClass (clsKey t u.1)).getD 0, u.1)) with
    | some m => cs.filter fun c => c.1 = m.2
    | none => []

/-- The point's next choice (R296, R299): tent and class. `heads` are the next units of its flows: tent, class and length; `slot` restricts it to the tent of a reserved slot (R300). -/
def choose (s : State) (code kind ix : Nat) (heads : List (Nat × Nat × Nat)) (slot : Option Nat) : Option (Nat × Nat) :=
  let a := arb s code
  let cands := (heads.foldl (fun l h => insNat l h.1) []).filterMap fun t =>
    if slot.any (· != t) then none else
    match tentUnits s code kind ix t ((heads.filter (·.1 = t)).map (·.2)) with
    | [] => none
    | us => some (t, us)
  let at_ (e : Nat) := cands.filter fun c => c.2.any fun u => u.2 = e
  let e := if (at_ 0).isEmpty then 1 else 0
  match least ((at_ e).map fun c => ((find a.tags c.1).getD 0, c.1)) with
  | none => none
  | some (_, t) =>
    let us := (((at_ e).find? fun c => c.1 = t).map Prod.snd).getD []
    (least ((us.filter fun u => u.2 = e).map fun u => ((find a.tagsClass (clsKey t u.1)).getD 0, u.1))).map fun m => (t, m.2)

/-! ### Fabric egress ports -/

/-- A unit waits in the output queue of a port. -/
def enqueue (e : Egress) (s : State) : State :=
  let s := wakeFlow e.port e.tent e.cls s
  { s with fab := { s.fab with egress := s.fab.egress ++ [e] } }

/-- Credit units of a message: 64-byte units of its bytes, header included (R372). -/
def units (m : Msg) : Nat := (32 + m.data.length + 63) / 64

/-- The message of a unit as it leaves the port (R161). -/
def wire (s : State) (e : Egress) : Msg := wireMsg s e.port e.ty e.msg

/-- The partner's credits admit a unit; CXL and PBR links use their own flow control (R372). -/
def creditOk (s : State) (e : Egress) : Bool :=
  wireMode (port s e.port) != 1 || units (wire s e) ≤ (port s e.port).credits.send.getD e.chan 0

/-- The next unit of a flow: its earliest waiting unit that is first of its channel and holds credit. -/
def headUnit (s : State) (p t c : Nat) : Option Egress :=
  ((List.range 8).filterMap fun ch => s.fab.egress.findIdx? fun e => e.port = p && e.tent = t && e.cls = c && e.chan = ch).foldl
    (fun (best : Option (Nat × Egress)) i =>
      match s.fab.egress[i]? with
      | some e => if creditOk s e && (best.all fun b => i < b.1) then some (i, e) else best
      | none => best) none |>.map Prod.snd

/-- The flows that wait at a port. -/
def portFlows (s : State) (p : Nat) : List (Nat × Nat) := (s.fab.egress.filter (·.port = p)).map fun e => (e.tent, e.cls)

/-- The next units of the flows at a port. -/
def portHeads (s : State) (p : Nat) : List (Nat × Nat × Nat) :=
  ((portFlows s p).foldl (fun l f => if l.contains f then l else l ++ [f]) []).filterMap fun f =>
    (headUnit s p f.1 f.2).map fun e => (f.1, f.2, (wire s e).data.length)

/-- A unit leaves the port (R295, R372). -/
def sendUnit (e : Egress) (s : State) : State :=
  let p := e.port
  let m := wire s e
  let len := m.data.length
  let rest := (s.fab.egress.takeWhile (· != e)) ++ (s.fab.egress.dropWhile (· != e)).drop 1
  let s := serveFlow p e.tent e.cls len (charge 0 p e.tent e.cls len (countServed p e.tent len s))
  let s := updPort p (fun x => if wireMode x = 1 then
      { x with credits := { x.credits with send := x.credits.send.set e.chan (x.credits.send.getD e.chan 0 - units m) } } else x) s
  let s := { s with fab := { s.fab with egress := rest } }
  let s := dropFlows p (portFlows s p) s
  let s := match e.txn with
    | some id => updTxn id (fun x => { x with stage := .forwarded p, deadline := none }) s
    | none => s
  linkSend p e.ty m (if m.gsb then countCodec e.msg.data.length m.storedLen.toNat s else s)

/-- Serve a port while it has an eligible unit. -/
def pumpLoop (p : Nat) (slot : Option Nat) : Nat → State → State
  | 0, s => s
  | n + 1, s =>
    match (choose s p 0 p (portHeads s p) slot).bind fun f => headUnit s p f.1 f.2 with
    | some e => pumpLoop p slot n (sendUnit e s)
    | none => s

/-- Serve a port whose link carries traffic. -/
def pumpPort (p : Nat) (slot : Option Nat) (s : State) : State :=
  if (port s p).link = .l0 && s.fab.egress.any (·.port = p) then pumpLoop p slot s.fab.egress.length (refill 0 p s) else s

/-- Units that a test picks leave the output queues unsent; flows with none left drop their tags (R296). -/
def unqueue (f : Egress → Bool) (s : State) : State :=
  let s := { s with fab := { s.fab with egress := s.fab.egress.filter fun e => !f e } }
  (List.range 20).foldl (fun s p => if has s.qm.arbs p then dropFlows p (portFlows s p) s else s) s

/-- Serve every port. -/
def pump (s : State) : State := (List.range 20).foldl (fun s p => pumpPort p none s) s

/-! ### Completions through a port -/

/-- Wire codes (Table 16.9). -/
def wOk : Nat := 0
/-- See `wOk`. -/
def wRefused : Nat := 0x0A01
/-- See `wOk`. -/
def wTransit : Nat := 0x0A02
/-- See `wOk`. -/
def wMalformed : Nat := 0x0A03
/-- See `wOk`. -/
def wFailed : Nat := 0x0A04

/-- The last error completion is recorded (R374, Tables 16.21 and 16.22). -/
def logError (p : Nat) (m : Msg) (addr status : Nat) (s : State) : State :=
  setFld .prtErrAddr p 0 64 addr
    (store .prtErrLog p (place status 48 16 ||| place m.snode.toNat 32 14 ||| place m.tag.toNat 16 16 ||| 1) s)

/-- A CXL.io completion status: 0 success, 1 Unsupported Request, 2 Completer Abort (Table 16.9; log entry 6). -/
def cxlIoStatus (status : Nat) : Nat := if status = wOk then 0 else if status = wRefused || status = wMalformed then 1 else 2

/-- A device on a port whose link can still carry its completion: not a failed one (Table 3.13). -/
def canAnswer (s : State) (p : Nat) : Bool := (port s p).linkUp

/-- The completion of a request, in the form of its protocol (R374, Table 16.9). -/
def respond (p : Nat) (m : Msg) (read : Bool) (t cls addr status : Nat) (data : List Byte) (mask : Nat) (s : State) : State :=
  let s := if status = wOk then s else logError p m addr status s
  if !canAnswer s p then s else
  let base : Msg := { proto := m.proto, tc := m.tc, snode := m.snode, tag := m.tag, addr := m.addr }
  let put1 (ty : Nat) (x : Msg) (s : State) : State := enqueue ⟨none, p, t, cls, 1, ty, x⟩ s
  match m.proto with
  | .native =>
    if read && status = wOk then put1 9 { base with length := BitVec.ofNat 13 data.length, mask := BitVec.ofNat 64 mask, data := data } s
    else put1 8 { base with status := BitVec.ofNat 16 status } s
  | .cxlIo =>
    if read && status = wOk then put1 9 { base with length := BitVec.ofNat 13 data.length, mask := BitVec.ofNat 64 mask, data := data } s
    else put1 8 { base with status := BitVec.ofNat 16 (cxlIoStatus status) } s
  | _ =>
    if read then
      if status = wOk then put1 9 { base with length := BitVec.ofNat 13 data.length, mask := BitVec.ofNat 64 mask, data := data } s
      else
        let (bs, s) := drawBytes m.length.toNat s
        put1 9 { base with length := m.length, mask := BitVec.allOnes 64, data := bs } s
    else put1 8 base (if status = wOk then s else bump .prtErrors p 0 16 1 s)

end Sys2Proof.Machine
end

