-- ==== Sys2Proof/Machine/Window.lean ====
section
/-! DEFINITION. Collective windows: accumulator records of a window (R222), contributions (R225 to R231), results (R232 to R235), states and completion (Table 10.8, R236), the status line and the arrival report (Table 10.9, R238). -/

namespace Sys2Proof.Machine

/-- Window access codes of Table 10.7. -/
def wBadLength : Nat := 0x0103
/-- See `wBadLength`. -/
def wNotMember : Nat := 0x0801
/-- See `wBadLength`. -/
def wOverrun : Nat := 0x0802
/-- See `wBadLength`. -/
def wBadElement : Nat := 0x0803
/-- See `wBadLength`. -/
def wWrongSlot : Nat := 0x0804
/-- See `wBadLength`. -/
def wWindowState : Nat := 0x0805
/-- See `wBadLength`. -/
def wBacking : Nat := 0x0806

/-- A window slot. -/
def window (s : State) (w : Nat) : Option Window := find s.win w

/-- Change a window. -/
def updWin (w : Nat) (f : Window → Window) (s : State) : State := { s with win := upd s.win w f }

/-- Element size of a format code (Table 10.5). -/
def winSize (f : Nat) : Nat := [4, 2, 2, 1, 1, 8, 4, 8, 64].getD f 1

/-- Floating-point format of a code. -/
def winFF (f : Nat) : FF :=
  match f with
  | 1 => .bf16
  | 2 => .f16
  | 3 => .e4m3
  | 4 => .e5m2
  | 5 => .f64
  | _ => .f32

/-- The reduce kinds, and the gather kinds (Table 10.2). -/
def Window.reduce (x : Window) : Bool := x.kind ≤ 2
/-- See `Window.reduce`. -/
def Window.multi (x : Window) : Bool := x.kind = 1 || x.kind = 4
/-- The window sums IN_FMT F64 by the ordered tree. -/
def Window.tree (x : Window) : Bool := x.reduce && x.inFmt = 5

/-- A member's share in bytes (R228). -/
def Window.share (x : Window) : Nat := if x.reduce then x.count * winSize x.inFmt else x.count

/-- Bytes of the result of a window other than FILTER (R232). -/
def Window.total (x : Window) : Nat :=
  if x.reduce then x.count * winSize x.outFmt
  else if x.kind = 6 then (x.written * (match x.filter with | some f => if f.indices then 4 else f.recLen | none => 0) + 63) / 64 * 64
  else x.members.length * x.count

/-- Crew and crew-memory offset of element `e`'s record (R222). -/
def Window.place (x : Window) (e : Nat) : Nat × Nat :=
  let s := winSize x.inFmt
  let per := 64 / s
  let l := e * s / 64
  let n := x.crews.length
  (x.crews.getD (l % n) 0, x.areaBase + 64 * (l / n * per + e % per))

/-- The record of an element. -/
def winRec (s : State) (x : Window) (e : Nat) : Accum :=
  let (c, o) := x.place e
  accOf (readBytes (crewOf s c).mem o 64)

/-- Store the record of an element; `n` addends are counted for the unit (Table 9.18). -/
def setWinRec (x : Window) (e n : Nat) (a : Accum) (s : State) : State :=
  let (c, o) := x.place e
  updCrew c (fun k => { k with mem := writeBytes k.mem o (accBytes a x.op), addends := k.addends + n }) s

/-- The empty record of KIND OP in every place of the window (R222). -/
def emptyRecords (x : Window) (s : State) : State :=
  x.crews.foldl (fun s c => updCrew c (fun k => { k with
    mem := (List.range x.records).foldl (fun m r => writeBytes m (x.areaBase + 64 * r) (accBytes {} x.op)) k.mem
    marks := k.marks.filter fun l => !(x.areaBase / 64 ≤ l && l < x.areaBase / 64 + x.records) }) s) s

/-- Absorb one element into its record (R210, R211, R214, R448). -/
def absorb (op fmt : Nat) (bs : List Byte) (poisoned : Bool) (a : Accum) : Accum :=
  let x := leNat bs
  let a := if fmt = 8 then accMerge a (accOf bs)
    else if op = 0 then accAdd a ((winFF fmt).decode x)
    else if op = 3 then accOr a x
    else accExtreme (op = 1) a (if fmt = 0 then x % 2 ^ 32 else FF.cvt (winFF fmt) .f32 x)
  if poisoned then { a with flags := a.flags ||| flPoison } else a

/-- Read a record out: bytes, poisoned, and whether it came from row 4 of Table 9.12 (R212, R234, R235, R448). -/
def readRecord (x : Window) (a : Accum) : List Byte × Bool × Bool :=
  let n := winSize x.outFmt
  let p := a.has flPoison
  if x.outFmt = 8 then (accBytes a x.op, p, false)
  else if x.tree then (leBytes 8 a.value.toNat, p, false)
  else if x.op = 0 then (leBytes n (accRead a (winFF x.outFmt)), p, accOvfRead a)
  else if x.op = 3 then (leBytes n a.value.toNat, p, false)
  else if a.count = 0 then (leBytes n (winFF x.outFmt).nan, p, false)
  else (leBytes n (FF.cvt .f32 (winFF x.outFmt) (bits a.value.toNat 0 32)), p, false)

/-- Round time in ns. -/
def roundTime (x : Window) (now : Nat) : Nat := now - x.start

/-! ### Reading the result -/

/-- Elements `e .. e + n - 1` read out: bytes, and the elements poisoned; row-4 readouts are counted. -/
def readElems (x : Window) : Nat → Nat → State → List Byte × List Bool × State
  | 0, _, s => ([], [], s)
  | n + 1, e, s =>
    let (bs, p, ovf) := readRecord x (winRec s x e)
    let s := if ovf then bump .xsuUnitCounts (x.place e).1 16 16 1 s else s
    let (bs', ps, s) := readElems x n (e + 1) s
    (bs ++ bs', p :: ps, s)

/-- Poison mask by line of a run of elements of `sz` bytes that starts a line. -/
def lineMask (sz : Nat) (ps : List Bool) : Nat :=
  (List.range ps.length).foldl (fun m i => if ps.getD i false then m ||| 2 ^ (i * sz / 64) else m) 0

/-- Bytes `[o, o + n)` of the result, whole lines: bytes and poison mask; none when an engine read of the backing is refused. -/
def resultRead (x : Window) (o n : Nat) (s : State) : Option (List Byte × Nat) × State :=
  if x.unspecified then
    let (bs, s) := drawBytes n s
    let (m, s) := drawNat s
    (some (bs, m % 2 ^ (n / 64)), s)
  else if x.reduce then
    let sz := winSize x.outFmt
    let (bs, ps, s) := readElems x (n / sz) (o / sz) s
    (some (bs, lineMask sz ps), s)
  else
    let addr := (match x.filter with | some f => f.outAddr | none => x.dataAddr) + o
    match engRead x.source x.tent addr n s with
    | (some r, s) => (some (r.data, r.mask), s)
    | (none, s) => (none, s)

/-- Poisoned lines of the whole result (R230). Counting them is no readout, so no counter moves. -/
def poisonedLines (x : Window) (s : State) : Nat × State :=
  let n := (x.total + 63) / 64 * 64
  let (r, s') := resultRead x 0 n s
  (match r with
    | some (_, m) => popCount (n / 64) m
    | none => 0, { s with freeIx := s'.freeIx })

/-! ### States -/

/-- The completion clapper is advanced, once per round (R236). -/
def winAdvance (w : Nat) (s : State) : State :=
  match window s w with
  | none => s
  | some x => if x.advanced then s else clapOpt x.clapper 1 (updWin w (fun x => { x with advanced := true }) s)

/-- The window enters COMPLETE (R236). -/
def winComplete (w : Nat) (s : State) : State :=
  match window s w with
  | none => s
  | some x =>
    let (n, s) := poisonedLines x s
    let (now, s) := clock s
    winAdvance w (updWin w (fun x => { x with state := .complete, elapsed := some (roundTime x now), poisonedLines := n }) s)

/-- The window enters FAILED (Table 10.8). -/
def winFail (w cause : Nat) (s : State) : State :=
  let (now, s) := clock s
  winAdvance w (updWin w (fun x => { x with state := .failed, cause := cause, failing := false, elapsed := some (x.elapsed.getD (roundTime x now)) }) s)

/-- Pieces of `n` bytes at an address, at most 4,096 and within a 4 KiB page (R175, R233): position and length. -/
def pieces (addr : Nat) : Nat → Nat → Nat → List (Nat × Nat)
  | 0, _, _ => []
  | fuel + 1, pos, n =>
    if n = 0 then [] else
    let k := min n (4096 - (addr + pos) % 4096)
    (pos, k) :: pieces addr fuel (pos + k) (n - k)

/-- Multicast begins: the result is read once into the replication buffer and every data write is issued (R233). -/
def startMulticast (w : Nat) (s : State) : State :=
  match window s w with
  | none => s
  | some x =>
    let n := x.total
    let (r, s) := resultRead x 0 n s
    let (bs, m) := r.getD (List.replicate n 0, 2 ^ (n / 64) - 1)
    let b := s.fab.nextTxn
    let s := updWin w (fun x => { x with
      result := bs, resultPoison := setBits (n / 64) m, batch := some b
      dests := x.dests.map fun d => { d with out := (pieces d.addr (n / 64 + 1) 0 n).length } }) s
    (List.range x.dests.length).foldl (fun s i =>
      let d := x.dests.getD i ⟨0, none, 0, false, false, false, false⟩
      (pieces d.addr (n / 64 + 1) 0 n).foldl (fun s p =>
        issue (.mcast w b i false) x.source x.tent 2 (d.addr + p.1) p.2 ((bs.drop p.1).take p.2) ((m >>> (p.1 / 64)) % 2 ^ (p.2 / 64)) s) s) s

/-- The last member is done: COMPLETING, and at once COMPLETE where the results are in place (R236). -/
def winCompleting (w : Nat) (s : State) : State :=
  let s := updWin w (fun x => { x with state := .completing }) s
  match window s w with
  | none => s
  | some x =>
    if x.tree then s
    else if x.multi then startMulticast w s
    else winComplete w s

/-- Change one member. -/
def updMember (w i : Nat) (f : Member → Member) (s : State) : State :=
  updWin w (fun x => { x with members := x.members.modify i f }) s

/-- Bytes are accepted from, or served to, member `i`: counts, times, and what follows when it is done (R228, Table 10.8). `at_` is the model time at which the access passed the range gate (R238). -/
def winAccept (w i n : Nat) (poisoned : Bool) (ranges : List (Nat × Nat)) (at_ : Option Nat) (s : State) : State :=
  let (now, s) := clock s
  match window s w with
  | none => s
  | some x =>
    let t := roundTime x now
    let dup := match x.members[i]? with
      | some m => ranges.any fun r => m.sent.any fun q => overlaps q.1 q.2 r.1 r.2
      | none => false
    let s := updWin w (fun x => { x with unspecified := x.unspecified || dup }) s
    let s := updMember w i (fun m => { m with
      bytes := m.bytes + n, first := some (m.first.getD (roundTime x (at_.getD now))), poisoned := m.poisoned || poisoned, sent := m.sent ++ ranges
      done := if m.bytes + n = x.share then some t else m.done }) s
    match window s w with
    | none => s
    | some y => if y.members.all (·.done.isSome) then winCompleting w s else s

/-- An access completes with an error code of Table 10.7: counted, and in the member's entry (R226, Table 10.9). -/
def winRefuse (w source : Nat) (s : State) : State :=
  updWin w (fun x => { x with refused := satAdd 32 x.refused 1, members := x.members.map fun m => if m.node = source then { m with refused := true } else m }) s

/-! ### Contributions -/

/-- Runs of enabled bytes of a line from byte `i` on: start and length. -/
def enabledRuns (mask : Nat) : Nat → Nat → List (Nat × Nat)
  | 0, _ => []
  | n + 1, i =>
    if mask.testBit i then
      match enabledRuns mask n (i + 1) with
      | (a, k) :: t => if a = i + 1 then (i, k + 1) :: t else (i, 1) :: (a, k) :: t
      | [] => [(i, 1)]
    else enabledRuns mask n (i + 1)

/-- A REC element keeps KIND 0 and every reserved byte 0 (R227). -/
def recOk (bs : List Byte) : Bool :=
  let le (o n : Nat) : Nat := leNat ((bs.drop o).take n)
  le 44 1 < 32 && le 45 19 = 0

/-- Write part of a share to the backing or the staging range (R229): a message with its poisoned lines, or the enabled bytes of one line. -/
def backingWrite (x : Window) (base : Nat) (bs : List Byte) (whole : Bool) (marks en : Nat) (s : State) : Bool × State :=
  if whole then engWriteS x.source x.tent base bs s marks
  else engStore x.source x.tent base bs en (marks != 0) s

/-- Absorb every element of a contribution. -/
def absorbAll (x : Window) (off : Nat) (bs : List Byte) (runs : List (Nat × Nat)) (poison : Nat) (s : State) : State :=
  let sz := winSize x.inFmt
  runs.foldl (fun s q =>
    (List.range (q.2 / sz)).foldl (fun s j =>
      let b := q.1 + j * sz
      let e := (off + b) / sz
      setWinRec x e 1 (absorb x.op x.inFmt ((bs.drop b).take sz) (poison.testBit (b / 64)) (winRec s x e)) s) s) s

/-- A write to the contribution aperture at byte `off` (R225 to R230): its status. `mask` holds byte enables of an ordinary store, poisoned lines of a message. -/
def contribute (w source off : Nat) (bs : List Byte) (partial_ : Bool) (mask : Nat) (pline flagged : Bool) (at_ : Option Nat) (s : State) : Nat × State :=
  match window s w with
  | none => (wRefused, s)
  | some x =>
    let no (st : Nat) (s : State) : Nat × State := (st, winRefuse w source s)
    let n := bs.length
    let runs := if partial_ then enabledRuns mask 64 0 else [(0, n)]
    let poison := if partial_ then bitOf pline else mask
    let i := x.members.findIdx? (·.node = source)
    if 4 < x.kind then no wWrongSlot s else
    let msg := 64 < n || flagged
    let lim := if x.reduce then (0, x.share) else match i with
      | some k => (k * x.count, (k + 1) * x.count)
      | none => (0, x.members.length * x.count)
    if msg && (n % 64 != 0 || n = 0 || 4096 < n || off % 64 != 0 || off < lim.1 || lim.2 < off + n || (partial_ && mask != 2 ^ 64 - 1)) then no wBadLength s else
    match i with
    | none => no wNotMember s
    | some k =>
      if x.state != .open then no wWindowState s else
      let sz := winSize x.inFmt
      if x.reduce && runs.any (fun q => (off + q.1) % sz != 0 || q.2 % sz != 0 || x.share < off + q.1 + q.2) then no wBadElement s
      else if x.reduce && x.inFmt = 8 && (List.range (n / 64)).any (fun j => !recOk ((bs.drop (64 * j)).take 64)) then no wBadElement s
      else if !x.reduce && runs.any (fun q => off + q.1 < lim.1 || lim.2 < off + q.1 + q.2) then no wWrongSlot s
      else
        let cnt := runs.foldl (fun a q => a + q.2) 0
        let m := x.members.getD k { node := 0 }
        if m.done.isSome || x.share < m.bytes + cnt then no wOverrun s
        else
          let ranges := runs.map fun q => (off + q.1, q.2)
          if x.reduce && !x.tree then
            (wOk, winAccept w k cnt (poison != 0) ranges at_ (absorbAll x off bs runs poison
              ((List.range ((n + 63) / 64)).foldl (fun s l => ringLoad (x.place ((off + 64 * l) / sz)).1 1 s) s)))
          else
            let base := x.dataAddr + off + (if x.tree then k * x.share else 0)
            let (ok, s) := backingWrite x base bs (!partial_) poison mask s
            if ok then (wOk, winAccept w k cnt (poison != 0) ranges at_ s) else no wBacking s

/-! ### Status line and report -/

/-- EARLIEST of a round (R238). -/
def earliest (x : Window) : Option Nat :=
  x.members.foldl (fun a m => match m.done, a with
    | some d, some b => some (min d b)
    | some d, none => some d
    | none, a => a) none

/-- Is a member late at a round time (R238)? -/
def isLate (x : Window) (t : Nat) (m : Member) : Bool :=
  match earliest x with
  | none => false
  | some e => x.lateNs != 0 && e + x.lateNs < m.done.getD t

/-- STATE code of Table 10.9. -/
def WState.code : WState → Nat
  | .open => 0
  | .completing => 1
  | .complete => 2
  | .failed => 3

/-- The status line at a model time (Table 10.9). -/
def statusLine (x : Window) (now : Nat) : List Byte :=
  let t := x.elapsed.getD (roundTime x now)
  leBytes 1 x.state.code ++ leBytes 1 x.cause ++ leBytes 1 x.kind ++ [0]
    ++ leBytes 2 (x.members.filter (·.done.isSome)).length ++ leBytes 2 (x.members.filter (isLate x t)).length
    ++ leBytes 4 x.round ++ leBytes 4 x.poisonedLines ++ leBytes 4 x.refused ++ leBytes 4 x.mcastFail
    ++ leBytes 4 x.nMatches ++ leBytes 4 x.written ++ leBytes 4 (min t 0xFFFFFFFE) ++ List.replicate 28 0

/-- One entry of the arrival report (Table 10.11). -/
def memberEntry (x : Window) (t : Nat) (m : Member) : List Byte :=
  leBytes 2 m.node
    ++ leBytes 1 (bitOf m.done.isSome ||| place (bitOf (isLate x t m)) 1 1 ||| place (bitOf m.poisoned) 2 1 ||| place (bitOf m.refused) 3 1)
    ++ [0] ++ leBytes 4 m.bytes ++ leBytes 4 (m.first.getD 0xFFFFFFFF) ++ leBytes 4 (m.done.getD 0xFFFFFFFF)

/-- Zero bytes up to a multiple of 64. -/
def pad64 (bs : List Byte) : List Byte := bs ++ List.replicate ((64 - bs.length % 64) % 64) 0

/-- The arrival report (R238). -/
def arrivalReport (x : Window) (now : Nat) : List Byte :=
  let t := x.elapsed.getD (roundTime x now)
  pad64 (statusLine x now ++ (x.members.map (memberEntry x t)).flatten)

/-! ### Reads -/

/-- A read of the slot at byte `off` of the slot (R219, R232): status, bytes, poison mask. The state is tested before the range (log entry 50). -/
def winRead (w source off n : Nat) (at_ : Option Nat) (s : State) : Nat × List Byte × Nat × State :=
  match window s w with
  | none => (wRefused, [], 0, s)
  | some x =>
    let no (st : Nat) (s : State) : Nat × List Byte × Nat × State := (st, [], 0, winRefuse w source s)
    if off < 0x80000000 then no wWrongSlot s
    else if 0xFFFFFFC0 ≤ off then
      let (now, s) := clock s
      (wOk, ((statusLine x now).drop (off - 0xFFFFFFC0)).take n, 0, s)
    else
      let o := off - 0x80000000
      if x.state != (if x.kind = 5 then .open else .complete) then no wWindowState s
      else if x.total < o + n then no wWrongSlot s
      else
        let i := x.members.findIdx? (·.node = source)
        let blk := if x.kind = 2 then x.count / x.members.length * winSize x.outFmt else if x.kind = 5 then x.count else 0
        let own := match i with
          | some k => k * blk ≤ o && o + n ≤ (k + 1) * blk
          | none => false
        if blk != 0 && !own then no wNotMember s
        else
          let (a, k) := lineSpan o n
          match resultRead x (a) (k * 64) s with
          | (none, s) => (wFailed, [], 0, s)
          | (some (bs, m), s) =>
            let s := if x.kind = 5 then
                let got := match i with
                  | some j => min n (x.share - (x.members.getD j { node := 0 }).bytes)
                  | none => 0
                if got = 0 then s else winAccept w (i.getD 0) got false [] at_ s
              else s
            (wOk, (bs.drop (o - a)).take n, m, s)

/-! ### Multicast completions -/

/-- A destination is settled: its data writes have completed and its notify store, if any, has too (R233). -/
def Dest.settled (x : Window) (d : Dest) : Bool :=
  d.out = 0 && (d.failed || d.notify.isNone || d.notified || x.failing)

/-- Issue the notify store of a destination: the 8-byte value 1 (R233). -/
def notifyStore (w i : Nat) (x : Window) (a : Nat) (s : State) : State :=
  let o := a % 64
  issue (.mcast w (x.batch.getD 0) i true) x.source x.tent 3 (a - o) 64 (List.replicate o 0 ++ leBytes 8 1 ++ List.replicate (56 - o) 0) (0xFF <<< o) s

/-- Change a destination. -/
def updDest (w i : Nat) (f : Dest → Dest) (s : State) : State :=
  updWin w (fun x => { x with dests := x.dests.modify i f }) s

/-- MCAST_FAIL counts a destination once (R233). -/
def mcastFail (w i : Nat) (s : State) : State :=
  match (window s w).bind (·.dests[i]?) with
  | some d => if d.counted then s else updWin w (fun x => { x with mcastFail := x.mcastFail + 1 }) (updDest w i (fun d => { d with counted := true, failed := true }) s)
  | none => s

/-- A multicast write or notify store has completed (R233, Table 10.8). -/
def mcastDone (w batch i : Nat) (notify : Bool) (status : Nat) (s : State) : State :=
  match window s w with
  | none => s
  | some x =>
    if x.batch != some batch || x.state != .completing then s else
    let s := updDest w i (fun d => { d with out := d.out - 1, notified := d.notified || notify }) s
    let s := if status = wOk then s else mcastFail w i s
    match window s w with
    | none => s
    | some x =>
      let d := x.dests.getD i ⟨0, none, 0, false, false, false, false⟩
      let s := match d.notify with
        | some a => if d.out = 0 && !d.failed && !d.notified && !x.failing then
            notifyStore w i x a (updDest w i (fun d => { d with out := 1, asked := true }) s) else s
        | none => s
      match window s w with
      | none => s
      | some y =>
        if y.dests.all (Dest.settled y) then (if y.failing then winFail w 1 s else winComplete w s) else s

/-- The window may issue nothing further; of a multicast that has begun, each destination whose notify store was not issued counts (R233). A timeout fails it once the writes already issued have completed, a loss of power at once; CAUSE is set as it enters FAILED (Tables 10.8 and 10.9). -/
def winFailing (w cause : Nat) (s : State) : State :=
  match window s w with
  | none => s
  | some x =>
    let s := updWin w (fun x => { x with failing := true }) s
    let s := (List.range x.dests.length).foldl (fun s i =>
      match x.dests[i]? with
      | some d => if x.state = .completing && x.batch.isSome && d.notify.isSome && !d.asked then mcastFail w i s else s
      | none => s) s
    match window s w with
    | none => s
    | some y => if cause = 2 || y.dests.all (Dest.settled y) then winFail w cause s else s

end Sys2Proof.Machine
end

