-- ==== Sys2Proof/Machine/Deliver.lean ====
section
/-! DEFINITION. Where the completion of a request goes: a port, a dolly transfer (R175, R176, Table 8.12), a window's multicast, a read it redirects (R350); and the shadow buffer of a rushes session (R352 to R354). -/

namespace Sys2Proof.Machine

/-! ### Rushes -/

/-- Bytes that a shadow-buffer entry takes (R352; log entry 7). -/
def Shadow.bytes (x : Shadow) : Nat := 32 + x.data.length

/-- Bytes of the shadow buffer in use. -/
def shadowBytes (s : State) : Nat := s.gaf.rushes.buffer.foldl (fun a x => a + x.bytes) 0

/-- The session ends: 2 PASSED, 3 FAILED, 4 INCOMPLETE (R354, Table 15.10). -/
def rushesEnd (state : Nat) (s : State) : State :=
  let r := s.gaf.rushes
  let s := { s with gaf := { s.gaf with rushes := { r with state := state, buffer := [] } } }
  clapOpt r.clapper 1 (attn 7 (ras 0x11 (if state = 2 then 0 else 2) none r.peer (state - 2) r.compared s))

/-- Enter a difference in the rushes log, which holds 512 entries (R359). -/
def rushesLog (x : Shadow) (kind byte : Nat) (s : State) : State :=
  let l := s.gaf.rushLog
  { s with gaf := { s.gaf with rushLog := (if 512 ≤ l.length then l.drop 1 else l) ++ [⟨x.seq, x.source, x.tent, kind, byte, bits x.addr 0 48⟩] } }

/-- Index of the first byte in which two strings differ. -/
def firstDiff : Nat → List Byte → List Byte → Option Nat
  | _, [], [] => none
  | i, a :: as, b :: bs => if a = b then firstDiff (i + 1) as bs else some i
  | i, _, _ => some i

/-- Compare an entry whose two responses are known, and take it out of the buffer (R352, R354). -/
def rushesCompare (x : Shadow) (s : State) : State :=
  match x.peer, x.ready with
  | some (st, bs, m), true =>
    let r := s.gaf.rushes
    let s := endLimit (shadowLimit x.seq) { s with gaf := { s.gaf with rushes := { r with compared := satAdd 32 r.compared 1, buffer := r.buffer.filter (·.seq != x.seq) } } }
    let diff : Option (Nat × Nat) :=
      if st != x.status then some (0, 0xFFFF)
      else match firstDiff 0 x.data bs with
        | some i => some (1, i)
        | none => if m = x.mask then none else some (1, 0xFFFF)
    match diff with
    | some (k, b) =>
      let s := rushesLog x k b s
      let r := s.gaf.rushes
      rushesEnd 3 { s with gaf := { s.gaf with rushes := { r with mismatch := satAdd 16 r.mismatch 1 } } }
    | none => if s.gaf.rushes.compared ≥ s.gaf.rushes.target then rushesEnd 2 s else s
  | _, _ => s

/-- Change a shadow-buffer entry, then compare it if both responses are there. -/
def rushesPut (seq : Nat) (f : Shadow → Shadow) (s : State) : State :=
  if s.gaf.rushes.state != 1 then s else
  let r := s.gaf.rushes
  let s := { s with gaf := { s.gaf with rushes := { r with buffer := r.buffer.map fun x => if x.seq = seq then f x else x } } }
  match s.gaf.rushes.buffer.find? (·.seq = seq) with
  | some x => if 64 * 1048576 < shadowBytes s then rushesEnd 4 s else rushesCompare x s
  | none => s

/-! ### Dolly transfers -/

/-- Status code of Table 8.12 for the outcome of a request. -/
def dollyCode (status mask : Nat) : Nat :=
  if status = wOk then (if mask = 0 then 0 else 1)
  else if status = wBadLength then 2
  else if status = wRefused then 3
  else 4

/-- The transfer of a run and a ticket. -/
def Xfer.is (run ticket : Nat) (t : Xfer) : Bool := t.run = run && t.ticket = ticket

/-- Change a transfer of a cell. -/
def updXfer (n run ticket : Nat) (f : Xfer → Xfer) (s : State) : State :=
  updCell n (fun x => { x with xfers := x.xfers.map fun t => if t.is run ticket then f t else t }) s

/-- A request of a transfer has completed: data of a read is held, with its poisoned lines, until the transfer retires (R173, R175, R176). -/
def dollyDone (n run ticket dst ty len status : Nat) (data : List Byte) (mask : Nat) (s : State) : State :=
  if !(cellOf s n).xfers.any (·.is run ticket) then s else
  let came := ty = 1 && status = wOk
  let s := if came then ringLoad (n / 32) (data.length / 64) s else s
  updXfer n run ticket (fun t => { t with
    out := t.out - 1, status := max t.status (dollyCode status mask), bytes := if status = wOk then t.bytes + len else t.bytes
    writes := if came then t.writes ++ [(dst, data, mask)] else t.writes }) s

/-! ### Completion of a request -/

/-- Remove a request in flight. -/
def dropTxn (id : Nat) (s : State) : State := { s with fab := { s.fab with txns := s.fab.txns.filter (·.id != id) } }

/-- Rows that a command replaced wait for acknowledgements. -/
def rowsWait (s : State) (op : Nat) : Bool := s.fab.txns.any fun y => match y.origin with | .rows o .. => o = op | _ => false

/-- Deliver a completion to where the request came from. That of a request whose port has failed since is discarded (Table 3.13). -/
def deliver (x : Txn) (status : Nat) (data : List Byte) (mask : Nat) (s : State) : State :=
  let read := x.ty = 1
  let s := if read && status = wOk then notePoisons none (bits x.addr 48 14) (bits x.addr 0 48) (x.len / 64) mask s else s
  let s := match x.shadow with
    | some q => rushesPut q (fun e => { e with status := status, data := data, mask := mask, ready := true }) (startLimit (shadowLimit q) 10000000 s)
    | none => s
  match x.origin with
  | .port p m => if x.losses != (port s p).losses then s else respond p m read x.tent x.cls x.addr status data mask s
  | .dolly n run ticket dst => dollyDone n run ticket dst x.ty x.len status data (if read then mask else x.mask) s
  | .rows op c clap st n => if rowsWait s op then s else clapOpt clap 1 (complete c st 0 n s)
  | .mcast w batch i notify => mcastDone w batch i notify status s
  | .shadow q _ m =>
    let c : Msg := { snode := m.snode, tag := m.tag, addr := m.addr, status := BitVec.ofNat 16 status, length := BitVec.ofNat 13 data.length, mask := BitVec.ofNat 64 mask, data := data }
    let bs := messageBytes (if read && status = wOk then 9 else 8) c
    let e : Egress := ⟨none, 0, x.tent, x.cls, 7, 0x15, { snode := BitVec.ofNat 14 (selfNode s), addr := BitVec.ofNat 64 (s.gaf.rushes.peer <<< 48)
                                                          seq := BitVec.ofNat 16 q, length := BitVec.ofNat 13 bs.length, data := bs }⟩
    match (nodeRoute s s.gaf.rushes.peer).bind fun r => (usablePorts s r.ports).head? with
    | some p => enqueue { e with port := p } s
    | none => s
  | _ => s

/-- The next alternate of a redirected read is asked, or none is left (R350). -/
def askAlternate (parent : Nat) (k : Nat) (s : State) : Option State :=
  match txn s parent with
  | none => none
  | some x =>
    match regionAt s (bits x.addr 0 48) with
    | none => none
    | some (rid, r) =>
      match (find s.kpr.replicas rid).bind fun y => (y.alts[k]?).map fun a => (a, y.source) with
      | none => none
      | some (a, src) =>
        let s := updTxn parent (fun x => { x with stage := .alternate }) s
        some (issue (.replica k parent) src r.owner 1 (a + (bits x.addr 0 48 - r.base)) x.len [] 0 s)

/-- A request completes: it leaves the requests in flight and its completion is delivered. -/
def finish (x : Txn) (status : Nat) (data : List Byte) (mask : Nat) (s : State) : State :=
  let s := dropTxn x.id s
  match x.origin with
  | .replica k parent =>
    match txn s parent with
    | none => s
    | some y =>
      if status = wOk && mask = 0 then
        deliver y wOk data 0 (dropTxn parent (bump .snpReplicaStats 0 32 32 1 s))
      else match askAlternate parent (k + 1) s with
        | some s => s
        | none => deliver y y.held y.data y.mask (dropTxn parent (bump .snpReplicaStats 0 16 16 1 s))
  | _ => deliver x status data mask s

end Sys2Proof.Machine
end

