-- ==== Sys2Proof/Machine/Coh.lean ====
section
/-! DEFINITION. The compatibility coherence domain: agents, transactions on coherent lines (Table 5.5, R109 to R116), write hints (R112), flushes (R118), failed agents (R119). -/

namespace Sys2Proof.Machine

/-! ### Agents -/

/-- COH_AGENT of an agent: the committed entry, or the one being flushed out (R107, R118). -/
def agentEntry (s : State) (a : Nat) : Nat :=
  match s.coh.flushes.find? fun f => match f with | .agent b _ => b = a | .region _ => false with
  | some (.agent _ e) => e
  | _ => mapVal s .cohAgent a

/-- VALID, KIND, TENT, PORT, CACHE_ID and NODE of a COH_AGENT value (Table 5.14). -/
def agValid (e : Nat) : Bool := e.testBit 63
/-- See `agValid`. -/
def agKind (e : Nat) : Nat := bits e 61 2
/-- See `agValid`. -/
def agTent (e : Nat) : Nat := bits e 48 7
/-- See `agValid`. -/
def agPort (e : Nat) : Nat := bits e 40 5
/-- See `agValid`. -/
def agCache (e : Nat) : Nat := bits e 32 4
/-- See `agValid`. -/
def agNode (e : Nat) : Nat := bits e 0 14

/-- The agent on a port, told apart by CacheID for CXL_CACHE (R105). -/
def agentAt (s : State) (p cacheId : Nat) : Option Nat :=
  (List.range 32).find? fun a =>
    let e := agentEntry s a
    agValid e && agPort e = p && (agKind e != 1 || agCache e = cacheId)

/-- Is an agent failed (R119)? -/
def agentFailed (s : State) (a : Nat) : Bool := s.coh.failed.testBit a

/-- Agents on a port. -/
def agentsOn (s : State) (p : Nat) : List Nat :=
  (List.range 32).filter fun a => agValid (agentEntry s a) && agPort (agentEntry s a) = p

/-! ### Lines -/

/-- Set a directory entry; INVALID is not listed. -/
def setDir (line : Nat) (e : DirEntry) (s : State) : State :=
  let s := if e.state = .owned then forgetLine line s else s
  { s with coh := { s.coh with dir := if e.state = .invalid then del s.coh.dir line else put s.coh.dir line e } }

/-- A transaction is in progress on a line: BUSY (R109). -/
def cohBusy (s : State) (line : Nat) : Option CohTxn := s.coh.txns.find? (·.line = line)

/-- Content and poison of a coherent line in memory. -/
def cohMem (s : State) (line : Nat) : List Byte × Bool :=
  match regionAt s (line * 64) with
  | some (_, r) =>
    let (bs, m) := readLines s r (currentView r) 1 0 (line * 64)
    (bs, m != 0)
  | none => (List.replicate 64 0, false)

/-- Bits [55:0] of a line's directory entry as tier 0 holds it (Table 5.3): STATE, BUSY while a transaction runs (R109), POISON, OWNER and SHARERS. The code of CHECK is not given. -/
def dirWord (s : State) (line : Nat) : Nat :=
  let e := dirOf s line
  let st : Nat := if (cohBusy s line).isSome then 3 else match e.state with | .invalid => 0 | .shared => 1 | .owned => 2
  place st 54 2 ||| place (bitOf (cohMem s line).2) 51 1
    ||| (if st = 2 then place e.owner 32 5 else if st = 1 then place e.sharers 0 32 else 0)

/-- The stack of a coherent line is on (R26). -/
def cohUp (s : State) (line : Nat) : Bool := (regionAt s (line * 64)).all fun r => tileUp s r.2 (line * 64) .t0

/-- Write enabled bytes of a coherent line in place (R108); a line that is marked poisoned is logged (R82). A stack that is off takes nothing (R26). -/
def cohPut (line : Nat) (bs : List Byte) (mask : Nat) (poison : Bool) (s : State) : State :=
  match regionAt s (line * 64) with
  | some (k, _) => if cohUp s line then applyLines k 1 bs (line * 64) mask (bitOf poison) (forgetLine line s) else s
  | none => s

/-- A coherence message to an agent, with its CacheID, in a flow (Tables 5.6, 5.7, 16.7, R105, R294). -/
def cohSend (a ty op line tag : Nat) (flow : Nat × Nat) (data : List Byte) (poison : Bool) (s : State) : State :=
  let e := agentEntry s a
  let m : Msg := { proto := match agKind e with | 0 => .native | 1 => .cxlCache | _ => .cxlMem
                   op := BitVec.ofNat 8 op, cacheId := BitVec.ofNat 4 (agCache e), snode := BitVec.ofNat 14 (agNode e), tag := BitVec.ofNat 16 tag
                   addr := BitVec.ofNat 64 (selfNode s <<< 48 ||| line * 64), length := BitVec.ofNat 13 data.length
                   mask := BitVec.ofNat 64 (bitOf poison), data := data }
  if canAnswer s (agPort e) then enqueue ⟨none, agPort e, flow.1, flow.2, ty - 0x20 + 2, ty, m⟩ s else s

/-- A caching request is refused with an error completion (R117 to R119). -/
def cohRefuse (a line tag : Nat) (flow : Nat × Nat) (read : Bool) (s : State) : State :=
  let e := agentEntry s a
  let addr := selfNode s <<< 48 ||| line * 64
  let m : Msg := { proto := match agKind e with | 0 => .native | 1 => .cxlCache | _ => .cxlMem
                   cacheId := BitVec.ofNat 4 (agCache e), snode := BitVec.ofNat 14 (agNode e), tag := BitVec.ofNat 16 tag, addr := BitVec.ofNat 64 addr, length := 64 }
  respond (agPort e) m read flow.1 flow.2 addr wRefused [] 0 s

/-! ### Coherence settings -/

/-- Lines of a region. -/
def inRegion (r : Region) (line : Nat) : Bool := r.base ≤ line * 64 && line * 64 < r.base + r.size

/-- A region is being flushed out of the domain. -/
def regionFlushing (s : State) (k : Nat) : Bool := s.coh.flushes.any fun f => f = .region k

/-- An agent entry is being flushed. -/
def agentFlushing (s : State) (a : Nat) : Bool := s.coh.flushes.any fun f => match f with | .agent b _ => b = a | .region _ => false

/-- An agent may start new caching of a line: neither it nor the line's region is being flushed, and it has not failed (R118, R119). -/
def mayCache (s : State) (a line : Nat) : Bool :=
  !agentFailed s a && !agentFlushing s a && !((regionAt s (line * 64)).any fun r => regionFlushing s r.1)

/-! ### Transactions -/

/-- SNOOP_TIMEOUT_US begins for a line whose Snoop or Hint has left (R119). -/
def awaitSnoop (line : Nat) (s : State) : State := startLimit (snoopLimit line) (max 10 (bits (mapVal s .cohCtl 0) 0 16) * 1000) s

/-- The line number's chunk of a store: bytes, byte enables, poison. -/
def storeLine (x : Txn) (line : Nat) : List Byte × Nat × Bool :=
  if x.ty = 3 then (x.data, x.mask, x.pline) else linePart (bits x.addr 0 48) x.data x.mask line

/-- The flow in which the messages of a request to agent `a` travel (R293, R294): the request's own; for a flush the agent's tent, class 0. -/
def cohFlow (s : State) (a : Nat) : CohReq → Nat × Nat
  | .rdShared _ _ f | .rdOwn _ _ f | .ownNoData _ _ f | .evict _ _ f _ | .engine _ f _ _ _ | .fetch _ f => f
  | .load id | .store id => ((txn s id).map fun x => (x.tent, x.cls)).getD (agTent (agentEntry s a), 0)
  | .flush _ | .hint => (agTent (agentEntry s a), 0)

/-- Snoop of a caching-free store on a line, by whether it writes the whole line (Table 5.5). -/
def storePlan (e : DirEntry) (whole : Bool) : Nat × Nat :=
  match e.state with
  | .invalid => (0, 0)
  | .shared => (0, e.sharers)
  | .owned => (if whole then 0 else 1, 1 <<< e.owner)

/-- Snoop that a request starts on a line, and the agents to snoop (Table 5.5). -/
def cohPlan (s : State) (line : Nat) (req : CohReq) (e : DirEntry) : Nat × Nat :=
  let own := 1 <<< e.owner
  let others (a : Nat) : Nat := (e.sharers ||| 1 <<< a) ^^^ 1 <<< a
  match req, e.state with
  | .rdShared a _ _, .owned => if e.owner = a then (0, 0) else (2, own)
  | .rdOwn a _ _, .shared => (0, others a)
  | .rdOwn a _ _, .owned => if e.owner = a then (0, 0) else (1, own)
  | .ownNoData a _ _, .shared => (0, others a)
  | .ownNoData a _ _, .owned => if e.owner = a then (0, 0) else (0, own)
  | .load _, .owned | .fetch _ _, .owned => (3, own)
  | .store id, _ => storePlan e ((txn s id).all fun x => (storeLine x line).2.1 = 2 ^ 64 - 1)
  | .engine _ _ _ en _, _ => storePlan e (en = 2 ^ 64 - 1)
  | .flush none, .shared => (1, e.sharers)
  | .flush none, .owned => (1, own)
  | .flush (some a), .shared => (1, e.sharers &&& 1 <<< a)
  | .flush (some a), .owned => if e.owner = a then (1, own) else (0, 0)
  | _, _ => (0, 0)

/-- After a store to a line: send its hint to the target agent, or count it dropped (R112). None is sent of a line or to an agent that is being flushed (R118). -/
def cohHintAfter (target : Option Nat) (whole : Bool) (flow : Nat × Nat) (line : Nat) (s : State) : State :=
  match target with
  | none => s
  | some a =>
    let e := agentEntry s a
    let owner := ((regionAt s (line * 64)).map fun r => r.2.owner)
    if !whole || !agValid e || agKind e != 0 || some (agTent e) != owner || !mayCache s a line || s.coh.queue.any (·.1 = line) then bump .cohStats 0 16 16 1 s
    else
      let (bs, p) := cohMem s line
      cohSend a 0x22 0 line 0 flow bs p (awaitSnoop line { s with coh := { s.coh with txns := s.coh.txns ++ [⟨line, .hint, 0, 0, none, some a⟩] } })

/-- The next line of a multi-line access, or its completion. -/
def cohNextLine (x : Txn) (line : Nat) (req : CohReq) (s : State) : List (Nat × CohReq) × State :=
  if (line + 1) * 64 < bits x.addr 0 48 + x.len then
    ([(line + 1, req)], updTxn x.id (fun y => { y with stage := .coherent (line + 1) }) s)
  else
    let (bs, m) := if x.ty = 1 then cutLines (bits x.addr 0 48) x.len x.data x.mask else (x.data, x.mask)
    ([], finish x wOk bs m s)

/-- A read of a coherent line that memory served is counted for a tent (R30, R139). -/
def cohCount (t line : Nat) (got : Option (List Byte × Bool)) (s : State) : State :=
  match got, regionAt s (line * 64) with
  | none, some (_, r) => countReads r (currentView r) t 1 (line * 64) s
  | _, _ => s

/-- A request whose snoops are answered takes effect (Table 5.5, R110, R111); more work may follow. A request of an agent that has failed since is refused (R119). -/
def cohEnd (line : Nat) (req : CohReq) (got : Option (List Byte × Bool)) (s : State) : List (Nat × CohReq) × State :=
  let e := dirOf s line
  let (bs, p) := got.getD (cohMem s line)
  let c2c (s : State) : State := if got.isSome then bump .cohStats 0 48 16 1 s else s
  match req with
  | .rdShared a tag f =>
    if agentFailed s a then ([], cohRefuse a line tag f true s) else
    let excl := e.state = .invalid || (e.state = .owned && e.owner = a)
    let e' : DirEntry := if excl then { state := .owned, owner := a } else { state := .shared, sharers := e.sharers ||| 1 <<< a }
    ([], cohSend a 0x24 0 line tag f bs p (cohSend a 0x23 (if excl then 0 else 1) line tag f [] false (c2c (setDir line e' (cohCount f.1 line got s)))))
  | .rdOwn a tag f =>
    if agentFailed s a then ([], cohRefuse a line tag f true s) else
    ([], cohSend a 0x24 0 line tag f bs p (cohSend a 0x23 2 line tag f [] false (c2c (setDir line { state := .owned, owner := a } (cohCount f.1 line got s)))))
  | .ownNoData a tag f =>
    if agentFailed s a then ([], cohRefuse a line tag f false s) else
    ([], cohSend a 0x23 2 line tag f [] false (setDir line { state := .owned, owner := a } s))
  | .evict a tag f d =>
    let s := match e.state with
      | .owned => if e.owner = a then
          setDir line {} (match d with | some (b, q) => cohPut line b (2 ^ 64 - 1) q s | none => s) else s
      | .shared =>
        let sh := (e.sharers ||| 1 <<< a) ^^^ 1 <<< a
        setDir line (if sh = 0 then {} else { e with sharers := sh }) s
      | .invalid => s
    ([], cohSend a 0x23 7 line tag f [] false s)
  | .load id =>
    match txn s id with
    | none => ([], s)
    | some x =>
      if !cohUp s line then ([], finish x wFailed [] 0 s) else
      let i := line - bits x.addr 0 48 / 64
      let x' := { x with data := x.data ++ bs, mask := if p then x.mask ||| 2 ^ i else x.mask }
      cohNextLine x' line req (updTxn id (fun y => { y with data := x'.data, mask := x'.mask }) (cohCount x.tent line got s))
  | .store id =>
    match txn s id with
    | none => ([], s)
    | some x =>
      if !cohUp s line then ([], finish x wFailed [] 0 s) else
      let (b, en, q) := storeLine x line
      let s := cohPut line b en q (setDir line {} s)
      let (w, s) := cohNextLine x line req s
      (w, cohHintAfter (x.hint.orElse fun _ => hintEntry s x.source) (en = 2 ^ 64 - 1) (x.tent, x.cls) line s)
  | .engine source f b en q =>
    let s := cohPut line b en q (setDir line {} s)
    ([], cohHintAfter (hintEntry s source) (en = 2 ^ 64 - 1) f line s)
  | .fetch key _ =>
    let s := { s with coh := { s.coh with got := put s.coh.got key (if cohUp s line then some (bs, p) else none) } }
    ([], wake (fun g => match g with | .gather _ => true | _ => false) s)
  | .flush _ => ([], s)
  | .hint => ([], s)

/-- A caching request that may not start caching (R118, R119): its agent, tag, flow, and whether it reads. -/
def cohBarred (s : State) (line : Nat) : CohReq → Option (Nat × Nat × (Nat × Nat) × Bool)
  | .rdShared a tag f | .rdOwn a tag f => if mayCache s a line then none else some (a, tag, f, true)
  | .ownNoData a tag f => if mayCache s a line then none else some (a, tag, f, false)
  | _ => none

/-- Start the first request whose line no transaction runs on: its snoops leave, or it takes effect at once; and so on (R115). What has to do with one line happens in arrival order. -/
def cohKick : Nat → State → State
  | 0, s => s
  | n + 1, s =>
    match takeFirst (fun q => (cohBusy s q.1).isNone) s.coh.queue with
    | none => s
    | some ((line, req), left) =>
      let s := { s with coh := { s.coh with queue := left } }
      match cohBarred s line req with
      | some (a, tag, f, read) => cohKick n (cohRefuse a line tag f read s)
      | none =>
      let (op, wait) := cohPlan s line req (dirOf s line)
      if wait != 0 then
        let s := awaitSnoop line { s with coh := { s.coh with txns := s.coh.txns ++ [⟨line, req, wait, op, none, none⟩] } }
        cohKick n ((setBits 32 wait).foldl (fun s a => cohSend a 0x21 op line 0 (cohFlow s a req) [] false s) s)
      else
        let (more, s) := cohEnd line req none s
        cohKick n { s with coh := { s.coh with queue := s.coh.queue ++ more } }

/-- Enough steps for all the work there can be: every request in flight has at most 64 lines. -/
def cohFuel (s : State) : Nat := 70 * (s.fab.txns.length + 1) + s.coh.queue.length + s.coh.dir.length + 64

/-- Requests of agents, accesses, or a flush join the directory's queue, and what can start does. -/
def cohStart (work : List (Nat × CohReq)) (s : State) : State :=
  cohKick (cohFuel s + work.length) { s with coh := { s.coh with queue := s.coh.queue ++ work } }

/-- A transaction whose every answer is in takes effect, and the line's next request starts. -/
def cohSettle (t : CohTxn) (s : State) : State :=
  let s := endLimit (snoopLimit t.line) { s with coh := { s.coh with txns := s.coh.txns.filter (·.line != t.line) } }
  let (more, s) := cohEnd t.line t.req t.data s
  cohStart more s

/-- An agent no longer holds a line. -/
def dropHolder (line a : Nat) (s : State) : State :=
  let e := dirOf s line
  match e.state with
  | .owned => if e.owner = a then setDir line {} s else s
  | .shared =>
    let sh := (e.sharers ||| 1 <<< a) ^^^ 1 <<< a
    setDir line (if sh = 0 then {} else { e with sharers := sh }) s
  | .invalid => s

/-- What an agent answers to a snoop. -/
inductive CohAns where
  | ackI
  | ackS
  | data (dirty : Bool) (bs : List Byte) (poison : Bool)
deriving DecidableEq, Repr

/-- An answer to a snoop arrives (R110, R111); one that no transaction awaits is discarded and counted (Table 16.10). -/
def cohAnswer (p line a : Nat) (ans : CohAns) (s : State) : State :=
  match (cohBusy s line).filter fun t => t.wait.testBit a with
  | none => bump .prtErrors p 16 16 1 s
  | some t =>
    let s := match ans, t.snoop with
      | .ackI, _ => dropHolder line a s
      | _, 2 => setDir line { state := .shared, sharers := 1 <<< a } s
      | _, 3 => s
      | _, _ => dropHolder line a s
    let s := match ans with
      | .data true bs q => if t.snoop = 3 || (t.snoop = 0) then s else cohPut line bs (2 ^ 64 - 1) q s
      | _ => s
    let t' := { t with wait := (t.wait ||| 1 <<< a) ^^^ 1 <<< a
                       data := match ans with | .data _ bs q => if t.snoop = 0 then t.data else some (bs, q) | _ => t.data }
    let s := { s with coh := { s.coh with txns := s.coh.txns.map fun x => if x.line = line then t' else x } }
    if t'.wait = 0 then cohSettle t' s else s

/-- The answer to a hint (R112). -/
def cohHintAnswer (p line a : Nat) (accept : Bool) (s : State) : State :=
  match (cohBusy s line).filter fun t => t.hintTo = some a with
  | none => bump .prtErrors p 16 16 1 s
  | some t =>
    let s := if accept then bump .cohStats 0 32 16 1 (setDir line { state := .owned, owner := a } s) else bump .cohStats 0 16 16 1 s
    cohSettle t s

/-- Does a queued request come from an agent? -/
def CohReq.fromAgent (a : Nat) : CohReq → Bool
  | .rdShared b _ _ | .rdOwn b _ _ | .ownNoData b _ _ | .evict b _ _ _ => a = b
  | _ => false

/-- An agent fails (R119): its lines are poisoned, which is logged (R82), and go INVALID, it leaves every SHARERS vector, its waiting requests end, and what waited on it goes on. DESIGN CHOICE (log entry 51): a Hint that it has not answered counts in HINTS_DROPPED too, which Table 5.13 gives for hints declined or not sent. -/
def agentFail (a : Nat) (s : State) : State :=
  if agentFailed s a then s else
  let s := ras 0x0B 2 none (agNode (agentEntry s a)) a 0 { s with coh := { s.coh with failed := s.coh.failed ||| 1 <<< a } }
  let owned := s.coh.dir.filter fun e => e.2.state = .owned && e.2.owner = a
  let s := owned.foldl (fun s e => setDir e.1 {} (match regionAt s (e.1 * 64) with
    | some (_, r) => notePoison none (selfNode s) (e.1 * 64) (setPoison (writeTile r (granuleOf r (e.1 * 64))) (bits (e.1 * 64) 6 10) true s)
    | none => s)) s
  let s := s.coh.dir.foldl (fun s e => dropHolder e.1 a s) s
  let mine := s.coh.queue.filter fun q => q.2.fromAgent a
  let s := { s with coh := { s.coh with queue := s.coh.queue.filter fun q => !q.2.fromAgent a } }
  let s := mine.foldl (fun s q => match q.2 with
    | .rdShared _ tag f | .rdOwn _ tag f => cohRefuse a q.1 tag f true s
    | .ownNoData _ tag f | .evict _ tag f _ => cohRefuse a q.1 tag f false s
    | _ => s) s
  let waiting := s.coh.txns.filter fun t => t.wait.testBit a || t.hintTo = some a
  waiting.foldl (fun s t =>
    if t.hintTo = some a then cohSettle t (bump .cohStats 0 16 16 1 s)
    else
      let t' := { t with wait := (t.wait ||| 1 <<< a) ^^^ 1 <<< a }
      let s := { s with coh := { s.coh with txns := s.coh.txns.map fun x => if x.line = t.line then t' else x } }
      if t'.wait = 0 then cohSettle t' s else s) s

/-! ### Lines that engines wait for -/

/-- The lines that engines' loads have asked for, of which no snoop or request is under way, are brought: by the directory, or from their host (R111, R125). -/
def startNeeds (s : State) : State :=
  let ns := s.coh.need
  ns.foldl (fun s x =>
    if has s.coh.got x.key || s.coh.queue.any (fun q => match q.2 with | .fetch k _ => k = x.key | _ => false)
      || s.coh.txns.any (fun t => match t.req with | .fetch k _ => k = x.key | _ => false)
      || s.fab.txns.any (fun t => match t.origin with | .fetch k => k = x.key | _ => false) then s
    else match x.host with
      | none => { s with coh := { s.coh with queue := s.coh.queue ++ [(x.line, .fetch x.key (x.tent, x.cls))] } }
      | some a => issue (.fetch x.key) (selfNode s) x.tent 1 a 64 [] 0 s false x.cls) { s with coh := { s.coh with need := [] } }

/-- A line that a host returned, or failed (R125), is there for the load that waits for it. -/
def lineCame (key status : Nat) (bs : List Byte) (mask : Nat) (s : State) : State :=
  let d := if status = wOk then some ((bs ++ List.replicate (64 - bs.length) 0).take 64, mask != 0) else none
  wake (fun g => match g with | .gather _ => true | _ => false) { s with coh := { s.coh with got := put s.coh.got key d } }

/-! ### Coherence settings and flushes -/

/-- Directory tiles of a region: 8 bytes per line (R106). -/
def dirTiles (r : Region) : Nat := (r.size / 8 + tileBytes - 1) / tileBytes

/-- Lines of the directory that a test picks, or that a request has been started on or waits for (R118). -/
def linesInUse (p : Nat → Bool) (s : State) : List Nat :=
  (s.coh.dir.map Prod.fst ++ s.coh.txns.map (·.line) ++ s.coh.queue.map Prod.fst).foldl (fun l x => if p x then insNat l x else l) []

/-- Start the flush of a region's lines (R118), those with a transaction in progress included. -/
def startRegionFlush (k : Nat) (s : State) : State :=
  match region s k with
  | none => s
  | some r =>
    let s := { s with coh := { s.coh with flushes := s.coh.flushes ++ [.region k] } }
    cohStart ((linesInUse (inRegion r) s).map fun l => (l, .flush none)) s

/-- Start the flush of an agent's lines (R118), and of those on which a transaction may give it one. -/
def startAgentFlush (a entry : Nat) (s : State) : State :=
  let s := { s with coh := { s.coh with flushes := s.coh.flushes ++ [.agent a entry] } }
  let held (l : Nat) : Bool :=
    let e := dirOf s l
    (e.state = .owned && e.owner = a) || (e.state = .shared && e.sharers.testBit a) || s.coh.txns.any (·.line = l)
  cohStart ((linesInUse held s).map fun l => (l, .flush (some a))) s

/-- The walk of a region's flush has ended: nothing of it is cached or in progress. -/
def regionFlushed (s : State) (r : Region) : Bool :=
  !(s.coh.dir.any fun e => inRegion r e.1) && !(s.coh.txns.any fun t => inRegion r t.line) && !(s.coh.queue.any fun q => inRegion r q.1)

/-- The region leaves the domain (R108, R118): its number advances and its directory space is free again. -/
def leaveDomain (k : Nat) (s : State) : State :=
  match region s k with
  | none => s
  | some r =>
    if regionFlushing s k && regionFlushed s r then
      let n := nextReel r.current
      let s := giveFree0 (dirTiles r) { s with coh := { s.coh with flushes := s.coh.flushes.filter (· != .region k) } }
      closeWeights k r.current (updRegion k (fun r => { r with coherent := false, current := n, reels := r.reels.map fun x => { x with num := n } }) s)
    else s

/-- An agent's flush has ended: its FAILED bit clears (R119). -/
def endAgentFlush (a : Nat) (s : State) : State :=
  let held := s.coh.dir.any fun e => (e.2.state = .owned && e.2.owner = a) || (e.2.state = .shared && e.2.sharers.testBit a)
  let busy := s.coh.txns.any fun t => t.wait.testBit a || t.req = .flush (some a)
  if agentFlushing s a && !held && !busy && !(s.coh.queue.any fun q => q.2 = .flush (some a)) then
    { s with coh := { s.coh with
        flushes := s.coh.flushes.filter fun f => match f with | .agent b _ => b != a | .region _ => true
        failed := (s.coh.failed ||| 1 <<< a) ^^^ 1 <<< a } }
  else s

/-- A region enters the domain at the boundary (R106, R108): directory space leaves free tier 0. -/
def enterDomain (k : Nat) (s : State) : State :=
  match region s k with
  | none => s
  | some r =>
    match takeFree0 (dirTiles r) s with
    | some s => updRegion k (fun r => { r with coherent := true }) s
    | none => s

end Sys2Proof.Machine
end

