-- ==== Sys2Proof/Machine/Emb.lean ====
section
/-! DEFINITION. The gather/embedding and KV engine: tables, bag sets and bag reads (R245 to R258), KV caches and views (R259 to R262), ATTN.DECODE (R263 to R267). -/

namespace Sys2Proof.Machine

/-- Access codes of Table 11.5. -/
def gNotBound : Nat := 0x0901
/-- See `gNotBound`. -/
def gBadBag : Nat := 0x0902
/-- See `gNotBound`. -/
def gBadIndex : Nat := 0x0903
/-- See `gNotBound`. -/
def gUnmapped : Nat := 0x0904
/-- See `gNotBound`. -/
def gListRefused : Nat := 0x0905
/-- See `gNotBound`. -/
def gReadOnly : Nat := 0x0906

/-- Change the engine's state. -/
def updGth (f : Gather → Gather) (s : State) : State := { s with gth := f s.gth }

/-- Count an access by its status (Table 11.16). -/
def countGth (st : Nat) (s : State) : State :=
  if st = gBadIndex then bump .gthErrors 0 48 16 1 s
  else if st = gBadBag then bump .gthErrors 0 32 16 1 s
  else if st = gNotBound || st = gUnmapped then bump .gthErrors 0 16 16 1 s
  else if st = gListRefused || st = gReadOnly then bump .gthErrors 0 0 16 1 s
  else s

/-- A range lies in one region that a tent owns (R247, R259). -/
def ownedRange (s : State) (t base len : Nat) : Bool :=
  s.pool.regions.any fun e => e.2.owner = t && covers e.2.base e.2.size base len

/-! ### Tables -/

/-- Code bytes of a row. -/
def Table.codeBytes (x : Table) : Nat := if x.code = 0 then x.dim else x.dim / 2

/-- Output format and its element size (R250). -/
def Table.outFF (x : Table) : FF := if x.outFmt = 0 then .f32 else if x.outFmt = 1 then .bf16 else .f16
/-- See `Table.outFF`. -/
def Table.outSize (x : Table) : Nat := if x.outFmt = 0 then 4 else 2
/-- OUT_ROW (R250). -/
def Table.outRow (x : Table) : Nat := x.dim * x.outSize
/-- BAG_STRIDE (R250). -/
def Table.stride' (x : Table) (b : BagSet) : Nat := if b.pool = 0 then b.maxBag * x.outRow else x.outRow

/-- The table an EMB.DEFINE describes. -/
def tableOf (d : Desc) : Table :=
  { tent := dtent d, code := opf d 17 0 2, outFmt := opf d 17 2 2, dim := opf d 18 0 16, stride := opf d 20 0 32
    rows := opf d 24 0 64, codeBase := opf d 32 0 64, paramBase := opf d 40 0 64 }

/-- Field check of EMB.DEFINE (Table 11.2). -/
def stageEmbDefine (d : Desc) : Option Nat :=
  let x := tableOf d
  if opf d 17 7 1 = 1 then (if onlyFields d [(16, 0, 8), (17, 7, 1)] then none else some stBadField)
  else if !onlyFields d [(16, 0, 8), (17, 0, 4), (18, 0, 16), (20, 0, 32), (24, 0, 64), (32, 0, 64), (40, 0, 64)]
    || 2 ≤ x.code || x.outFmt = 3 || x.dim < 32 || 4096 < x.dim || x.dim % 32 != 0
    || x.stride % 16 != 0 || x.stride < x.codeBytes || 8192 < x.stride || x.rows = 0 || 2 ^ 32 < x.rows
    || x.codeBase % 64 != 0 || x.paramBase % 64 != 0 then some stBadField
  else none

/-- Outputs of a table, or of one of its sets, leave the pooled-row buffer (R247, R250). -/
def dropBuffered (t : Nat) (set : Option Nat) (s : State) : State :=
  updGth (fun g => { g with buf := g.buf.filter fun e => !(e.2.table = t && set.all (· = e.2.set)) }) s

/-- EMB.DEFINE applied (R247). -/
def applyEmbDefine (d : Desc) (s : State) : ApplyRes :=
  let k := opf d 16 0 8
  if opf d 17 7 1 = 1 then
    match find s.gth.tables k with
    | none => bad stNotFound
    | some x => if x.tent != dtent d then bad stResourceBusy
                else if fresh s (!pdOn s 23) then bad stPowerOff
                else good (dropBuffered k none (updGth (fun g => { g with tables := del g.tables k }) s))
  else
    let x := tableOf d
    if has s.gth.tables k then bad stResourceBusy
    else if !ownedRange s x.tent x.codeBase (x.rows * x.stride) || !ownedRange s x.tent x.paramBase (x.rows * 4) then bad stNotOwner
    else if fresh s (!pdOn s 23) then bad stPowerOff
    else good (updGth (fun g => { g with tables := put g.tables k x }) s)

/-- Field check of EMB.BAG_SET (Table 11.3). -/
def fieldsBagSet (d : Desc) : Option Nat :=
  let pool := opf d 17 2 2
  let m := opf d 18 0 16
  if !onlyFields d [(16, 0, 8), (17, 0, 4), (18, 0, 16), (20, 0, 32), (24, 0, 64), (32, 0, 64)]
    || pool = 3 || (if pool = 0 then m = 0 || 1024 < m else m != 0) || opf d 24 0 64 % 64 != 0 || opf d 32 0 64 % 64 != 0
  then some stBadField else none

/-- Body of EMB.BAG_SET (R250). -/
def bodyBagSet (d : Desc) (c : CRef) (s : State) : State :=
  let k := opf d 16 0 8
  let set := opf d 17 0 2
  let b : BagSet := ⟨opf d 17 2 2, opf d 18 0 16, opf d 20 0 32, opf d 24 0 64, opf d 32 0 64⟩
  match find s.gth.tables k with
  | none => reject c stNotFound s
  | some x =>
    if 2 ^ 32 < b.bags * x.stride' b then reject c stBadField s
    else if x.tent != dtent d then reject c stNotPermitted s
    else if !pdOn s 23 then reject c stPowerOff s
    else
      let s := updGth (fun g => { g with tables := upd g.tables k fun x => { x with sets := if b.bags = 0 then del x.sets set else put x.sets set b } }) s
      complete c stSuccess 0 0 (dropBuffered k (some set) s)

/-! ### Bag reads -/

/-- A dequantised row: fp32 elements, and which depend on a poisoned line (R248, R249, R254). -/
structure RowVal where
  vals : List Nat
  bad : List Bool
deriving DecidableEq, Repr

/-- Code i of a row's bytes (R248). -/
def codeAt (x : Table) (bs : List Byte) (i : Nat) : Int :=
  if x.code = 0 then sext 8 (bs.getD i 0).toNat else sext 4 (bits (bs.getD (i / 2) 0).toNat (4 * (i % 2)) 4)

/-- Read and dequantise a row (R246, R248, R249). -/
def readRow (x : Table) (source r : Nat) (s : State) : Option RowVal × State :=
  let a := x.codeBase + r * x.stride
  match engRead source x.tent a x.codeBytes s with
  | (none, s) => (none, s)
  | (some cs, s) =>
    match engRead source x.tent (x.paramBase + 4 * r) 4 s with
    | (none, s) => (none, s)
    | (some ps, s) =>
      let sc := FF.f16.decode (leNat (ps.data.take 2))
      let of := FF.f16.decode (leNat (ps.data.drop 2))
      let at_ (i : Nat) : Nat := (a % 64 + (if x.code = 0 then i else i / 2)) / 64
      let v : RowVal := ⟨(List.range x.dim).map fun i => FF.f32.round (sumFV [mulFV (FV.ofInt (codeAt x cs.data i) 0) sc, of]),
                         (List.range x.dim).map fun i => ps.poison || cs.mask.testBit (at_ i)⟩
      (some v, bump .gthRows 0 0 64 1 s)

/-- Rows of a list of indices. -/
def readRows (x : Table) (source : Nat) : List Nat → State → Option (List RowVal) × State
  | [], s => (some [], s)
  | r :: rs, s =>
    match readRow x source r s with
    | (none, s) => (none, s)
    | (some v, s) => match readRows x source rs s with
      | (none, s) => (none, s)
      | (some vs, s) => (some (v :: vs), s)

/-- One output row as bytes, and its elements' poison. -/
def outRowBytes (x : Table) (v : RowVal) : List Byte := (v.vals.map fun e => leBytes x.outSize (FF.cvt .f32 x.outFF e)).flatten

/-- The pooled row of a bag (R253). -/
def pooled (x : Table) (mean : Bool) (rs : List RowVal) : RowVal :=
  let n := rs.length
  ⟨(List.range x.dim).map fun i =>
      let t := (treeSum f32add 12 (rs.map fun r => some (r.vals.getD i 0))).getD 0
      if mean && 0 < n then f32divNat t n else t,
   (List.range x.dim).map fun i => rs.any fun r => r.bad.getD i false⟩

/-- Poisoned lines of an output row that starts a line. -/
def rowPoison (x : Table) (v : RowVal) : Nat := lineMask x.outSize v.bad

/-- The output of a bag: bytes and poisoned lines, or an access error (R251 to R254). Under POOL NONE only the rows of `want`, a range of output bytes, are read. -/
def bagOutput (x : Table) (b : BagSet) (source bag : Nat) (want : Option (Nat × Nat)) (s : State) : Except Nat (List Byte × Nat) × State :=
  match engRead source x.tent (b.offs + 4 * bag) 8 s with
  | (none, s) => (.error gListRefused, s)
  | (some os, s) =>
    let k0 := leNat (os.data.take 4)
    let k1 := leNat (os.data.drop 4)
    let n := k1 - k0
    if k1 < k0 || 1024 < n || (b.pool = 0 && b.maxBag < n) then (.error gBadBag, s) else
    match engRead source x.tent (b.idx + 4 * k0) (4 * n) s with
    | (none, s) => (.error gListRefused, s)
    | (some is, s) =>
      let rows := (List.range n).map fun j => leNat ((is.data.drop (4 * j)).take 4)
      if rows.any (x.rows ≤ ·) then (.error gBadIndex, s) else
      let lo := match want with | some w => w.1 / x.outRow | none => 0
      let hi := match want with | some w => min n ((w.1 + w.2 + x.outRow - 1) / x.outRow) | none => n
      let used := if b.pool = 0 then (rows.take hi).drop lo else rows
      match readRows x source used s with
      | (none, s) => (.error gListRefused, s)
      | (some vs, s) =>
        let all := is.poison || os.poison
        let total := x.stride' b
        let (bs, m) :=
          if b.pool = 0 then
            let body := (vs.map (outRowBytes x)).flatten
            let marks := (List.range vs.length).foldl (fun m i => m ||| (rowPoison x (vs.getD i ⟨[], []⟩)) <<< ((lo + i) * (x.outRow / 64))) 0
            (List.replicate (lo * x.outRow) (0 : Byte) ++ body, marks)
          else
            let v := pooled x (b.pool = 2) vs
            (outRowBytes x v, rowPoison x v)
        (.ok (bs ++ List.replicate (total - bs.length) 0, if all then 2 ^ (total / 64) - 1 else m), s)

/-- Bytes in the pooled-row buffer. -/
def bufBytes (s : State) : Nat := s.gth.buf.foldl (fun a e => a + e.2.data.length) 0

/-- Make room for an output: the oldest goes first (R255). -/
def makeRoom : Nat → Nat → State → State
  | 0, _, s => s
  | n + 1, need, s => if bufBytes s + need ≤ 16777216 then s else makeRoom n need (updGth (fun g => { g with buf := g.buf.drop 1 }) s)

/-- Lines `[o, o+n)` of a bag's output, from the buffer where it holds them (R255). -/
def bagLines (k set bag source o n : Nat) (x : Table) (b : BagSet) (s : State) : Except Nat (List Byte × Nat) × State :=
  let cut (bs : List Byte) (m : Nat) : List Byte × Nat := ((bs.drop o).take n, (m >>> (o / 64)) % 2 ^ (n / 64))
  let lines := (List.range (n / 64)).map (o / 64 + ·)
  match s.gth.buf.find? fun e => e.2.table = k && e.2.set = set && e.2.bag = bag && e.2.source = source with
  | some (j, e) =>
    let seen := lines.foldl insNat e.seen
    let s := updGth (fun g => { g with buf := if seen.length = e.data.length / 64 then del g.buf j else upd g.buf j fun e => { e with seen := seen } }) s
    (.ok (cut e.data (e.poison.foldl (fun m i => m ||| 2 ^ i) 0)), s)
  | none =>
    let big := 4194304 < x.stride' b
    match bagOutput x b source bag (if big then some (o, n) else none) s with
    | (.error st, s) => (.error st, s)
    | (.ok (bs, m), s) =>
      if big || lines.length = bs.length / 64 then (.ok (cut bs m), s) else
      let s := makeRoom s.gth.buf.length bs.length s
      let (now, s) := clock s
      let hold := fld s .gthBufCtl 0 0 16
      let e : Buffered := ⟨k, set, bag, source, bs, setBits (bs.length / 64) m, lines, now + hold * 1000⟩
      (.ok (cut bs m), updGth (fun g => { g with buf := put g.buf g.nextBuf e, nextBuf := g.nextBuf + 1 }) s)

/-- Read line by line: each line of a bag window lies in one bag. -/
def bagRead (t source : Nat) : Nat → Nat → State → Except Nat (List Byte × List Bool) × State
  | 0, _, s => (.ok ([], []), s)
  | n + 1, off, s =>
    let k := off / 0x400000000
    let set := off / 0x100000000 % 4
    match (find s.gth.tables k).bind fun x => (find x.sets set).map fun b => (x, b) with
    | none => (.error gNotBound, s)
    | some (x, b) =>
      let y := off % 0x100000000
      let st := x.stride' b
      if x.tent != t then (.error wRefused, s)
      else if b.bags ≤ y / st then (.error gNotBound, s)
      else match bagLines k set (y / st) source (y % st) 64 x b s with
        | (.error e, s) => (.error e, s)
        | (.ok (bs, m), s) =>
          match bagRead t source n (off + 64) s with
          | (.error e, s) => (.error e, s)
          | (.ok (bs', ms), s) => (.ok (bs ++ bs', (m % 2 = 1) :: ms), s)

/-! ### Row replacement -/

/-- Field check of EMB.ROW_REPLACE (Table 11.4). -/
def fieldsRowReplace (d : Desc) : Option Nat :=
  let n := opf d 20 0 32
  if !onlyFields d [(16, 0, 8), (18, 0, 14), (20, 0, 32), (24, 0, 64), (32, 0, 64), (40, 0, 32)] || n = 0 || 65536 < n
    || opf d 24 0 64 % 64 != 0 || opf d 32 0 64 % 64 != 0 then some stBadField else none

/-- Replace rows in list order; answers the status and the rows replaced (R256, R257). The codes and the parameter word of a row are written together or not at all, at its swap point. A poisoned index or staging line poisons what is written from it (Table 3.14). A row for whose lines no tile can be had, or that cannot be reached, ends the command as one that may not be written does (log entry 35). -/
def replaceRows (x : Table) (source : Nat) (idx new : EngRead) (sz : Nat) : Nat → Nat → State → Nat × Nat × State
  | 0, k, s => (stSuccess, k, s)
  | n + 1, k, s =>
    let r := leNat ((idx.data.drop (4 * k)).take 4)
    let rc := (new.data.drop (k * sz)).take sz
    if x.rows ≤ r then (stBadField, k, s) else
    let a := x.codeBase + r * x.stride
    let p := x.paramBase + 4 * r
    let all := idx.mask.testBit (k / 16)
    let marks := if all then 2 ^ 129 - 1 else new.mask >>> (k * (sz / 64))
    match engPut source x.tent clsEngine [(a, x.codeBytes), (p, 4)]
        (lineParts a ((rc.drop 64).take x.codeBytes) (marks / 2) ++ lineParts p (rc.take 4) (marks % 2)) s with
    | (false, s) => (stNotPermitted, k, s)
    | (true, s) => replaceRows x source idx new sz n (k + 1) s

/-! ### KV caches -/

/-- Element size of a KV format. -/
def KvCache.elem (x : KvCache) : Nat := if x.fmt ≤ 1 then 2 else 1

/-- PAGE_BYTES (R259). -/
def KvCache.pageBytes (x : KvCache) : Nat := 128 * x.hkv * x.dh * x.elem

/-- Free tier-0 tiles of a cache's table area (R259). -/
def kvTiles (seqs : Nat) : Nat := (seqs * 131136 + tileBytes - 1) / tileBytes

/-- The cache a KV.DEFINE describes. -/
def cacheOf (d : Desc) : KvCache :=
  { tent := dtent d, fmt := opf d 17 0 2, hkv := opf d 18 0 8, dh := opf d 20 0 16, seqs := opf d 22 0 16, pages := opf d 24 0 32
    base := opf d 32 0 64, kScale := opf d 40 0 32, vScale := opf d 44 0 32 }

/-- Field check of KV.DEFINE (Table 11.6, R259). -/
def stageKvDefine (d : Desc) : Option Nat :=
  let x := cacheOf d
  if opf d 16 7 1 = 1 then (if onlyFields d [(16, 0, 4), (16, 7, 1)] then none else some stBadField)
  else if !onlyFields d [(16, 0, 4), (17, 0, 2), (18, 0, 8), (20, 0, 16), (22, 0, 16), (24, 0, 32), (32, 0, 64), (40, 0, 32), (44, 0, 32)]
    || x.hkv = 0 || 64 < x.hkv || x.dh < 32 || 512 < x.dh || x.dh % 32 != 0 || x.seqs = 0 || 4096 < x.seqs
    || x.pages = 0 || 16777216 < x.pages || x.base % 0x10000 != 0
    || (x.fmt ≤ 1 && (x.kScale != 0x3F800000 || x.vScale != 0x3F800000)) || 1048576 < x.pageBytes then some stBadField
  else none

/-- A cache ceases to exist: its views are unbound and its table area is free again (R259). -/
def removeCache (k : Nat) (s : State) : State :=
  match find s.gth.caches k with
  | none => s
  | some x => giveFree0 (kvTiles x.seqs) (updGth (fun g => { g with caches := del g.caches k, views := g.views.filter fun v => v.2.1 != k }) s)

/-- KV.DEFINE applied (R259). -/
def applyKvDefine (d : Desc) (s : State) : ApplyRes :=
  let k := opf d 16 0 4
  if opf d 16 7 1 = 1 then
    match find s.gth.caches k with
    | none => bad stNotFound
    | some x => if x.tent != dtent d then bad stResourceBusy else if fresh s (!pdOn s 23) then bad stPowerOff else good (removeCache k s)
  else
    let x := cacheOf d
    if has s.gth.caches k then bad stResourceBusy
    else if !ownedRange s x.tent x.base (x.pages * x.pageBytes) then bad stNotOwner
    else match takeFree0 (kvTiles x.seqs) s with
    | none => bad stNoResource
    | some s => if fresh s (!pdOn s 23) then bad stPowerOff else good (updGth (fun g => { g with caches := put g.caches k x }) s)

/-- Field check of KV.PAGE_MAP (Table 11.7, R261). -/
def fieldsPageMap (d : Desc) : Option Nat :=
  let a := opf d 17 0 4
  let map := a.testBit 0
  let len := a.testBit 1
  let bind := a.testBit 2
  let unb := a.testBit 3
  let z (b : Bool) (v : Nat) : Bool := !b && v != 0
  if !onlyFields d [(16, 0, 4), (17, 0, 4), (18, 0, 8), (20, 0, 16), (22, 0, 14), (24, 0, 16), (26, 0, 16), (28, 0, 32), (32, 0, 64)]
    || a = 0 || (bind && unb)
    || z (bind || unb) (opf d 18 0 8) || z (map || len || bind) (opf d 20 0 16)
    || z map (opf d 22 0 14) || z map (opf d 24 0 16) || z map (opf d 26 0 16) || z map (opf d 32 0 64) || z len (opf d 28 0 32)
    || (map && (opf d 26 0 16 = 0 || 32768 < opf d 24 0 16 + opf d 26 0 16 || opf d 32 0 64 % 64 != 0))
    || 2097152 < opf d 28 0 32 then some stBadField else none

/-- The map point of KV.PAGE_MAP: MAP, SET_LEN, BIND or UNBIND in one cycle (R261). -/
def mapPoint (k : Nat) (d : Desc) (list : List Nat) (s : State) : State :=
  let a := opf d 17 0 4
  let seq := opf d 20 0 16
  let lp := opf d 24 0 16
  let s := updGth (fun g => { g with caches := upd g.caches k fun x =>
    let m := (List.range list.length).foldl (fun m i =>
      let p := list.getD i 0
      let key := seq * 32768 + lp + i
      if p = 0xFFFFFFFF then del m key else put m key p) x.map
    { x with map := m, lens := if a.testBit 1 then put x.lens seq (opf d 28 0 32) else x.lens } }) s
  if a.testBit 2 then updGth (fun g => { g with views := put g.views (opf d 18 0 8) (k, seq) }) s
  else if a.testBit 3 then updGth (fun g => { g with views := del g.views (opf d 18 0 8) }) s
  else s

/-- Body of KV.PAGE_MAP (R261). -/
def bodyPageMap (d : Desc) (c : CRef) (s : State) : State :=
  let k := opf d 16 0 4
  let a := opf d 17 0 4
  let v := opf d 18 0 8
  match find s.gth.caches k with
  | none => reject c stNotFound s
  | some x =>
    if x.seqs ≤ opf d 20 0 16 then reject c stBadField s
    else if a.testBit 3 && ((find s.gth.views v).map Prod.fst) != some k then reject c stNotFound s
    else if x.tent != dtent d then reject c stNotPermitted s
    else
      let n := opf d 26 0 16
      let (r, s) := if a.testBit 0 then engRead (opf d 22 0 14) x.tent (opf d 32 0 64) (4 * n) s else (some ⟨[], false, 0⟩, s)
      match r with
      | none => reject c stNotPermitted s
      | some r =>
        let list := (List.range (r.data.length / 4)).map fun i => leNat ((r.data.drop (4 * i)).take 4)
        if list.any fun p => x.pages < p && p != 0xFFFFFFFF then reject c stBadField s
        else if a.testBit 2 && has s.gth.views v then reject c stResourceBusy s
        else if !pdOn s 23 then reject c stPowerOff s
        else complete c stSuccess 0 0 (mapPoint k d list s)

/-- Physical address of view byte o of a view, with the cache and logical page (R262). -/
def viewPage (s : State) (v o : Nat) : Except Nat (KvCache × Nat × Nat) :=
  match (find s.gth.views v).bind fun w => (find s.gth.caches w.1).map fun x => (x, w.2) with
  | none => .error gNotBound
  | some (x, seq) =>
    let lp := o / x.pageBytes
    if 32768 ≤ lp then .error gUnmapped else
    match find x.map (seq * 32768 + lp) with
    | none => .error gUnmapped
    | some p => .ok (x, seq, x.base + p * x.pageBytes + o % x.pageBytes)

/-- Is the byte at page offset q of logical page lp in a token below the sequence's length (R262)? -/
def tokenLive (x : KvCache) (seq lp q : Nat) : Bool :=
  let t := q % (64 * x.hkv * x.dh * x.elem) / (x.dh * x.elem) % 64
  64 * lp + t < (find x.lens seq).getD 0

/-- Read of a view: `n` bytes from a line-aligned view byte, within one page of 4 KiB. -/
def viewRead (t source v o n : Nat) (s : State) : Except Nat (List Byte × Nat) × State :=
  match viewPage s v o with
  | .error e => (.error e, s)
  | .ok (x, seq, a) =>
    if x.tent != t then (.error wRefused, s) else
    match engRead source x.tent a n s with
    | (none, s) => (.error gListRefused, s)
    | (some r, s) =>
      let lp := o / x.pageBytes
      let q := o % x.pageBytes
      let live := (List.range n).map fun i => tokenLive x seq lp (q + i)
      let bs := (List.range n).map fun i => if live.getD i false then r.data.getD i 0 else 0
      let m := (List.range (n / 64)).foldl (fun m i =>
        if r.mask.testBit i && ((live.drop (64 * i)).take 64).any id then m ||| 2 ^ i else m) 0
      (.ok (bs, m), s)

/-- Write to a view: lines with enables and poison (R262). -/
def viewWrite (t source v : Nat) (parts : List (Nat × List Byte × Nat × Bool)) (s : State) : Nat × State :=
  parts.foldl (fun acc p =>
    if acc.1 != wOk then acc else
    match viewPage acc.2 v p.1 with
    | .error e => (e, acc.2)
    | .ok (x, _, a) =>
      if x.tent != t then (wRefused, acc.2) else
      let (ok, s) := engStore source x.tent a p.2.1 p.2.2.1 p.2.2.2 acc.2
      (if ok then wOk else gListRefused, s)) (wOk, s)

/-! ### Decode attention -/

/-- Field check of ATTN.DECODE (Table 11.8). -/
def fieldsAttn (d : Desc) : Option Nat :=
  if !onlyFields d [(16, 0, 128), (32, 0, 4), (34, 0, 14), (36, 0, 32), (40, 0, 64)] || opf d 16 0 128 = 0 || opf d 40 0 64 % 64 != 0
  then some stBadField else none

/-- Fields of a job block (Table 11.9). -/
structure Job where
  batch : Nat
  group : Nat
  qFmt : Nat
  splitPages : Nat
  maxSplits : Nat
  scale : Nat
  seqAddr : Nat
  qAddr : Nat
  outAddr : Nat
deriving DecidableEq, Repr

/-- The job block that 64 bytes spell. -/
def jobOf (bs : List Byte) : Job :=
  let f (o n : Nat) : Nat := leNat ((bs.drop o).take n)
  ⟨f 0 2, f 2 1, bits (f 3 1) 0 2, f 4 2, f 6 2, f 8 4, f 16 8, f 24 8, f 32 8⟩

/-- Does a job block break Table 11.9? H_Q can be judged only where the cache exists. -/
def jobBad (bs : List Byte) (x : Option KvCache) : Bool :=
  let j := jobOf bs
  let f (o n : Nat) : Nat := leNat ((bs.drop o).take n)
  bits (f 3 1) 2 6 != 0 || f 12 4 != 0 || f 40 24 != 0 || j.batch = 0 || 4096 < j.batch || j.group = 0 || 16 < j.group
    || x.any (fun x => 256 < j.group * x.hkv)
    || j.qFmt = 3 || j.splitPages = 0 || 32768 < j.splitPages || j.maxSplits = 0 || 32768 < j.maxSplits
    || j.seqAddr % 64 != 0 || j.qAddr % 64 != 0 || j.outAddr % 64 != 0

/-- QROW of a job (Table 11.9). -/
def qRow (x : KvCache) (j : Job) : Nat := (j.group * x.hkv * x.dh * (if j.qFmt = 0 then 4 else 2) + 63) / 64 * 64

/-- REC (R263). -/
def recBytes (x : KvCache) : Nat := 64 + 4 * x.dh

/-- The kernel's digest is in a tent's image list, or there is room for it (R266, R267). -/
def kernelFits (x : Tent) : Bool := x.images.contains Config.decodeKernelDigest || x.images.length < 64

/-- A crew that no command may use now: an active cell or a bound area (R266). -/
def crewBusy (s : State) (k : Nat) : Bool := crewActive s k || (crewOf s k).area.isSome || (crewOf s k).decode.isSome || (crewOf s k).clearing

/-- Crew memory and scratch of a crew are zeroed and its marks cleared; LOADED clears (R184). -/
def zeroCrew (k : Nat) (s : State) : State :=
  let s := updCrew k (fun x => { x with mem := [], marks := [], loaded := false, image := 0, textBase := 0, textLen := 0, entry := 0 }) s
  (crewCells k).foldl (fun s n => updCell n (fun x => { x with scratch := [], marks := [] }) s) s

/-- Body of ATTN.DECODE (R266, R267): the checks in order, then the crews run the kernel. What it leaves in their memory is gone at the end, when each crew is zeroed and LOADED clears; nothing can read it before. -/
def bodyAttn (d : Desc) (c : CRef) (s : State) : State :=
  let crews := setBits 128 (opf d 16 0 128)
  let k := opf d 32 0 4
  let src := opf d 34 0 14
  let t := dtent d
  let rd := engRead src t (opf d 40 0 64) 64 s
  let job := (rd.1.map (·.data)).getD []
  let j := jobOf job
  if rd.1.isSome && jobBad job (find s.gth.caches k) then reject c stBadField rd.2 else
  match find s.gth.caches k with
  | none => reject c stNotFound s
  | some x =>
    if !clapOk s (some t) (opf d 36 0 32) then reject c stNotFound s
    else if (crews.any fun n => assigned s n != some t) || x.tent != t then reject c stNotOwner s
    else if rd.1.isNone || !mayRead s src t j.seqAddr (4 * j.batch) || !mayRead s src t j.qAddr (j.batch * qRow x j)
      || !mayWrite s src t j.outAddr (j.batch * j.maxSplits * j.group * x.hkv * recBytes x) then reject c stNotPermitted rd.2
    else if crews.any (crewBusy s) then reject c stResourceBusy s
    else match tent s t with
    | none => reject c stNoResource s
    | some y =>
      if !kernelFits y then reject c stNoResource s
      else if !pdOn s 23 || crews.any fun n => !pdOn s (pdCrew n) then reject c stPowerOff s
      else
        let s := rd.2
        let s := if y.images.contains Config.decodeKernelDigest then s else updTent t (fun y => { y with images := y.images ++ [Config.decodeKernelDigest] }) s
        let op := s.gth.nextOp
        let s := crews.foldl (fun s n =>
          (crewCells n).foldl (fun s m => updCell m (fun x => { x with state := .running, source := src }) s)
            (updCrew n (fun y => { y with decode := some op }) s)) s
        updGth (fun g => { g with decodes := put g.decodes op ⟨c, t, crews, k, src, clapName (opf d 36 0 32), job⟩, nextOp := op + 1 }) s

/-- The crews of a decode are zeroed and idle again (R267). -/
def freeDecode (op : Nat) (x : Decode) (s : State) : State :=
  let s := x.crews.foldl (fun s n =>
    (crewCells n).foldl (fun s m => updCell m (fun x => { x with state := .idle, wait := none }) s)
      (updCrew n (fun y => { y with decode := none }) (zeroCrew n s))) s
  updGth (fun g => { g with decodes := del g.decodes op }) s

/-- A token's key or value of one head, dequantised to fp32 (R260). -/
def kvVec (x : KvCache) (page : List Byte) (h t : Nat) (value : Bool) : List Nat :=
  let e := x.elem
  let o := (if value then 64 * x.hkv * x.dh * e else 0) + (h * 64 + t) * x.dh * e
  (List.range x.dh).map fun i =>
    let v := leNat ((page.drop (o + i * e)).take e)
    match x.fmt with
    | 0 => FF.cvt .bf16 .f32 v
    | 1 => FF.cvt .f16 .f32 v
    | 2 => FF.f32.round (mulFV (FF.e4m3.decode v) (FF.f32.decode (if value then x.vScale else x.kScale)))
    | _ => FF.f32.round (mulFV (FF.e5m2.decode v) (FF.f32.decode (if value then x.vScale else x.kScale)))

/-- Exact sum of fp32 values read out once (R210, R212). -/
def exactSum (xs : List Nat) : Nat := accRead (xs.foldl (fun a x => accAdd a (FF.f32.decode x)) {}) .f32

/-- M, L and O of a split (R264): the query, and the keys and values of its tokens. -/
def splitResult (dh scale : Nat) (q : List Nat) (kv : List (List Nat × List Nat)) : Nat × Nat × List Nat :=
  let score (k : List Nat) : Nat := f32mul (FF.f32.round (sumFV (List.zipWith (fun a b => mulFV (FF.f32.decode a) (FF.f32.decode b)) q k))) scale
  let sc := kv.map fun e => score e.1
  let m := match sc with
    | [] => FF.f32.nan
    | x :: xs => xs.foldl (fun a b => FF.f32.round (maxFV (FF.f32.decode a) (FF.f32.decode b))) (FF.f32.round (maxFV (FF.f32.decode x) (FF.f32.decode x)))
  let p := sc.map fun x => f32fn exp2FV (f32mul (f32sub x m) 0x3FB8AA3B)
  (m, exactSum p, (List.range dh).map fun i => exactSum (List.zipWith (fun w e => f32mul w (e.2.getD i 0)) p kv))

/-- Pages of a split: bytes, whether a live key or value line is poisoned; none where a page is unmapped or refused (R265). -/
def splitPages (x : KvCache) (source seq : Nat) : Nat → Nat → Nat → State → Option (List (List Byte) × Bool) × State
  | 0, _, _, s => (some ([], false), s)
  | n + 1, lp, len, s =>
    if len ≤ 64 * lp then (some ([], false), s) else
    match find x.map (seq * 32768 + lp) with
    | none => (none, s)
    | some p =>
      match engRead source x.tent (x.base + p * x.pageBytes) x.pageBytes s with
      | (none, s) => (none, s)
      | (some r, s) =>
        let dead := (List.range (x.pageBytes / 64)).any fun i => r.mask.testBit i && (List.range 64).any fun b => tokenLive x seq lp (64 * i + b)
        match splitPages x source seq n (lp + 1) len s with
        | (none, s) => (none, s)
        | (some (ps, d), s) => (some (r.data :: ps, dead || d), s)

/-- The bytes of a record (Table 11.10). -/
def recordOf (dh m l tokens status : Nat) (o : List Nat) : List Byte :=
  leBytes 4 m ++ leBytes 4 l ++ leBytes 4 tokens ++ leBytes 1 status ++ List.replicate 51 0 ++ ((List.range dh).map fun i => leBytes 4 (o.getD i 0)).flatten

/-- Write one record of the first `lim` (R263); counts it where the write happened. -/
def writeRecord (x : Decode) (c : KvCache) (j : Job) (lim b sp h : Nat) (bs : List Byte) (poison : Bool) (acc : Nat × State) : Nat × State :=
  let i := (b * j.maxSplits + sp) * (j.group * c.hkv) + h
  if lim ≤ i then acc else
  let a := j.outAddr + i * recBytes c
  let (ok, s) := engWriteS x.source x.tent a bs acc.2 (if poison then 2 ^ (recBytes c / 64) - 1 else 0)
  (if ok then acc.1 + 1 else acc.1, s)

/-- The records of one split of an entry (R264, R265). `len` none stands for a bad sequence number; `bad` for a query that cannot be read. -/
def splitRecords (x : Decode) (c : KvCache) (j : Job) (lim b sp seq : Nat) (len : Option Nat) (qs : List (List Nat)) (qBad qPoison : Bool) (acc : Nat × State) : Nat × State :=
  let nan := FF.f32.nan
  let heads := List.range (j.group * c.hkv)
  let tokens := match len with
    | some n => min (n - 64 * j.splitPages * sp) (64 * j.splitPages)
    | none => 0
  let all (m l status : Nat) (o : Nat) (acc : Nat × State) : Nat × State :=
    heads.foldl (fun acc h => writeRecord x c j lim b sp h (recordOf c.dh m l tokens status (List.replicate c.dh o)) false acc) acc
  match len with
  | none => all nan nan 5 nan acc
  | some n =>
    if 64 * j.splitPages * j.maxSplits < n then all nan nan 2 nan acc
    else if tokens = 0 then all 0xFF800000 0 1 0 acc
    else if qBad then all nan nan 3 nan acc
    else match splitPages c x.source seq j.splitPages (j.splitPages * sp) n acc.2 with
    | (none, s) => all nan nan 3 nan (acc.1, s)
    | (some (ps, dead), s) =>
      if dead || qPoison then
        heads.foldl (fun acc h =>
          let (fs, s) := drawBytes (recBytes c) acc.2
          writeRecord x c j lim b sp h (fs.take 8 ++ leBytes 4 tokens ++ leBytes 1 4 ++ List.replicate 51 0 ++ fs.drop 64) true (acc.1, s)) (acc.1, s)
      else
        heads.foldl (fun acc h =>
          let kh := h / j.group
          let kv := (List.range tokens).map fun t => (kvVec c (ps.getD (t / 64) []) kh (t % 64) false, kvVec c (ps.getD (t / 64) []) kh (t % 64) true)
          let (m, l, o) := splitResult c.dh j.scale (qs.getD h []) kv
          writeRecord x c j lim b sp h (recordOf c.dh m l tokens 0 o) false acc) (acc.1, s)

/-- One entry of the batch. -/
def decodeEntry (x : Decode) (c : KvCache) (j : Job) (lim : Nat) (seqs : List Nat) (seqPoison : Bool) (b : Nat) (acc : Nat × State) : Nat × State :=
  let seq := seqs.getD b 0
  let len := if c.seqs ≤ seq then none else some ((find c.lens seq).getD 0)
  let hq := j.group * c.hkv
  let sq := if j.qFmt = 0 then 4 else 2
  let (q, s) := engRead x.source x.tent (j.qAddr + b * qRow c j) (hq * c.dh * sq) acc.2
  let bs := (q.map (·.data)).getD []
  let ff : FF := if j.qFmt = 0 then .f32 else if j.qFmt = 1 then .bf16 else .f16
  let qs := (List.range hq).map fun h => (List.range c.dh).map fun i => FF.cvt ff .f32 (leNat ((bs.drop ((h * c.dh + i) * sq)).take sq))
  (List.range j.maxSplits).foldl (fun acc sp => splitRecords x c j lim b sp seq len qs q.isNone (seqPoison || (q.map (·.poison)).getD false) acc) (acc.1, s)

/-- The kernel's first `lim` records, in the order of R263, are written; answers how many were. -/
def decodeRecords (x : Decode) (lim : Nat) (s : State) : Nat × State :=
  let j := jobOf x.job
  match find s.gth.caches x.cache with
  | none => (0, s)
  | some c =>
    let (l, s) := engRead x.source x.tent j.seqAddr (4 * j.batch) s
    let bs := (l.map (·.data)).getD (List.replicate (4 * j.batch) 255)
    let seqs := (List.range j.batch).map fun i => leNat ((bs.drop (4 * i)).take 4)
    (List.range j.batch).foldl (fun acc b => decodeEntry x c j lim seqs ((l.map (·.poison)).getD false) b acc) (0, s)

/-- A decode ends early (R267): the records already written stay. Which of them the kernel had reached is free; it takes them in the order of R263 (log entry 35). -/
def abortDecode (op status : Nat) (s : State) : State :=
  match find s.gth.decodes op with
  | none => s
  | some x =>
    let (n, s) := drawNat s
    reject x.cref status (freeDecode op x (decodeRecords x n s).2)

/-- Decodes that a test picks end early. -/
def abortDecodes (p : Decode → Bool) (status : Nat) (s : State) : State :=
  (s.gth.decodes.filter fun e => p e.2).foldl (fun s e => abortDecode e.1 status s) s

/-- The decode kernel ends (R263 to R267): every record is written, the crews are zeroed, the command completes, then CLAPPER is advanced. -/
def decodeDone (op : Nat) (s : State) : State :=
  match find s.gth.decodes op with
  | none => s
  | some x =>
    let j := jobOf x.job
    match find s.gth.caches x.cache with
    | none => abortDecode op stAborted s
    | some c =>
      let (n, s) := decodeRecords x (j.batch * j.maxSplits * (j.group * c.hkv)) s
      clapOpt x.clapper 1 (complete x.cref stSuccess 0 n (freeDecode op x s))

end Sys2Proof.Machine
end

