-- ==== Sys2Proof/Machine/Guy.lean ====
section
/-! DEFINITION. Guy lines: link messages and their checks (R340), synchronisation (R341, R346), mirroring (R342), SOLO, STALE and what ends them (R343 to R348). -/

namespace Sys2Proof.Machine

/-- Change a guy line. -/
def updGuy (k : Nat) (f : Guy → Guy) (s : State) : State := { s with kpr := { s.kpr with guys := upd s.kpr.guys k f } }

/-- MIRROR_TIMEOUT_US, in ns (R343, R345). -/
def mirrorNs (s : State) : Nat := fld s .snpGuyCtl 0 0 16 * 1000

/-- A mirror message leaves: it must be acknowledged within MIRROR_TIMEOUT_US (R343). -/
def awaitAck (k seq : Nat) (s : State) : State := startLimit (mirrorLimit k seq) (mirrorNs s) s

/-- The partner of a guy line has been heard: MIRROR_TIMEOUT_US of silence begins (R345). -/
def heard (k : Nat) (s : State) : State := startLimit (silenceLimit k) (mirrorNs s) s

/-- No mirror message of a guy line is outstanding any longer. -/
def endAcks (k : Nat) (s : State) : State :=
  { s with chip := { s.chip with limits := s.chip.limits.filter fun e => !(e.1 % 16 = 4 && e.1 / 16 / 65536 = k) } }

/-- Path value of a node and offset (R69). -/
def pathHash (node off : Nat) : Nat :=
  bits node 0 8 ^^^ bits node 8 6 ^^^ bits off 12 8 ^^^ bits off 20 8 ^^^ bits off 28 8 ^^^ bits off 36 8 ^^^ bits off 44 4

/-- The native port on which messages to a partner switch leave, if its path group has a usable one (R69, R361). -/
def guyPort (s : State) (node : Nat) : Option Nat :=
  (nodeRoute s node).bind fun e =>
    let ps := (usablePorts s e.ports).filter fun p => (port s p).mode = 1
    ps[pathHash node 0 % ps.length]?

/-- Send a guy-line message on channel 7 (R372). It names the receiver's region in TAG and ADDR[41:40] and an offset in it in ADDR[39:0] (log entry 8). -/
def guySend (g : Guy) (tent cls ty op seq off : Nat) (data : List Byte) (mask : Nat) (s : State) : State :=
  match guyPort s g.partner with
  | none => s
  | some p =>
    enqueue ⟨none, p, tent, cls, 7, ty,
      { op := BitVec.ofNat 8 op, snode := BitVec.ofNat 14 (selfNode s), tag := BitVec.ofNat 16 g.partnerRegion
        addr := BitVec.ofNat 64 (place g.partner 48 14 ||| place (g.partnerRegion / 65536) 40 2 ||| off)
        length := BitVec.ofNat 13 data.length, seq := BitVec.ofNat 16 seq, mask := BitVec.ofNat 64 mask, data := data }⟩ s

/-- The region that a guy-line message names. -/
def guyRegion (m : Msg) : Nat := place (bits m.addr.toNat 40 2) 16 2 ||| m.tag.toNat

/-- The 64-byte body of a GUY_CTL message (Table 16.6). -/
def guyBody (k : Nat) (g : Guy) (r : Region) : List Byte :=
  leBytes 4 g.pairId ++ leBytes 4 k ++ leBytes 4 g.partnerRegion ++ leBytes 1 (bitOf g.secondary) ++ leBytes 1 g.state.code ++ [0, 0]
    ++ leBytes 8 r.size ++ leBytes 4 r.current ++ List.replicate 36 0

/-- Send a GUY_CTL message of a guy line: 0 LINK, 1 KEEPALIVE, 2 NOT_LINKED. -/
def guyCtl (op k : Nat) (s : State) : State :=
  match find s.kpr.guys k, region s k with
  | some g, some r => guySend g r.owner 7 0x12 op 0 0 (guyBody k g r) 0 s
  | _, _ => s

/-- Answer NOT_LINKED for a region that has no such guy line. -/
def notLinkedTo (node k partnerRegion : Nat) (s : State) : State :=
  let g : Guy := { secondary := false, partner := node, partnerRegion := partnerRegion, pairId := 0, clapper := none }
  guySend g 128 7 0x12 2 0 0 (leBytes 4 0 ++ leBytes 4 k ++ leBytes 4 partnerRegion ++ List.replicate 52 0) 0 s

/-! ### The primary sends -/

/-- A primary whose writes are mirrored (R342). -/
def Guy.mirrors (g : Guy) : Bool := !g.secondary && (g.state = .syncing || g.state = .inSync)

/-- Longest run of consecutive lines at the front of a list, at most 64 and within one 4 KiB page. -/
def lineRun : Nat → Nat → List Nat → Nat
  | 0, _, _ => 0
  | _, _, [] => 0
  | n + 1, o, l :: ls => if l = o then (if (o + 64) % 4096 = 0 then 1 else 1 + lineRun n (o + 64) ls) else 0

/-- Send one mirror message over `n` lines of a view from region offset `off`; answers its SEQ. `flag` is 1 for a line of the current reel under copy. -/
def sendMirror (k : Nat) (v : View) (flag off n tent cls : Nat) (s : State) : Nat × State :=
  match find s.kpr.guys k, region s k with
  | some g, some r =>
    let (bs, m) := readLines s r v n 0 (r.base + off)
    let q := g.seqOut
    let kib := (g.bytes + 64 * n) / 1024 - g.bytes / 1024
    let s := awaitAck k q (updGuy k (fun g => { g with seqOut := (q + 1) % 65536, bytes := g.bytes + 64 * n }) s)
    (q, guySend g tent cls 0x10 0 q (place flag 42 1 ||| off) bs m (if kib = 0 then s else bump .snpGuyStats 0 0 32 kib s))
  | _, _ => (0, s)

/-- Send every line a write has left to mirror (R342); answers the last SEQ used, if any. -/
def sendTodo (k tent cls : Nat) : Nat → Option Nat → State → Option Nat × State
  | 0, q, s => (q, s)
  | fuel + 1, q, s =>
    match find s.kpr.guys k, region s k with
    | some g, some r =>
      match g.todo with
      | [] => (q, s)
      | o :: _ =>
        let n := lineRun 64 o g.todo
        let s := updGuy k (fun g => { g with todo := g.todo.drop n }) s
        let (q', s) := sendMirror k (headView r) 0 o n tent cls s
        sendTodo k tent cls fuel (some q') s
    | _, _ => (q, s)

/-- Mirror what a region's writes have left, as its owner's engine accesses. -/
def flushMirror (k : Nat) (s : State) : State :=
  match find s.kpr.guys k, region s k with
  | some g, some r => if g.todo.isEmpty then s else (sendTodo k r.owner 7 g.todo.length none s).2
  | _, _ => s

/-- Mirror what every region's writes have left. -/
def flushMirrors (s : State) : State := (keys s.kpr.guys).foldl (fun s k => flushMirror k s) s

/-- Copy one granule to the secondary: the current reel's, and the head's where it differs (R341); it is under way until the last message is acknowledged. -/
def sendGranule (k g : Nat) (s : State) : State :=
  match region s k with
  | none => s
  | some r =>
    let send (v : View) (flag : Nat) (acc : Nat × State) : Nat × State :=
      (List.range 16).foldl (fun a i => sendMirror k v flag (g * tileBytes + 4096 * i) 64 r.owner 6 a.2) acc
    let a := send (currentView r) 1 (0, s)
    let a := if tileOf r (headView r) g = tileOf r (currentView r) g then a else send (headView r) 0 a
    updGuy k (fun y => { y with syncOut := y.syncOut ++ [(g, a.1)] }) a.2

/-- The primary is IN_SYNC: the partner learns it with the reel number to take, and CLAPPER is advanced the first time (R341, R346). -/
def enterInSync (k : Nat) (s : State) : State :=
  match find s.kpr.guys k with
  | none => s
  | some g =>
    let s := guyCtl 0 k (updGuy k (fun y => { y with wasInSync := true }) (setGuy k .inSync 0 s))
    if g.wasInSync then s else clapOpt g.clapper 1 s

/-- The next granule of a synchronisation, or its end. -/
def syncNext (k : Nat) (s : State) : State :=
  match find s.kpr.guys k with
  | none => s
  | some g =>
    if g.secondary || g.state != .syncing || !g.syncOut.isEmpty then s else
    match g.toSync with
    | x :: xs => sendGranule k x (updGuy k (fun y => { y with toSync := xs }) (flushMirror k s))
    | [] => enterInSync k s

/-- A primary starts SYNCING over a list of granules (R341, R346). -/
def startSync (k : Nat) (gs : List Nat) (s : State) : State :=
  syncNext k (guyCtl 0 k (updGuy k (fun y => { y with toSync := gs, syncOut := [], todo := [], commitOut := [], seqOut := 0 }) (setGuy k .syncing 0 s)))

/-- Commit points outstanding complete their REEL.COMMIT. -/
def endCommits (xs : List (Nat × CRef × Nat)) (s : State) : State :=
  xs.foldl (fun s x => complete x.2.1 stSuccess 0 (place x.2.2 32 32) s) s

/-- The granule that each outstanding mirrored write of a region touches. -/
def mirroredGranules (s : State) (k : Nat) (r : Region) : List Nat :=
  s.fab.txns.foldl (fun a x => match x.stage with
    | .mirror j _ => if j = k then (granuleSpan r (bits x.addr 0 48) x.len).foldl insNat a else a
    | _ => a) []

/-- A primary enters SOLO (R343), with its REASON (Tables 15.5 and 15.10): outstanding writes complete, their granules and those not copied are dirty, commits apply alone (Table 15.4). -/
def goSolo (k : Nat) (s : State) (reason : Nat := 0) : State :=
  match find s.kpr.guys k, region s k with
  | some g, some r =>
    if !g.mirrors then s else
    let gs := (mirroredGranules s k r ++ g.toSync ++ g.syncOut.map Prod.fst ++ g.todo.map (· / tileBytes)).foldl insNat g.dirty
    let gs := if g.commitOut.isEmpty then gs else (touched (r.reels.map (·.view))).foldl insNat gs
    let s := updGuy k (fun y => { y with dirty := gs, toSync := [], syncOut := [], todo := [], commitOut := [] }) (setGuy k .solo reason (endAcks k s))
    endCommits g.commitOut (bump .snpGuyStats 0 48 16 1 s)
  | _, _ => s

/-- Primaries whose partner no usable port reaches enter SOLO (R343). -/
def guyReach (s : State) : State :=
  (s.kpr.guys.filter fun e => e.2.mirrors && (guyPort s e.2.partner).isNone).foldl (fun s e => goSolo e.1 s) s

/-- A commit point is sent to the secondary after every write of the reel (R103, R342); `none` where the primary commits alone. -/
def guyCommit (k : Nat) (c : CRef) (n : Nat) (s : State) : Option State :=
  match find s.kpr.guys k, region s k with
  | some g, some r =>
    if !g.mirrors then none else
    let s := flushMirror k s
    match find s.kpr.guys k with
    | none => none
    | some g =>
      let q := g.seqOut
      let s := awaitAck k q (updGuy k (fun y => { y with seqOut := (q + 1) % 65536, commitOut := y.commitOut ++ [(q, c, n)] }) s)
      some (guySend g r.owner 7 0x10 1 q 0 [] 0 s)
  | _, _ => none

/-! ### The secondary applies -/

/-- Views a mirrored line must not change (R96): the reels readers hold, the current one too once nothing is being copied over it, and the copy itself. -/
def otherViews (s : State) (k : Nat) (r : Region) (base : Bool) : List View :=
  (r.reels.filter fun x => (!base && r.mbase.isNone) || reelHeld s k x.num).map (·.view) ++ (if base then [] else r.mbase.toList)

/-- The view of a secondary that a mirrored line goes to; it starts from the reel being copied, else from the current one. -/
def mirrorView (r : Region) (base : Bool) : View :=
  if base then r.mbase.getD (currentView r) else r.mhead.getD (r.mbase.getD (currentView r))

/-- Store the view back; a head that shared the granule follows the copy of the current reel. -/
def putMirrorView (base : Bool) (g old new : Nat) (r : Region) : Region :=
  let v := put (mirrorView r base) g new
  if base then { r with mbase := some v, mhead := r.mhead.map fun h => if tileOf r h g = old then put h g new else h }
  else { r with mhead := some v }

/-- Give the secondary its own tier-0 tile of a granule (R96); none when no tile is free. -/
def ownMirror (k g : Nat) (base : Bool) (s : State) : Option (Nat × State) :=
  match region s k with
  | none => none
  | some r =>
    let old := tileOf r (mirrorView r base) g
    let shared := (otherViews s k r base).any fun v => tileOf r v g = old
    if !shared && placeOf s r old = .t0 then
      some (old, updRegion k (putMirrorView base g old old) s)
    else match takeFree0 1 s with
    | none => none
    | some s =>
      let (e, s) := freshExt s
      let new := e * 2 ^ 24 + g
      let s := bump .snpCopyStats 0 32 32 1 (updRegion k (putMirrorView base g old new) (tileCopy old new s))
      some (new, if shared then s else freeTile k r old s)

/-- Apply mirrored lines, which lie in one granule; each that is marked poisoned is logged (R82, Table 3.14). -/
def applyMirror (k off : Nat) (base : Bool) (bs : List Byte) (mask : Nat) (s : State) : Option State :=
  (ownMirror k (off / tileBytes) base s).map fun (t, s) =>
    let at_ := ((region s k).map (·.base)).getD 0 + off
    notePoisons (some 2) (selfNode s) at_ (bs.length / 64) mask ((List.range (bs.length / 64)).foldl (fun s i =>
      lineWrite t (bits off 6 10 + i) ((bs.drop (64 * i)).take 64) (2 ^ 64 - 1) (mask.testBit i) s) s)

/-- Every stack that mirrored lines go to is on (R26). -/
def mirrorUp (s : State) (r : Region) (off len : Nat) : Bool :=
  (List.range (len / 64)).all fun i => tileUp s r (r.base + off + 64 * i) .t0

/-- The guy line that a message names, if its sender is the partner (R340). -/
def guyFrom (s : State) (m : Msg) : Option (Nat × Guy) :=
  ((find s.kpr.guys (guyRegion m)).filter fun g => g.partner = m.snode.toNat && g.state != .broken).map fun g => (guyRegion m, g)

/-- Acknowledge a mirror message. -/
def mirrorAck (k : Nat) (g : Guy) (seq : Nat) (s : State) : State :=
  let t := ((region s k).map (·.owner)).getD 128
  guySend g t 7 0x11 0 seq 0 [] 0 (heard k (updGuy k (fun y => { y with seqIn := (seq + 1) % 65536 }) s))

/-- A mirrored write arrives (R342). In a stack that is off nothing is written, and nothing is acknowledged (R26). -/
def mirrorArrives (m : Msg) (s : State) : State :=
  match guyFrom s m with
  | none => notLinkedTo m.snode.toNat (guyRegion m) 0 s
  | some (k, g) =>
    if !g.secondary || m.seq.toNat != g.seqIn || g.state = .linking then s else
    match region s k with
    | none => s
    | some r =>
      let off := bits m.addr.toNat 0 40
      if r.size < off + m.data.length || !mirrorUp s r off m.data.length then s else
      match applyMirror k off (m.addr.getLsbD 42) m.data m.mask.toNat s with
      | some s => mirrorAck k g m.seq.toNat s
      | none => attn 10 s

/-- A commit point arrives (R103): the head becomes the current reel, or the reel that synchronisation still builds. -/
def mirrorCommits (m : Msg) (s : State) : State :=
  match guyFrom s m with
  | none => notLinkedTo m.snode.toNat (guyRegion m) 0 s
  | some (k, g) =>
    if !g.secondary || m.seq.toNat != g.seqIn || g.state = .linking then s else
    match region s k with
    | none => s
    | some r =>
      let s := match r.mbase with
        | some b =>
          let s := updRegion k (fun r => { r with mbase := some (mirrorView r false) }) s
          (dropView k b s).2
        | none =>
          let n := nextReel r.current
          (pruneReels k (updRegion k (fun r => { r with current := n, reels := ⟨n, mirrorView r false⟩ :: r.reels, mhead := none }) s)).2
      mirrorAck k g m.seq.toNat s

/-- The secondary is IN_SYNC and takes the primary's reel number (R341, R346); a reel that readers hold stays under its own (R103). -/
def secondaryInSync (k n : Nat) (s : State) : State :=
  let s := updRegion k (fun r =>
    match r.mbase with
    | some b => if n = r.current then { r with mbase := none, reels := r.reels.map fun x => if x.num = n then { x with view := b } else x }
                else { r with mbase := none, current := n, reels := ⟨n, b⟩ :: r.reels }
    | none => if n = r.current then r else { r with current := n, reels := ⟨n, currentView r⟩ :: r.reels }) s
  setGuy k .inSync 0 (heard k (pruneReels k s).2)

/-! ### Link messages -/

/-- Two switches lie in separate failure domains: SHELF and LOOP both differ and both are declared (R337). GUY_CTL carries no place, so the partner's is a free value (log entry 9). -/
def separate (own : Nat) (s : State) : Bool × State :=
  let (d, s) := drawNat s
  (own != 0 && d % 2 = 0, s)

/-- REASON of the first check of R340 that fails, 0 where all pass. -/
def linkReason (s : State) (k : Nat) (g : Guy) (r : Region) (m : Msg) : Nat × State :=
  let f (o n : Nat) : Nat := leNat ((m.data.drop o).take n)
  if f 16 8 != r.size then (1, s)
  else if f 12 1 % 2 = bitOf g.secondary then (2, s)
  else if f 0 4 != g.pairId || f 4 4 != g.partnerRegion || f 8 4 != k || m.snode.toNat != g.partner then (3, s)
  else
    let (ok, s) := separate (mapVal s .gafFailDomain 0) s
    (if ok then 0 else 4, s)

/-- A LINK message arrives (R340, R341, R346). -/
def linkArrives (m : Msg) (s : State) : State :=
  let f (o n : Nat) : Nat := leNat ((m.data.drop o).take n)
  let k := f 8 4
  let peer := f 13 1
  match find s.kpr.guys k, region s k with
  | some g, some r =>
    if g.partner != m.snode.toNat then notLinkedTo m.snode.toNat k (f 4 4) s
    else if g.state = .broken then s
    else
      let s :=
        if g.state = .linking then
          let (why, s) := linkReason s k g r m
          if why != 0 then setGuy k .broken why s
          else if g.secondary then heard k (updGuy k (fun y => { y with seqIn := 0 }) (setGuy k .syncing 0 s))
          else startSync k (List.range (granules r)) s
        else if g.pairId != f 0 4 then s
        else if !g.secondary && g.state = .solo && peer = 5 then startSync k g.dirty s
        else if g.secondary && g.state = .stale && peer = 2 then heard k (updGuy k (fun y => { y with seqIn := 0 }) (setGuy k .syncing 0 s))
        else if g.secondary && g.state = .syncing && peer = 3 then secondaryInSync k (f 24 4) s
        else s
      if peer = 1 || (peer = 4 && g.secondary) then guyCtl 0 k s else s
  | _, _ => notLinkedTo m.snode.toNat k (f 4 4) s

/-- NOT_LINKED arrives (R340, R343, Table 15.3). -/
def notLinkedArrives (m : Msg) (s : State) : State :=
  let other := leNat ((m.data.drop 4).take 4)
  match s.kpr.guys.find? fun e => e.2.partner = m.snode.toNat && e.2.partnerRegion = other with
  | none => s
  | some (k, g) =>
    if g.state = .linking then setGuy k .broken 5 s
    else if g.mirrors then goSolo k s 5
    else if !g.secondary && g.state = .solo then setGuy k .solo 5 s
    else s

/-- An acknowledgement arrives at the primary (R341, R342): the stage of the writes that waited for it is for the caller to end. -/
def ackArrives (k seq : Nat) (s : State) : State :=
  match find s.kpr.guys k with
  | none => s
  | some g =>
    let done := g.commitOut.filter (·.1 = seq)
    let copied := (g.syncOut.filter (·.2 = seq)).map Prod.fst
    let s := updGuy k (fun y => { y with
      commitOut := y.commitOut.filter (·.1 != seq), syncOut := y.syncOut.filter (·.2 != seq)
      dirty := copied.foldl delNat y.dirty }) (endLimit (mirrorLimit k seq) s)
    syncNext k (endCommits done s)

/-- A fenced or destroyed owner breaks its guy lines and tells the partners (Table 15.3). -/
def tellNotLinked (k : Nat) (g : Guy) (s : State) : State :=
  guySend g (((region s k).map (·.owner)).getD 128) 7 0x12 2 0 0 (leBytes 4 g.pairId ++ leBytes 4 k ++ leBytes 4 g.partnerRegion ++ List.replicate 52 0) 0 s

end Sys2Proof.Machine
end

