-- ==== Sys2Proof/Machine/Serve.lean ====
section
/-! DEFINITION. Requests at the fabric: routing and the range gate (R61 to R66, R320, R322), the order of R71 and R72, and what a read or a write does at each target of the self node (Table 3.11) or beyond it (R69, R77). -/

namespace Sys2Proof.Machine

/-! ### Addresses and routes -/

/-- NODE of a native address (Table 3.1). -/
def nodeOf (a : Nat) : Nat := bits a 48 14
/-- OFFSET of a native address (Table 3.1). -/
def offOf (a : Nat) : Nat := bits a 0 48

/-- Where R65 sends a request. -/
inductive Route where
  | self
  /-- The edge port of an attached device: its requests pass the range gate first (R322). -/
  | edge (ports : Nat)
  | path (ports : Nat)
  | miss
deriving DecidableEq, Repr

/-- The route of a native address (R65). -/
def routeOf (s : State) (a : Nat) : Route :=
  if s.fab.self = some (nodeOf a) then .self else
  match nodeRoute s (nodeOf a) with
  | none => .miss
  | some e => if (edgePortOf s (nodeOf a)).isSome then .edge e.ports else .path e.ports

/-- An offset that Table 3.2 or Table 11.1 marks reserved (R57, R245). -/
def reservedOff (o : Nat) : Bool :=
  !(inPool o || inColl o || inClap o || inDoor o || (inEmb o && !(0x940000000000 ≤ o && o < 0x980000000000)))

/-- Window slot and slot offset (Table 10.1). -/
def slotOf (o : Nat) : Nat × Nat := (bits o 32 12, bits o 0 32)

/-- The tent that owns what an aperture offset names (R58, R219, R246, R308); none where nothing is there. -/
def apertureOwner (s : State) (o : Nat) : Option Nat :=
  if inColl o then (window s (slotOf o).1).map (·.tent)
  else if inClap o then some ((o - clapBase) / 0x100000)
  else if inDoor o then some ((o - doorBase) / 0x2000000)
  else if o < 0x980000000000 then (find s.gth.tables ((o - 0x900000000000) / 0x400000000)).map (·.tent)
  else ((find s.gth.views ((o - 0x980000000000) / 0x800000000)).bind fun v => find s.gth.caches v.1).map (·.tent)

/-- The gate where nothing owns the target: an entry that covers and admits the access decides. -/
def gateAny (s : State) (source off len : Nat) (write eng : Bool) (work : Nat) : GateRes :=
  let rs := (s.fab.gate.filter fun e => !e.2.edge && e.2.source = source && covers e.2.base e.2.size off len).map fun e => judge s e.2 source write eng work false
  ((rs.find? fun r => match r with | .ok _ => true | _ => false).orElse fun _ => rs.head?).getD .noEntry

/-- The range gate for an access to an offset of the self node (R320). -/
def gateTarget (s : State) (source o len : Nat) (write eng : Bool) (work : Nat) : GateRes :=
  if inPool o then gatePool s source o len write eng work
  else match apertureOwner s o with
    | some t => gateSelf s (some t) none source o len write eng work
    | none => gateAny s source o len write eng work

/-! ### Requests -/

/-- The message that carries a request to another node (Table 16.5). -/
def msgOf (s : State) (x : Txn) (p tag : Nat) : Msg :=
  { proto := if (port s p).mode = 1 then .native else .cxlMem
    contrib := x.contrib, hint := x.hint.isSome, hintAgent := BitVec.ofNat 5 (x.hint.getD 0), hops := BitVec.ofNat 3 (x.hops - 1)
    tc := BitVec.ofNat 3 x.cls, pline := x.pline, snode := BitVec.ofNat 14 x.source, tag := BitVec.ofNat 16 tag, addr := BitVec.ofNat 64 x.addr
    length := BitVec.ofNat 13 x.len, mask := BitVec.ofNat 64 x.mask, data := x.data }

/-- Set the stage of a request. -/
def stageTxn (id : Nat) (g : Stage) (s : State) : State := updTxn id (fun x => { x with stage := g }) s

/-- The working switch of a rushes session copies a request that its gate admitted and that its own state serves (R352). -/
def shadowRequest (id t : Nat) (s : State) : State :=
  let r := s.gaf.rushes
  match txn s id with
  | none => s
  | some x =>
    match x.origin with
    | .port _ m =>
      if r.state != 1 || r.candidate || !r.tents.testBit t then s else
      let q := r.seq
      let e : Shadow := ⟨q, x.source, t, x.addr, 0, [], 0, false, none⟩
      let s := { s with gaf := { s.gaf with rushes := { r with seq := q + 1, buffer := r.buffer ++ [e] } } }
      let s := updTxn id (fun x => { x with shadow := some q }) s
      if 64 * 1048576 < shadowBytes s then rushesEnd 4 s else
      let c := msgOf s { x with hops := x.hops + 1 } 0 m.tag.toNat
      let bs := messageBytes x.ty { c with proto := .native }
      let body : Msg := { snode := BitVec.ofNat 14 (selfNode s), addr := BitVec.ofNat 64 (r.peer <<< 48), seq := BitVec.ofNat 16 q
                          length := BitVec.ofNat 13 bs.length, data := bs }
      match (usablePorts s r.ports).head? with
      | some p => enqueue ⟨none, p, t, x.cls, 7, 0x14, body⟩ s
      | none => s
    | _ => s

/-- The gate's answer is recorded: the request's stamp and flow (R47, R294) and, for a window, the time (R238), or the refusal that it completes with. -/
def gateStamp (x : Txn) (own : Bool) (g : GateRes) (s : State) : Option Nat × State :=
  match g with
  | .ok t =>
    let (now, s) := if own && inColl (offOf x.addr) then let (now, s) := clock s; (some now, s) else (none, s)
    let s := updTxn x.id (fun y => { y with gated := true, passed := now, epoch := if x.eng then y.epoch else s.gaf.epoch.toNat, tent := if x.eng then y.tent else t }) s
    (none, if own then shadowRequest x.id t s else s)
  | g => (some wRefused, countGate g s)

/-- A request that Table 3.2 and the routes still have to judge. The switch's own accesses to a tier-3 pool pass no gate (R125), nor does a FENCE (R72). -/
def unjudged (s : State) (x : Txn) : Bool :=
  !x.gated && x.ty != 4 && (match x.origin with | .tier3 _ | .fetch _ | .none => false | _ => true)
    && (match routeOf s x.addr with | .path _ => false | _ => true)

/-- Route and gate a request (R65, R320, R322): the status it ends with, or none where it may go on. An address whose bits [63:62] are not zero is refused (R55). -/
def takeIn (x : Txn) (s : State) : Option Nat × State :=
  if 2 ^ 62 ≤ x.addr then (some wRefused, s) else
  if !unjudged s x then (none, s) else
  let o := offOf x.addr
  match routeOf s x.addr with
  | .miss => (some wRefused, bump .rngRouteStatus 0 0 16 1 s)
  | .path _ => (none, s)
  | .edge _ => gateStamp x false (gateEdge s (nodeOf x.addr) x.source o x.len (x.ty != 1) x.eng x.tent) s
  | .self =>
    if reservedOff o then (some wRefused, s)
    else gateStamp x true (gateTarget s x.source o x.len (x.ty != 1) x.eng x.tent) s

/-- Whose order R71 keeps: a source, a cell, or an engine's one piece of work (R71, R175). -/
def orderKey (x : Txn) : Nat :=
  match x.origin with
  | .port .. | .shadow .. => x.source
  | .dolly n _ _ _ => 2 ^ 20 + n
  | .mcast w .. => 2 ^ 24 + w
  | _ => 2 ^ 32 + x.id

/-- The fabric port on which a request arrived. -/
def Txn.portIn (x : Txn) : Option Nat := match x.origin with | .port p _ => some p | _ => none

/-- Where a request goes, for the order of R71: its address, and for an access to a view the physical line (R262). -/
def destination (s : State) (x : Txn) : Nat :=
  let o := offOf x.addr
  if inEmb o && 0x980000000000 ≤ o && s.fab.self = some (nodeOf x.addr) then
    let v := o - 0x980000000000
    match viewPage (underMap s x) (v / 0x800000000) (v % 0x800000000) with
    | .ok (_, _, a) => place (nodeOf x.addr) 48 14 ||| a
    | .error _ => x.addr
  else x.addr

/-- Two requests share a 64-byte destination (R56). -/
def sameLine (s : State) (x y : Txn) : Bool :=
  let a := destination s x
  let b := destination s y
  a / 64 < (b + max y.len 1 + 63) / 64 && b / 64 < (a + max x.len 1 + 63) / 64

/-- An earlier request that a request must wait for (R71, R72). -/
def waitsFor (s : State) (x y : Txn) : Bool :=
  orderKey x = orderKey y &&
    (if x.ty = 4 || y.ty = 4 then x.portIn = y.portIn
     else sameLine s x y && (match y.stage with | .forwarded _ => false | _ => true))

/-- Nothing earlier keeps a request from being performed. -/
def unblocked (x : Txn) (s : State) : Bool := (s.fab.txns.takeWhile (·.id != x.id)).all fun y => !waitsFor s x y

/-! ### Completion with redirection -/

/-- May a read of a region be redirected (R350)? -/
def mayRedirect (s : State) (k : Nat) (r : Region) (x : Txn) : Bool :=
  has s.kpr.replicas k && r.writer.isNone && (readEntry s k x.source).all (· = r.current)
    && (match x.origin with | .replica .. | .tier3 _ => false | _ => true)

/-- A pooled-memory read has its outcome: it completes, or an alternate is asked first (R350). -/
def readDone (k : Nat) (r : Region) (x : Txn) (status : Nat) (bs : List Byte) (m : Nat) (s : State) : State :=
  if (status != wOk || m != 0) && mayRedirect s k r x then
    let s := updTxn x.id (fun y => { y with held := status, data := bs, mask := m }) s
    (askAlternate x.id 0 s).getD (finish x status bs m s)
  else finish x status bs m s

/-- The bytes of a pooled-memory read, in the source's view (Table 4.3): the lines are counted for the tier that served them (R139), and the blocks that they lie in are decoded (R155). Where two key slots match, the read is poisoned (R327). -/
def readNow (k : Nat) (r : Region) (x : Txn) (tier extra : Nat) (s : State) : State :=
  let o := offOf x.addr
  let v := viewFor (underMap s x) k r x.source
  let (a, n) := lineSpan o x.len
  let s := if keyMulti s o then noteMulti o s else s
  let s := decodeBlocks r (tileOf r v (granuleOf r o)) (a % tileBytes) (64 * n) (countTier x.tent tier n s)
  let (bs, m) := readLines s r v n 0 a
  let (bs, m) := cutLines o x.len bs (m ||| extra)
  readDone k r x wOk bs m s

/-- A read of a host's tier-3 tile that is not compressed ends (R125): the host's bytes, poison or error are the read's. A compressed tile's blocks come line by line instead (`pull`). -/
def tier3Done (id status : Nat) (bs : List Byte) (mask : Nat) (s : State) : State :=
  match txn s id with
  | none => s
  | some x =>
    match regionAt (underMap s x) (offOf x.addr) with
    | none => finish x wFailed [] 0 s
    | some (k, r) =>
      if status != wOk then readDone k r x wFailed [] 0 s
      else
        let v := viewFor (underMap s x) k r x.source
        let (a, n) := lineSpan (offOf x.addr) x.len
        let s := if keyMulti s a then noteMulti a s else s
        let (bs, m) := cutLines (offOf x.addr) x.len (bs ++ List.replicate (64 * n - bs.length) 0) (mask ||| (readLines s r v n 0 a).2)
        readDone k r x wOk bs m (countTier x.tent 3 n s)

/-- A request ends with a status. -/
def endTxn (x : Txn) (status : Nat) (data : List Byte) (mask : Nat) (s : State) : State :=
  match x.origin with
  | .tier3 id => tier3Done id status data mask (dropTxn x.id s)
  | .fetch key => lineCame key status data mask (dropTxn x.id s)
  | _ => finish x status data mask s

/-! ### Points a request passes -/

/-- A block being reset, from step 2 on (Table 17.5). -/
def resetting (s : State) (code : Nat) : Bool := (find s.chip.resets code).any fun b => 2 ≤ b.step

/-- Shaped points that a request passes at its target: kind and index (Table 13.3). -/
def pointsOf (x : Txn) (p : Place) : List (Nat × Nat) :=
  (match x.origin with | .dolly n _ _ _ => [(3, n / 512)] | _ => [])
    ++ (match p with | .t0 => [(1, 0)] | .t1 m | .t2 m => [(2, m)] | .t3 _ _ => [])

/-- Must a request wait at a point: behind an earlier one of its flow, or for tokens (R296, R298, R300)? -/
def mustWait (x : Txn) (code len : Nat) (s : State) : Bool :=
  ((s.fab.txns.takeWhile (·.id != x.id)).any fun y => y.stage = .shaped code && y.tent = x.tent && y.cls = x.cls)
    || elig s (code / 256) (code % 256) x.tent x.cls len = 2

/-- The request passes its shaped points in their order, or waits at the first that does not let it through (R296, R298, R300). What passed is counted as served (R305), in tier 0 by `count`. -/
def passPoints (x : Txn) (len : Nat) (count : State → State) : List (Nat × Nat) → State → Bool × State
  | [], s => (true, s)
  | q :: qs, s =>
    let code := 256 * q.1 + q.2
    if (txn s x.id).any fun y => y.points.contains code then passPoints x len count qs s else
    let s := refill q.1 q.2 s
    let n := if q.1 = 3 then x.len else len
    if mustWait x code n s then (false, updTxn x.id (fun y => { y with stage := .shaped code, unit := n }) (wakeFlow code x.tent x.cls s)) else
    let s := charge q.1 q.2 x.tent x.cls n s
    let s := if q.1 = 1 then count s else countServed code x.tent n s
    passPoints x len count qs (updTxn x.id (fun y => { y with points := y.points ++ [code] }) s)

/-- A request at pooled memory passes the points of the place that it reads or writes `len` stored bytes of, in the stacks that hold its lines (R294, R298). -/
def passAt (x : Txn) (r : Region) (p : Place) (len : Nat) (s : State) : Bool × State :=
  passPoints x len (servedTier0 r x.tent (len / 256 + 2) (offOf x.addr / 64 * 64) len) (pointsOf x p) s

/-- Bytes of requests that wait at a point: the next of each flow, with the length that its tag counts (R295, R296). -/
def pointHeads (s : State) (code : Nat) : List (Nat × Nat × Nat) :=
  ((s.fab.txns.filter (·.stage = .shaped code)).foldl (fun (l : List (Nat × Nat × Nat)) x =>
    if l.any fun e => e.1 = x.tent && e.2.1 = x.cls then l else l ++ [(x.tent, x.cls, x.unit)]) [])

/-- The flows that wait at a point. -/
def pointFlows (s : State) (code : Nat) : List (Nat × Nat) := (s.fab.txns.filter (·.stage = .shaped code)).map fun x => (x.tent, x.cls)

/-- The request that a point serves next (R296, R299, R300). -/
def pointNext (s : State) (code : Nat) (slot : Option Nat) : Option Txn :=
  (choose s code (code / 256) (code % 256) (pointHeads s code) slot).bind fun f =>
    s.fab.txns.find? fun x => x.stage = .shaped code && x.tent = f.1 && x.cls = f.2

/-- A request that waited at a point is served there: it goes on. -/
def leavePoint (x : Txn) (code : Nat) (s : State) : State :=
  let s := stageTxn x.id .ready (serveFlow code x.tent x.cls x.unit s)
  dropFlows code (pointFlows s code) s

/-- Stacks that hold the granules of a request. -/
def stacksUsed (r : Region) (o len : Nat) : List Nat :=
  let (a, n) := lineSpan o len
  (List.range n).foldl (fun l i => insNat l (stackOf r (a + 64 * i))) []

/-! ### Pooled memory -/

/-- Lines of a module's answer that are bad, within the span of a compressed tile: their blocks are damaged (R150, R155, R158). -/
def badLines (r : Region) (tile first n bad : Nat) (s : State) : State :=
  match tileSetting r tile with
  | none => s
  | some z =>
    let b := gsbBytes z.size
    (blocksOf z first n).foldl (fun s j => if bits bad ((j * b - first) / 64) (b / 64) = 0 then s else damageBlock r z tile j true s) s

/-- Ask a module for what a read needs of a tile: its bytes, or the payload lines of its blocks, in requests of at most 4,096 bytes (R155, Table 13.2). -/
def askTray (m : Nat) (x : Txn) (r : Region) (tile done : Nat) (s : State) : State :=
  let lo := offOf x.addr % tileBytes
  let (a, n) := if r.coded then fetchSpan s r tile lo x.len else (lo, x.len)
  emit (.tray m (x.id % 2 ^ 32) false tile (a + done) (min 4096 (n - done)) r.slot) (updTxn x.id (fun y => { y with stage := .tray m, fetched := done }) s)

/-- A read of pooled memory at its turn (Table 4.3, R126, Table 6.6). -/
def poolRead (x : Txn) (s : State) : State :=
  let o := offOf x.addr
  match regionAt (underMap s x) o with
  | none => endTxn x wRefused [] 0 s
  | some (k, r) =>
    if ((find s.kpr.guys k).any fun g => g.secondary && g.state = .syncing) && (readEntry (underMap s x) k x.source).isNone then endTxn x wRefused [] 0 s
    else if r.coherent then
      if resetting s 0x52 then stageTxn x.id (.blockWait 0x52) s
      else match passAt x r .t0 (64 * (lineSpan o x.len).2) s with
        | (false, s) => s
        | (true, s) => cohStart [(o / 64, .load x.id)] (updTxn x.id (fun y => { y with stage := .coherent (o / 64), data := [], mask := 0 }) s)
    else if r.coded && !pdOn s 24 then endTxn x wFailed [] 0 s
    else if r.coded && resetting s 0x51 then stageTxn x.id (.blockWait 0x51) s
    else
      let t := tileOf r (viewFor (underMap s x) k r x.source) (granuleOf r o)
      let p := placeOf s r t
      let len := fetchLength s r t (o % tileBytes) x.len
      match p with
      | .t0 =>
        let ks := stacksUsed r o x.len
        if ks.any fun k => !pdOn s (pdStack k) then readDone k r x wFailed [] 0 s
        else match ks.find? fun k => resetting s (0x30 + k) with
          | some k => stageTxn x.id (.blockWait (0x30 + k)) s
          | none =>
            match passAt x r p len s with
            | (false, s) => s
            | (true, s) => readNow k r x 0 0 s
      | .t1 m | .t2 m =>
        if !trayUp s m || resetting s (0x20 + m) then readDone k r x wFailed [] 0 s
        else match passAt x r p len s with
          | (false, s) => s
          | (true, s) => askTray m x r t 0 s
      | .t3 pl i =>
        if !hostUp s pl then readDone k r x wFailed [] 0 s
        else match passAt x r p len s with
          | (false, s) => s
          | (true, s) =>
            let (a, n) := lineSpan (o % tileBytes) x.len
            if !r.coded then issue (.tier3 x.id) (selfNode s) x.tent 1 (hostAddr s pl i + a) (64 * n) [] 0 (stageTxn x.id .alternate s)
            else match pull x.tent clsEngine r t pl i a (64 * n) s with
              | (false, s) => readDone k r x wFailed [] 0 s
              | (true, s) => readNow k r x 3 0 s

/-- A module's answer to a read (R379): the next part of a compressed tile's span is asked for, or the read has its outcome. `bad` marks the lines of this answer that came poisoned or not at all. -/
def trayCame (m bad : Nat) (x : Txn) (s : State) : State :=
  match regionAt (underMap s x) (offOf x.addr) with
  | none => endTxn x wFailed [] 0 s
  | some (k, r) =>
    let t := tileOf r (viewFor (underMap s x) k r x.source) (granuleOf r (offOf x.addr))
    let tier := (placeOf s r t).tier
    if !r.coded || (placeOf s r t != .t1 m && placeOf s r t != .t2 m) then readNow k r x tier bad s else
    let (a, n) := fetchSpan s r t (offOf x.addr % tileBytes) x.len
    let part := min 4096 (n - x.fetched)
    let s := badLines r t (a + x.fetched) part bad s
    if x.fetched + part < n then askTray m x r t (x.fetched + part) s else readNow k r x tier 0 s

/-- Lines of a store of pooled memory: line number, bytes, enables, poison (Table 3.14). -/
def storeLines (x : Txn) : List (Nat × List Byte × Nat × Bool) :=
  let (a, n) := lineSpan (offOf x.addr) x.len
  (List.range n).map fun i => (a / 64 + i, storeLine x (a / 64 + i))

/-- The lines of a store take effect in the head; what must be mirrored is sent, and the store completes or waits for its acknowledgement (R342). -/
def writeNow (k : Nat) (x : Txn) (s : State) : State :=
  let s := (storeLines x).foldl (fun s l =>
    applyLines k 1 l.2.1 (l.1 * 64) l.2.2.1 (bitOf l.2.2.2) s) s
  match find s.kpr.guys k with
  | some g =>
    if g.mirrors && !g.todo.isEmpty then
      match sendTodo k x.tent x.cls g.todo.length none s with
      | (some q, s) => stageTxn x.id (.mirror k q) s
      | (none, s) => endTxn x wOk [] 0 s
    else endTxn x wOk [] 0 s
  | none => endTxn x wOk [] 0 s

/-- Start the copy or promotion that a write needs (R96 to R98, R126): one copy per granule and 256 at a time, and a tile for it. -/
def startCopy (k g : Nat) (x : Txn) (s : State) : State :=
  if s.pool.copies.contains (k, g) || 256 ≤ s.pool.copies.length then stageTxn x.id (.copy k g) s else
  match takeCopyTile k s with
  | some s => stageTxn x.id (.copy k g) { s with pool := { s.pool with copies := s.pool.copies ++ [(k, g)] } }
  | none => endTxn x wFailed [] 0 (bump .snpRefused 0 48 16 1 (attn 10 s))

/-- A write of pooled memory at its turn (Table 4.3, R96, R126, R156, R341). Where two key slots match it is not performed (R327). A rushes candidate leaves a copied write of a guy-line secondary to the mirror (R353). -/
def poolStore (x : Txn) (s : State) : State :=
  let o := offOf x.addr
  match regionAt (underMap s x) o with
  | none => endTxn x wRefused [] 0 s
  | some (k, r) =>
    let copied := match x.origin with | .shadow .. => true | _ => false
    if copied && (find s.kpr.guys k).any (·.secondary) then endTxn x wOk [] 0 s else
    match writeRefused (underMap s x) k r x.source with
    | some lo => endTxn x wRefused [] 0 (bump .snpRefused 0 lo 16 1 s)
    | none =>
      let g := granuleOf r o
      let t := writeTile r g
      let n := (lineSpan o x.len).2
      if keyMulti s o then endTxn x wFailed [] 0 (noteMulti o s)
      else if r.coherent then
        if resetting s 0x52 then stageTxn x.id (.blockWait 0x52) s
        else match passAt x r .t0 (64 * n) s with
          | (false, s) => s
          | (true, s) => cohStart [(o / 64, .store x.id)] (stageTxn x.id (.coherent (o / 64)) s)
      else if r.coded && !pdOn s 24 then endTxn x wFailed [] 0 s
      else if r.coded && resetting s 0x51 then stageTxn x.id (.blockWait 0x51) s
      else if promoting s t then stageTxn x.id (.copy k g) s
      else if needsCopy s k r g then
        if tileUp s r o (placeOf s r t) then startCopy k g x s else endTxn x wFailed [] 0 s
      else if (find s.kpr.guys k).any fun y => y.syncOut.any fun e => e.1 = g then stageTxn x.id (.guyCopy k g) s
      else
        let ks := stacksUsed r o x.len
        if ks.any fun k => !pdOn s (pdStack k) then endTxn x wFailed [] 0 s
        else match ks.find? fun k => resetting s (0x30 + k) with
          | some k => stageTxn x.id (.blockWait (0x30 + k)) s
          | none =>
            match passAt x r .t0 (64 * n) s with
            | (false, s) => s
            | (true, s) =>
              match tileSetting r t with
              | some z => stageTxn x.id (.reencode t (o % tileBytes / gsbBytes z.size)) s
              | none => writeNow k x s

/-! ### Clapper and doorbell pages -/

/-- Enabled bytes of a write: offset and byte. -/
def bytesOf (x : Txn) : List (Nat × Byte) :=
  (List.range x.data.length).filterMap fun i =>
    if x.ty != 3 || x.mask.testBit i then some (offOf x.addr + i, x.data.getD i 0) else none

/-- The aligned 8-byte words that a write touches: word number and its enabled bytes. -/
def wordsOf (x : Txn) : List (Nat × List Byte) :=
  let bs := bytesOf x
  (bs.foldl (fun l b => insNat l (b.1 / 8)) []).map fun w => (w, (bs.filter fun b => b.1 / 8 = w).map Prod.snd)

/-- Bytes `[o, o + n)` of a page whose aligned words a function gives. -/
def wordBytes (f : Nat → Nat) (o n : Nat) : List Byte :=
  let w := o / 8
  ((((List.range ((o + n + 7) / 8 - w)).map fun i => leBytes 8 (f (w + i))).flatten).drop (o % 8)).take n

/-- A read or write of a clapper page (R58, R59). -/
def clapPage (x : Txn) (s : State) : State :=
  let o := offOf x.addr
  let t := (o - clapBase) / 0x100000
  let num (w : Nat) : Nat := (w * 8 - clapBase) % 0x100000 / 8
  if x.ty = 1 then
    endTxn x wOk (wordBytes (fun w => if ownsClap s (some t) (num w) then ((clapper s (num w)).map (·.ctr.toNat)).getD 0 else 0) o x.len) 0 s
  else
    let ws := wordsOf x
    if ws.any fun w => w.2.length != 8 || !ownsClap s (some t) (num w.1) then endTxn x wFailed [] 0 s
    else endTxn x wOk [] 0 (ws.foldl (fun s w => clapAdd (num w.1) (leNat w.2) s) s)

/-- A word of a doorbell page (Table 13.7). -/
inductive DoorWord where
  | tail (q : Nat)
  | head (q : Nat)
  /-- Word 0 DOORBELL, 1 CQ_HEAD, 2 STATUS, 3 CTL of command queue k. -/
  | cmdq (k w : Nat)
deriving DecidableEq, Repr

/-- The word at a page offset, if Table 13.7 has it. -/
def doorWord (o : Nat) : Option DoorWord :=
  if o < 0x1000000 then some (if o % 16 = 0 then .tail (o / 16) else .head (o / 16))
  else
    let p := o - 0x1000000
    if p < 1024 && p % 64 < 32 then some (.cmdq (p / 64) (p % 64 / 8)) else none

/-- Value read from a word; a queue that tent t does not own reads as 0 (R308). -/
def doorRead (s : State) (t : Nat) : DoorWord → Nat
  | .tail q => match (find s.qm.queues q).filter (·.tent = t) with
    | some x => place (bitOf x.error) 32 1 ||| x.tail.toNat
    | none => 0
  | .head q => match (find s.qm.queues q).filter (·.tent = t) with
    | some x => x.head.toNat
    | none => 0
  | .cmdq k w => match find s.gaf.cmdqs (t * 16 + k) with
    | none => 0
    | some x =>
      if w = 0 then x.lastTail else if w = 1 then x.cqHead
      else if w = 2 then place (bitOf x.error) 32 1 ||| place x.cqTail 16 16 ||| x.head
      else bitOf x.enable

/-- May tent t write this value to this word (R308)? -/
def doorMay (s : State) (t : Nat) (d : DoorWord) (v : Nat) : Bool :=
  match d with
  | .tail q => ((find s.qm.queues q).any (·.tent = t)) && v < 2 ^ 32
  | .head q => ((find s.qm.queues q).any (·.tent = t)) && v % 2 ^ 63 < 2 ^ 32
  | .cmdq k w => has s.gaf.cmdqs (t * 16 + k) && (if w < 2 then v < 2 ^ 16 else if w = 2 then v = 0 || v = 2 ^ 32 else v < 2)

/-- Write a word: done, and the state (R309, R33, R36). -/
def doorWrite (t : Nat) (d : DoorWord) (v : Nat) (s : State) : Bool × State :=
  match d with
  | .tail q => hwTail q (BitVec.ofNat 32 v) s
  | .head q => if v.testBit 63 then hwReset q (BitVec.ofNat 32 v) s else hwHead q (BitVec.ofNat 32 v) s
  | .cmdq k w =>
    let q : QId := .tent (BitVec.ofNat 7 t) (BitVec.ofNat 4 k)
    (true,
      if w = 0 then doorbell q v s
      else if w = 1 then cqHeadWrite q v s
      else if w = 2 then (if v = 0 then s else updQ q (fun x => { x with error := false }) s)
      else if v = 1 then enableQueue q s else disableQueue q s)

/-- A read or write of a doorbell page (R308). -/
def doorPage (x : Txn) (s : State) : State :=
  let o := offOf x.addr
  let t := (o - doorBase) / 0x2000000
  let word (w : Nat) : Option DoorWord := doorWord ((w * 8 - doorBase) % 0x2000000)
  if x.ty = 1 then
    if (List.range ((o + x.len + 7) / 8 - o / 8)).all fun i => (word (o / 8 + i)).isNone then endTxn x wFailed [] 0 s
    else endTxn x wOk (wordBytes (fun w => ((word w).map (doorRead s t)).getD 0) o x.len) 0 s
  else
    let ws := (wordsOf x).map fun w => (word w.1, w.2)
    if ws.any fun w => w.2.length != 8 || !(w.1.any fun d => doorMay s t d (leNat w.2)) then endTxn x wFailed [] 0 s
    else
      let (ok, s) := ws.foldl (fun acc w =>
        match w.1 with
        | some d => let (ok, s) := doorWrite t d (leNat w.2) acc.2; (acc.1 && ok, s)
        | none => acc) (true, s)
      endTxn x (if ok then wOk else wFailed) [] 0 s

/-! ### Collective, embedding and KV windows -/

/-- A read or write of a window slot (R219, Table 10.1). -/
def collPage (x : Txn) (s : State) : State :=
  let (w, o) := slotOf (offOf x.addr)
  if x.ty = 1 then
    let (st, bs, m, s) := winRead w x.source o x.len x.passed s
    endTxn x st bs m s
  else if (window s w).isSome && 0x80000000 ≤ o then endTxn x wWrongSlot [] 0 (winRefuse w x.source s)
  else
    let (st, s) := contribute w x.source o x.data (x.ty = 3) x.mask x.pline x.contrib x.passed s
    endTxn x st [] 0 s

/-- Poison mask of a list of lines. -/
def maskOfLines (ps : List Bool) : Nat := (List.range ps.length).foldl (fun m i => if ps.getD i false then m ||| 2 ^ i else m) 0

/-- End a bag or view access, its error counted (Table 11.5). -/
def gthEnd (x : Txn) (st : Nat) (bs : List Byte) (m : Nat) (s : State) : State :=
  endTxn x st bs m (if st = wOk then s else countGth st s)

/-- A read or write of a bag window or a view (R245, R246, R258, R262). -/
def embPage (x : Txn) (s : State) : State :=
  let o := offOf x.addr
  let (a, n) := lineSpan o x.len
  if !pdOn s 23 || resetting s 0x50 then endTxn x wFailed [] 0 s
  else if o < 0x980000000000 then
    if x.ty != 1 then gthEnd x gReadOnly [] 0 s else
    match bagRead x.tent x.source n (a - 0x900000000000) s with
    | (.error st, s) => gthEnd x st [] 0 s
    | (.ok (bs, ps), s) =>
      let (bs, m) := cutLines o x.len bs (maskOfLines ps)
      gthEnd x wOk bs m s
  else
    let v := (o - 0x980000000000) / 0x800000000
    let b := (a - 0x980000000000) % 0x800000000
    if x.ty = 1 then
      match viewRead x.tent x.source v b (64 * n) s with
      | (.error st, s) => gthEnd x st [] 0 s
      | (.ok (bs, m), s) =>
        let (bs, m) := cutLines o x.len bs m
        gthEnd x wOk bs m s
    else
      let (st, s) := viewWrite x.tent x.source v ((storeLines x).map fun l => ((l.1 * 64 - 0x980000000000) % 0x800000000, l.2)) s
      gthEnd x st [] 0 s

/-! ### Other nodes -/

/-- Is a request tag free on a port for a source? -/
def tagFree (s : State) (p source tag : Nat) : Bool :=
  !s.fab.txns.any fun y => y.tag = tag && y.source = source && (y.stage = .forwarded p || y.stage = .egress p)

/-- Send a request on towards another node on port p: a device's request keeps its tag, an engine's takes a free one (R65, R372). -/
def forwardOn (x : Txn) (p : Nat) (s : State) : State :=
  let (tag, s) := match x.origin with
    | .port _ m => (m.tag.toNat, s)
    | _ => (drawFree (tagFree s p x.source) 0 65536 s).getD (0, s)
  let s := updTxn x.id (fun y => { y with stage := .egress p, tag := tag }) s
  enqueue ⟨some x.id, p, x.tent, x.cls, 0, x.ty, msgOf s x p tag⟩ s

/-- Send a request to its path group (R69): held while the group's hold runs (R77), failed where no port is usable. -/
def pathOn (x : Txn) (ports : Nat) (s : State) : State :=
  if s.fab.holds.any fun h => h.ports = ports then stageTxn x.id (.pathHeld ports) s else
  let ps := usablePorts s ports
  match ps[pathHash (nodeOf x.addr) (offOf x.addr) % ps.length]? with
  | some p => forwardOn x p s
  | none => endTxn x wFailed [] 0 s

/-! ### Performing requests in order -/

/-- A request of the old epoch meets the tables, caches and views of its own map (R47, Table 11.11). -/
def underOld (x : Txn) (f : State → State) (s : State) : State :=
  match oldMapOf s x with
  | none => f s
  | some _ =>
    let t := f { s with gth := (underMap s x).gth }
    { t with gth := { t.gth with tables := s.gth.tables, caches := s.gth.caches, views := s.gth.views } }

/-- Perform an admitted request whose turn has come, under the map of its stamp (R47). The completion of a FENCE goes out before a later request is performed (R72). -/
def perform (x : Txn) (s : State) : State :=
  if x.ty = 4 then pump (endTxn x wOk [] 0 s) else
  match routeOf (underMap s x) x.addr with
  | .miss => endTxn x wFailed [] 0 s
  | .path ports | .edge ports => pathOn x ports s
  | .self =>
    let o := offOf x.addr
    if inPool o then (if x.ty = 1 then poolRead x s else poolStore x s)
    else if inColl o then collPage x s
    else if inClap o then clapPage x s
    else if inDoor o then doorPage x s
    else underOld x (embPage x) s

/-- Take one request that is ready a step further: take it in, and perform it once nothing earlier blocks it. Where its engine must wait for lines of agents or hosts, nothing of it has happened yet (log entry 48). -/
def driveOne (x : Txn) (s : State) : State :=
  match takeIn x s with
  | (some st, s) => endTxn x st [] 0 s
  | (none, s) =>
    match txn s x.id with
    | some x =>
      if !unblocked x s then s else held (stageTxn x.id (.gather 0) s) s (perform x s)
    | none => s

/-- A request that can move now: ready, and not judged yet or not blocked. -/
def movable (s : State) (x : Txn) : Bool := x.stage = .ready && (unjudged s x || unblocked x s)

/-- The shaped points, egress ports apart, at which requests wait. -/
def waitPoints (s : State) : List Nat :=
  s.fab.txns.foldl (fun l x => match x.stage with | .shaped c => insNat l c | _ => l) []

/-- Serve a point while it has an eligible request; in a reserved slot of a tent only that tent's (R295, R300). -/
def serveLoop (code : Nat) (slot : Option Nat) : Nat → State → State
  | 0, s => s
  | n + 1, s =>
    match pointNext s code slot with
    | some x => serveLoop code slot n (match txn (leavePoint x code s) x.id with
        | some y => driveOne y (leavePoint x code s)
        | none => leavePoint x code s)
    | none => s

/-- Serve a point with the tokens that its buckets hold now. -/
def servePoint (code : Nat) (slot : Option Nat) (s : State) : State :=
  serveLoop code slot s.fab.txns.length (refill (code / 256) (code % 256) s)

/-- Drive requests while one can move; then the coherence directory and what it brings, and again (R71, R115). -/
def drive : Nat → State → State
  | 0, s => s
  | n + 1, s =>
    match s.fab.txns.find? (movable s) with
    | some x => drive n (driveOne x s)
    | none =>
      if !s.coh.need.isEmpty || s.coh.queue.any fun q => (cohBusy s q.1).isNone then drive n (cohStart [] (startNeeds s)) else s

/-- Writes that waited for an acknowledgement of a guy line that no longer mirrors complete alone (R343). -/
def endMirrors (s : State) : State :=
  (s.fab.txns.filter fun x => match x.stage with
    | .mirror k _ => !(find s.kpr.guys k).any Guy.mirrors
    | _ => false).foldl (fun s x => endTxn x wOk [] 0 s) s

/-- Writes that waited for a granule's guy-line copy try again once it is not under way (R341). -/
def freeGuyCopies (s : State) : State :=
  s.fab.txns.foldl (fun s x => match x.stage with
    | .guyCopy k g => if (find s.kpr.guys k).any fun y => y.mirrors && y.syncOut.any fun e => e.1 = g then s else stageTxn x.id .ready s
    | _ => s) s

/-- Everything that can move does: requests, `n` steps of them at most before those that wait at shaped points, then mirrors and egress ports. -/
def drainFor (n : Nat) (s : State) : State :=
  let s := drive n s
  let s := if (waitPoints s).isEmpty then s else drive (2 ^ 16) ((waitPoints s).foldl (fun s c => servePoint c none s) s)
  padAll (pump (endMirrors (guyReach (flushMirrors s))))

/-- Everything that can move does. -/
def drain (s : State) : State := drainFor (2 ^ 16) (freeGuyCopies s)

/-! ### Port failure -/

/-- Tier-3 pools on a port's node. -/
def poolsOn (s : State) (p : Nat) : List Nat :=
  (List.range 16).filter fun i => (mapVal s .hbcT3PoolLo i).testBit 63 && attachOf s p = some (bits (mapVal s .hbcT3PoolLo i) 36 14)

/-- Requests forwarded on a port complete with an error, and what waits at it is discarded (R79, Table 3.13). DESIGN CHOICE (log entry 46): so do the requests that only wait to leave on it, of which Table 3.13 does not speak. -/
def dropPort (p : Nat) (s : State) : State :=
  let lost := s.fab.txns.filter fun x => x.stage = .forwarded p || x.stage = .egress p
  let s := unqueue (·.port = p) s
  lost.foldl (fun s x => endTxn x wFailed [] 0 s) s

/-- What a fabric port loses when it fails or is reset (R79, Table 3.13, R119, Table 6.6, Table 17.7): credits and IDE keys, its requests, its agents; its groups are held. -/
def portDrop (p : Nat) (dst : LinkState) (s : State) : State :=
  let old := s
  let s := updPort p (fun x => { x with
    link := dst, ideUp := false, up := false, credits := {}, replays := 0, losses := x.losses + 1
    tx := [], txSeq := 0, flits := [], rxSeq := 0, nak := false }) s
  let s := holdDiff old s
  let s := dropPort p s
  let s := (agentsOn s p).foldl (fun s a => agentFail a s) s
  let pools := poolsOn s p
  let s := (keys s.pool.hints).foldl (fun s h => abandon h (fun m => match m.target with | .t3 q _ => pools.contains q | _ => false) true true s) s
  (keys s.pool.hints).foldl (fun s h => abandon h (fun m => match find s.pool.places m.tile with | some (.t3 q _) => pools.contains q | _ => false) true true s) s

/-- A fabric port fails (R79): LINK_DOWN is logged, and GAF_ATTN.LINK where it enters DOWN or HELD (Table 19.8). -/
def portFail (p : Nat) (dst : LinkState) (s : State) : State :=
  let s := portDrop p dst (ras 0x08 2 none ((attachOf s p).getD 0) p 0 s)
  let s := if dst = .retrain then noteRetrain p s else s
  if dst = .down || dst = .held then attn 4 s else s

end Sys2Proof.Machine
end

