-- ==== Sys2Proof/Machine/Fabric.lean ====
section
/-! DEFINITION. Messages that arrive on fabric and tray ports (chapters 3, 5, 15 and 16): requests, completions, credits, configuration, coherence, guy-line and shadow messages, and the events that time brings to them. -/

namespace Sys2Proof.Machine

/-- Do what a fabric event does, then let everything move that can. Engine work of the event whose loads must wait for lines is left for later (log entry 48). -/
def fabricDo (f : State → State) (s : State) : Res := .next (drain (ready f s))

/-! ### Receiving -/

/-- Does a port take a message of this protocol now: link in L0, protocol of its mode, keys in place (R330, R361)? -/
def portTakes (s : State) (p : Nat) (m : Msg) : Bool :=
  let x := port s p
  p < 20 && x.link = .l0 && pdOn s (pdFabric p) && ((m.proto = .native) = (wireMode x = 1)) && (!x.ide || x.ideUp || x.role = 0)

/-- A CREDIT message that returns units of one channel (R372, Table 16.6). -/
def creditMsg (chan n : Nat) : Msg :=
  { length := BitVec.ofNat 13 (if chan = 0 then n else 0), storedLen := BitVec.ofNat 16 (if chan = 1 then n else 0)
    status := BitVec.ofNat 16 (if chan = 2 then n else 0), seq := BitVec.ofNat 16 (if chan = 3 then n else 0)
    mask := BitVec.ofNat 64 (if 4 ≤ chan then place n (16 * (chan - 4)) 16 else 0) }

/-- Receive a message on a channel (R372): credit is checked and returned at once; a sender that exceeds it fails the port. -/
def receive (p chan : Nat) (m : Msg) (k : Msg → State → State) (s : State) : State :=
  if !portTakes s p m then s else
  let m := framed m
  if wireMode (port s p) != 1 then k m s
  else if (port s p).credits.recv.getD chan 0 < units m then portFail p .retrain s
  else k m (linkSend p 6 (creditMsg chan (units m)) (linkHears p s))

/-! ### Checks of a request -/

/-- LENGTH and place of a request at native address `a` fit (Table 16.8). -/
def lengthOk (ty a : Nat) (m : Msg) : Bool :=
  let n := m.length.toNat
  let o := a % 4096
  if ty = 3 then n = 64 && o % 64 = 0
  else if ty = 4 then true
  else 64 ≤ n && n ≤ 4096 && n % 64 = 0 && o + n ≤ 4096 && (m.proto != .cxlMem || n = 64)

/-- A GSB message has a TYPE and a LENGTH that GSB messages may have (Table 16.8). -/
def gsbLength (ty : Nat) (m : Msg) : Bool := (ty = 2 || ty = 9) && (m.length.toNat = 2048 || m.length.toNat = 4096)

/-- A GSB message is framed within its limits (Table 16.8, R162). -/
def gsbOk (ty : Nat) (m : Msg) : Bool :=
  !m.gsb || (gsbLength ty m && 33 ≤ m.storedLen.toNat && m.storedLen.toNat ≤ m.length.toNat + 32)

/-- The status that a malformed message is answered with (R373), if it is malformed; `a` is its address as the port decodes it. Lengths are checked before a GSB message is decoded (R162), and a failing one is BAD_LENGTH in the collective aperture. -/
def malformed (ty a : Nat) (m : Msg) : Option Nat :=
  let short := if inColl (offOf a) then wBadLength else wMalformed
  if m.rsv || m.hops = 7 then some wMalformed
  else if ty = 4 then (if m.addr = 0 && gsbOk ty m then none else some wMalformed)
  else if !lengthOk ty a m || (m.gsb && ty = 2 && !gsbLength ty m) then some short
  else if !gsbOk ty m || (ty = 3 && m.mask = 0) then some wMalformed
  else if ty = 3 && m.contrib && m.mask != BitVec.allOnes 64 then some wBadLength
  else none

/-- Traffic class of a message's requests (R293, R368). -/
def classOf (m : Msg) : Nat := match m.proto with | .cxlMem | .cxlCache => 0 | _ => min m.tc.toNat 5

/-- Source identity of a message on a port (R61); none is a spoof. A native message, and any on a port in PBR mode, carries a source field. -/
def sourceOf (s : State) (p : Nat) (m : Msg) : Option Nat :=
  if edgeRole (port s p).role then
    match attachOf s p with
    | none => none
    | some n => if (m.proto = .native || (port s p).mode = 2) && m.snode.toNat != n then none else some n
  else some m.snode.toNat

/-- Native address of a message (R55, R62): none where no decoder covers a host address. DESIGN CHOICE (log entry 46): the sum of R62 is not cut at 48 bits, so that where it reaches 2^48 the carry enters the NODE bits; R63 bounds TARGET_OFFSET alone. -/
def addressOf (s : State) (p : Nat) (m : Msg) : Option Nat :=
  if m.proto = .native || !edgeRole (port s p).role then some m.addr.toNat
  else ((List.range 16).findSome? fun i => (find s.fab.decoders (p * 16 + i)).filter fun d => d.base ≤ m.addr.toNat && m.addr.toNat < d.base + d.size).map fun d =>
    d.node <<< 48 ||| (d.target + (m.addr.toNat - d.base))

/-- Requests are refused whatever they ask: before stage 6, in epoch 0, in lockdown or a halt, on a port without role or not enabled (R49, R334, R356, R361, R363, R377). -/
def refusing (s : State) (p : Nat) : Bool :=
  let x := port s p
  s.gaf.stage < 6 || s.gaf.epoch = 0 || s.kpr.lockdown || s.gaf.bootHalt || s.gaf.errorHalt || x.role = 0 || !x.enable || x.blocked

/-- TRANSIT_AGE_US of the epoch in force (Table 3.12). -/
def transitAge (s : State) : Nat := max 4 (bits (mapVal s .rngRouteCtl 0) 0 8)

/-- A request that passed the port's checks becomes a request in flight. DESIGN CHOICE (log entry 46): a request that is not native, and so carries no hop budget, enters with the 6 of R66, on an inter-rack port in PBR mode too. -/
def addRequest (p ty : Nat) (m : Msg) (source addr : Nat) (s : State) : State :=
  let (dl, s) := if edgeRole (port s p).role then (none, s) else
    let (now, s) := clock s
    (some (now + transitAge s * 1000), s)
  addTxn { id := 0, epoch := unstamped, origin := .port p m, source := source, tent := 128, cls := classOf m, eng := false, ty := ty, addr := addr
           len := if ty = 4 then 0 else m.length.toNat, data := if ty = 2 || ty = 3 then m.data else [], mask := if ty = 2 || ty = 3 then m.mask.toNat else 0
           pline := m.pline, contrib := m.contrib, hint := if m.hint then some m.hintAgent.toNat else none
           hops := if m.proto = .native then m.hops.toNat else 6, deadline := dl, stage := .ready, losses := (port s p).losses } s

/-- A request is answered at its port without going further. -/
def turnAway (p ty : Nat) (m : Msg) (addr status : Nat) (s : State) : State :=
  respond p m (ty = 1) 128 (classOf m) addr status [] 0 s

/-- A message with a bad length to a window of this switch counts at the window where the gate would have admitted its source (R219, R226). -/
def countShort (p ty a : Nat) (m : Msg) (s : State) : State :=
  if !inColl (offOf a) || s.fab.self != some (nodeOf a) || refusing s p then s else
  match sourceOf s p m with
  | none => s
  | some source =>
    match gateTarget s source (offOf a) (max m.length.toNat 1) (ty != 1) false 0 with
    | .ok _ => winRefuse (slotOf (offOf a)).1 source s
    | _ => s

/-- A request that arrives on a fabric port (R55, R61, R62, R66, R361, R373). -/
def requestArrives (p ty : Nat) (m : Msg) : State → State :=
  receive p 0 m fun m s =>
    let a := (addressOf s p m).getD m.addr.toNat
    match malformed ty a m with
    | some st =>
      let s := bump .prtErrors p 32 16 1 s
      turnAway p ty m m.addr.toNat st (if st = wBadLength then countShort p ty a m s else s)
    | none =>
      let (m, s) := unwire m s
      if refusing s p then turnAway p ty m m.addr.toNat wRefused s else
      match sourceOf s p m with
      | none => turnAway p ty m m.addr.toNat wRefused (bump .rngRouteStatus 0 32 16 1 s)
      | some source =>
        match addressOf s p m with
        | none => turnAway p ty m m.addr.toNat wRefused (bump .rngRouteStatus 0 16 16 1 s)
        | some addr =>
          if 2 ^ 62 ≤ addr then turnAway p ty m addr wRefused s
          else if m.proto = .native && m.hops = 0 then turnAway p ty m addr wTransit (bump .rngRouteStatus 0 48 16 1 s)
          else addRequest p ty m source addr s

/-- READ (R65). -/
def execRead (port : BitVec 5) (m : Msg) (s : State) : Res := fabricDo (requestArrives port.toNat 1 m) s
/-- WRITE (R65). -/
def execWrite (port : BitVec 5) (m : Msg) (s : State) : Res := fabricDo (requestArrives port.toNat 2 m) s
/-- WRITE_PARTIAL (R373). -/
def execWritePartial (port : BitVec 5) (m : Msg) (s : State) : Res := fabricDo (requestArrives port.toNat 3 m) s
/-- FENCE (R72), a native request. -/
def execFenceRequest (port : BitVec 5) (m : Msg) (s : State) : Res :=
  fabricDo (if m.proto = .native then requestArrives port.toNat 4 m else id) s

/-! ### Credits, completions, configuration -/

/-- Credits of eight channels from the sixteen bytes of INIT or CREDIT (R372). -/
def creditsOf (ret : BitVec 128) : List Nat := (List.range 8).map fun c => bits ret.toNat (16 * c) 16

/-- A native port takes link-level messages in any role (R361). -/
def nativeUp (s : State) (p : Nat) : Bool := p < 20 && (port s p).link = .l0 && wireMode (port s p) = 1

/-- CREDIT: the partner returns units (R372). -/
def execCredit (port : BitVec 5) (ret : BitVec 128) (s : State) : Res :=
  fabricDo (fun s =>
    if nativeUp s port.toNat then
      updPort port.toNat (fun x => { x with credits := { x.credits with send := List.zipWith (· + ·) x.credits.send (creditsOf ret) } }) (linkHears port.toNat s)
    else s) s

/-- INIT: the partner's first credits (R372). -/
def execInit (port : BitVec 5) (ret : BitVec 128) (s : State) : Res :=
  fabricDo (fun s =>
    if nativeUp s port.toNat then updPort port.toNat (fun x => { x with credits := { x.credits with send := creditsOf ret } }) (linkHears port.toNat s) else s) s

/-- The request that a completion on a port answers (Table 16.10). -/
def outstanding (s : State) (p : Nat) (m : Msg) : Option Txn :=
  s.fab.txns.find? fun x => x.stage = .forwarded p && x.tag = m.tag.toNat && (m.proto != .native || x.source = m.snode.toNat)

/-- A completion arrives: it ends the request it answers, or is discarded and counted (R374, Table 16.10). -/
def completionArrives (p : Nat) (withData : Bool) (m : Msg) : State → State :=
  receive p 1 m fun m s =>
    if m.rsv || m.hops = 7 || (withData && !(64 ≤ m.length.toNat && m.length.toNat ≤ 4096 && m.length.toNat % 64 = 0)) || !gsbOk (if withData then 9 else 8) m then
      bump .prtErrors p 32 16 1 s
    else match outstanding s p m with
    | none => bump .prtErrors p 16 16 1 s
    | some x =>
      let (m, s) := unwire m s
      if withData then (if x.ty = 1 && m.data.length = x.len then endTxn x wOk m.data m.mask.toNat s else endTxn x wFailed [] 0 s)
      else if x.ty = 1 && m.status = 0 then endTxn x wFailed [] 0 s
      else endTxn x m.status.toNat [] 0 s

/-- COMPLETION (R374). -/
def execCompletion (port : BitVec 5) (m : Msg) (s : State) : Res := fabricDo (completionArrives port.toNat false m) s
/-- COMPLETION_DATA (R374). -/
def execCompletionData (port : BitVec 5) (m : Msg) (s : State) : Res := fabricDo (completionArrives port.toNat true m) s

/-- The 4 bytes of a configuration register: the identifiers that R453 and Table 19.5 give. The rest of the space is what CXL 3.1 and PCIe 7.0 require, which the spec does not state: free values. -/
def configData (p reg : Nat) (s : State) : List Byte × State :=
  let (bs, s) := drawBytes 4 s
  (if reg = 0 then leBytes 2 0x1D9A ++ (if p = 20 then bs.drop 2 else leBytes 2 0x2820)
   else if reg = 2 && p != 20 then leBytes 1 0xB0 ++ bs.drop 1
   else bs, s)

/-- A configuration request on a port in CXL or PBR mode, or on the management endpoint, numbered 20 (R377, R453). -/
def execConfigRequest (port : BitVec 5) (tag : BitVec 16) (write : Bool) (reg : BitVec 10) (s : State) : Res :=
  let p := port.toNat
  let up := if p = 20 then 1 ≤ s.gaf.stage else p < 20 && (Machine.port s p).link = .l0 && wireMode (Machine.port s p) != 1
  let retry : Bool := s.gaf.stage < 6 || s.gaf.bootHalt
  .next (if !up then s
    else if retry || write then emit (.config p tag.toNat retry []) s
    else
      let (bs, s) := configData p reg.toNat s
      emit (.config p tag.toNat false bs) s)

/-- TRAY_RESPONSE: the module answers a read (R379): a REFUSED or FAILED one is an uncorrectable error, so its lines are poisoned. -/
def execTrayResponse (tray : BitVec 3) (tag : BitVec 32) (status : BitVec 2) (poison : BitVec 64) (s : State) : Res :=
  fabricDo (fun s =>
    let m := tray.toNat
    match s.fab.txns.find? fun x => x.stage = .tray m && x.id % 2 ^ 32 = tag.toNat with
    | none => bump .tryErrors m 16 16 1 s
    | some x =>
      let s := if status = 0 then s else bump .tryErrors m 0 16 1 s
      let s := if status = 1 then bump .rngGateStats 0 0 16 1 s else s
      trayCame m (if status = 0 then poison.toNat else 2 ^ 64 - 1) x s) s

/-- A forwarded request, or one held, has not left within TRANSIT_AGE_US (R76). -/
def execTransitAgeExpiry (txn : BitVec 32) (s : State) : Res :=
  fabricDo (fun s =>
    match s.fab.txns.find? fun x => x.id % 2 ^ 32 = txn.toNat with
    | none => s
    | some x =>
      let waits := match x.stage with | .egress _ | .pathHeld _ | .ready => true | _ => false
      match x.deadline with
      | some d =>
        if x.gated || !waits then s else
        let s := clockTo d (bump .rngRouteStatus 0 48 16 1 s)
        endTxn x wTransit [] 0 (unqueue (·.txn = some x.id) s)
      | none => s) s

/-- The hold of a path group ends, FAILOVER_QUIET_US after it began (R77). -/
def execFailoverQuietEnd (ports : BitVec 20) (s : State) : Res :=
  fabricDo (fun s =>
    match s.fab.holds.find? (·.ports = ports.toNat) with
    | some h => wake (· = .pathHeld ports.toNat) (clockTo h.deadline { s with fab := { s.fab with holds := s.fab.holds.filter (·.ports != ports.toNat) } })
    | none => s) s

/-! ### Coherence -/

/-- Does an agent's kind speak a protocol (Table 5.1)? -/
def kindSpeaks (k : Nat) (m : Msg) : Bool :=
  match m.proto with
  | .native => k = 0
  | .cxlCache => k = 1
  | .cxlMem => k = 2
  | .cxlIo => false

/-- The valid agent that sends a message (R105, R117). -/
def sender (s : State) (p : Nat) (cacheId : BitVec 4) (m : Msg) : Option Nat :=
  (agentAt s p cacheId.toNat).filter fun a => kindSpeaks (agKind (agentEntry s a)) m && edgeRole (port s p).role

/-- Line of the self node's pooled memory that a coherence message names. -/
def cohLine (s : State) (p : Nat) (m : Msg) : Option Nat :=
  (addressOf s p m).bind fun a => if s.fab.self = some (nodeOf a) && a < 2 ^ 62 && inPool (offOf a) then some (offOf a / 64) else none

/-- A caching request (R111, R117 to R119): served for a valid agent on a coherent line that its source may reach, in the flow of the entry that admits it (R294), else refused. Evictions start no caching. -/
def cacheRequest (p : Nat) (cacheId : BitVec 4) (m : Msg) (op : Nat) (read write evict : Bool) (req : Nat → Msg → Nat × Nat → CohReq) : State → State :=
  receive p 2 m fun m s =>
    let refuse (s : State) : State := respond p m (read && !evict) 128 (classOf m) m.addr.toNat wRefused [] 0 s
    if refusing s p || op = 5 then refuse s else
    match sender s p cacheId m, cohLine s p m with
    | some a, some line =>
      match regionAt s (line * 64) with
      | none => refuse (countGate .noEntry s)
      | some (k, r) =>
        let src := agNode (agentEntry s a)
        let gate (w : Bool) := gatePool s src (line * 64) 64 w false 0
        let g := match (if read then gate false else .ok 0), (if write then gate true else .ok 0) with
          | .ok t, .ok u => GateRes.ok (if read then t else u)
          | .ok _, g => g
          | g, _ => g
        match g with
        | .ok t =>
          if !r.coherent || agentFailed s a || resetting s 0x52 || (!evict && (regionFlushing s k || agentFlushing s a)) then refuse s
          else cohStart [(line, req a m (t, classOf m))] s
        | g => refuse (countGate g s)
    | _, _ => refuse s

/-- RD_SHARED (R111). -/
def execRdShared (port : BitVec 5) (cacheId : BitVec 4) (m : Msg) (s : State) : Res :=
  fabricDo (cacheRequest port.toNat cacheId m 0 true false false fun a m f => .rdShared a m.tag.toNat f) s
/-- RD_OWN (R111). -/
def execRdOwn (port : BitVec 5) (cacheId : BitVec 4) (m : Msg) (s : State) : Res :=
  fabricDo (cacheRequest port.toNat cacheId m 1 true true false fun a m f => .rdOwn a m.tag.toNat f) s
/-- OWN_NODATA (R111). -/
def execOwnNodata (port : BitVec 5) (cacheId : BitVec 4) (m : Msg) (s : State) : Res :=
  fabricDo (cacheRequest port.toNat cacheId m 2 false true false fun a m f => .ownNoData a m.tag.toNat f) s
/-- EVICT_CLEAN (R111). -/
def execEvictClean (port : BitVec 5) (cacheId : BitVec 4) (m : Msg) (s : State) : Res :=
  fabricDo (cacheRequest port.toNat cacheId m 3 true false true fun a m f => .evict a m.tag.toNat f none) s
/-- EVICT_DIRTY, with the line's data and its poison (R111). -/
def execEvictDirty (port : BitVec 5) (cacheId : BitVec 4) (m : Msg) (s : State) : Res :=
  fabricDo (cacheRequest port.toNat cacheId m 4 false true true fun a m f => .evict a m.tag.toNat f (some (fit 64 m.data, m.mask.getLsbD 0))) s

/-- An agent's answer on the Response or Data channel (R110 to R114). -/
def agentAnswers (p chan : Nat) (cacheId : BitVec 4) (m : Msg) (k : Nat → Nat → Msg → State → State) : State → State :=
  receive p chan m fun m s =>
    match sender s p cacheId m, cohLine s p m with
    | some a, some line => k line a m s
    | _, _ => bump .prtErrors p 16 16 1 s

/-- ACK_I (R111). -/
def execAckI (port : BitVec 5) (cacheId : BitVec 4) (m : Msg) (s : State) : Res :=
  fabricDo (agentAnswers port.toNat 5 cacheId m fun l a _ => cohAnswer port.toNat l a .ackI) s
/-- ACK_S (R111). -/
def execAckS (port : BitVec 5) (cacheId : BitVec 4) (m : Msg) (s : State) : Res :=
  fabricDo (agentAnswers port.toNat 5 cacheId m fun l a _ => cohAnswer port.toNat l a .ackS) s
/-- HINT_ACCEPT (R112). -/
def execHintAccept (port : BitVec 5) (cacheId : BitVec 4) (m : Msg) (s : State) : Res :=
  fabricDo (agentAnswers port.toNat 5 cacheId m fun l a _ => cohHintAnswer port.toNat l a true) s
/-- HINT_DECLINE (R112). -/
def execHintDecline (port : BitVec 5) (cacheId : BitVec 4) (m : Msg) (s : State) : Res :=
  fabricDo (agentAnswers port.toNat 5 cacheId m fun l a _ => cohHintAnswer port.toNat l a false) s
/-- CLEAN (R110). -/
def execClean (port : BitVec 5) (cacheId : BitVec 4) (m : Msg) (s : State) : Res :=
  fabricDo (agentAnswers port.toNat 6 cacheId m fun l a m => cohAnswer port.toNat l a (.data false (fit 64 m.data) (m.mask.getLsbD 0))) s
/-- DIRTY (R110). -/
def execDirty (port : BitVec 5) (cacheId : BitVec 4) (m : Msg) (s : State) : Res :=
  fabricDo (agentAnswers port.toNat 6 cacheId m fun l a m => cohAnswer port.toNat l a (.data true (fit 64 m.data) (m.mask.getLsbD 0))) s

/-- A Snoop or Hint is unanswered for SNOOP_TIMEOUT_US: the agent fails (R119). -/
def execSnoopTimeout (line : BitVec 48) (agent : BitVec 5) (s : State) : Res :=
  fabricDo (fun s =>
    match (cohBusy s line.toNat).filter fun t => t.wait.testBit agent.toNat || t.hintTo = some agent.toNat with
    | some _ => agentFail agent.toNat (bump .cohStats 0 0 16 1 (limitOver (snoopLimit line.toNat) s))
    | none => s) s

/-- The walk of a flush ends (R118, R119). -/
def execFlushEnd (ofAgent : Bool) (n : BitVec 18) (s : State) : Res :=
  fabricDo (fun s => if ofAgent then endAgentFlush n.toNat s else leaveDomain n.toNat s) s

/-! ### Guy lines -/

/-- A message of channel 7 arrives (Table 16.1): for this switch, or to be sent on towards its node in the transit flow. -/
def peerArrives (p ty : Nat) (m : Msg) (k : Msg → State → State) : State → State :=
  receive p 7 m fun m s =>
    let role := (port s p).role
    if (role != 3 && role != 4) || !(port s p).enable || (port s p).blocked || m.rsv then s
    else if s.fab.self = some (nodeOf m.addr.toNat) then k m s
    else if m.hops = 0 || m.hops = 7 then s
    else match guyPort s (nodeOf m.addr.toNat) with
      | some q => enqueue ⟨none, q, 128, classOf m, 7, ty, { m with hops := m.hops - 1 }⟩ s
      | none => s

/-- MIRROR with OP 0 (R342). -/
def execMirror (port : BitVec 5) (m : Msg) (s : State) : Res := fabricDo (peerArrives port.toNat 0x10 m mirrorArrives) s
/-- MIRROR with OP 1, a commit point (R103). -/
def execMirrorCommit (port : BitVec 5) (m : Msg) (s : State) : Res := fabricDo (peerArrives port.toNat 0x10 m mirrorCommits) s
/-- LINK (R340). -/
def execLink (port : BitVec 5) (m : Msg) (s : State) : Res := fabricDo (peerArrives port.toNat 0x12 m linkArrives) s
/-- NOT_LINKED (R340, R343). -/
def execNotLinked (port : BitVec 5) (m : Msg) (s : State) : Res := fabricDo (peerArrives port.toNat 0x12 m notLinkedArrives) s

/-- A keep-alive for a guy line that is not there is answered NOT_LINKED; for one that is, it breaks the silence (R343, R345). -/
def execKeepalive (port : BitVec 5) (m : Msg) (s : State) : Res :=
  fabricDo (peerArrives port.toNat 0x12 m fun m s =>
    match guyFrom s m with
    | some (k, _) => heard k s
    | none => notLinkedTo m.snode.toNat (guyRegion m) (leNat ((m.data.drop 4).take 4)) s) s

/-- MIRROR_ACK: what waited for the sequence number completes (R341, R342). -/
def execMirrorAck (port : BitVec 5) (m : Msg) (s : State) : Res :=
  fabricDo (peerArrives port.toNat 0x11 m fun m s =>
    match guyFrom s m with
    | none => s
    | some (k, g) =>
      if g.secondary then s else
      let done := s.fab.txns.filter fun x => x.stage = .mirror k m.seq.toNat
      ackArrives k m.seq.toNat (done.foldl (fun s x => endTxn x wOk [] 0 s) s)) s

/-! ### Rushes -/

/-- The candidate applies one copy to its own state (R352). -/
def applyCopy (q : Nat) (m : Msg) (s : State) : State :=
  let (ty, c) := parseMessage m.data
  let a := place (selfNode s) 48 14 ||| offOf c.addr.toNat
  addTxn { id := 0, epoch := unstamped, origin := .shadow q ty c, source := c.snode.toNat, tent := 128, cls := classOf c, eng := false, ty := ty, addr := a
           len := c.length.toNat, data := if ty = 1 then [] else fit c.length.toNat c.data, mask := if ty = 1 then 0 else c.mask.toNat
           pline := c.pline, contrib := c.contrib, hint := if c.hint then some c.hintAgent.toNat else none, stage := .ready } s

/-- Copies that are next in sequence are applied (R352). -/
def applyEarly : Nat → State → State
  | 0, s => s
  | n + 1, s =>
    let r := s.gaf.rushes
    match takeFirst (fun e => e.1 = r.seq % 65536) r.early with
    | none => s
    | some ((_, _, m), rest) =>
      applyEarly n (applyCopy r.seq m { s with gaf := { s.gaf with rushes := { r with early := rest, seq := r.seq + 1 } } })

/-- SHADOW_COPY at the candidate, from PEER only (R352). -/
def execShadowCopy (port : BitVec 5) (m : Msg) (s : State) : Res :=
  fabricDo (peerArrives port.toNat 0x14 m fun m s =>
    let r := s.gaf.rushes
    if !(r.candidate && r.state = 5 && r.peer = m.snode.toNat) then s else
    applyEarly (r.early.length + 1) { s with gaf := { s.gaf with rushes := { r with early := r.early ++ [(m.seq.toNat, 0x14, m)] } } }) s

/-- SHADOW_RESULT at the working switch: compared with its own response (R352, R354). -/
def execShadowResult (port : BitVec 5) (m : Msg) (s : State) : Res :=
  fabricDo (peerArrives port.toNat 0x15 m fun m s =>
    let r := s.gaf.rushes
    if r.state != 1 || r.peer != m.snode.toNat then s else
    match r.buffer.find? fun x => x.seq % 65536 = m.seq.toNat with
    | none => s
    | some x =>
      let (_, c) := parseMessage m.data
      rushesPut x.seq (fun x => { x with peer := some (c.status.toNat, c.data, c.mask.toNat) }) s) s

/-- A candidate's response is more than 10 ms late: MISSING, and the session fails (R354). -/
def execShadowResponseLate (seq : BitVec 64) (s : State) : Res :=
  fabricDo (fun s =>
    match (s.gaf.rushes.buffer.find? fun x => x.seq = seq.toNat && x.peer.isNone) with
    | some x =>
      if s.gaf.rushes.state != 1 then s else
      let s := rushesLog x 2 0xFFFF (limitOver (shadowLimit x.seq) s)
      let r := s.gaf.rushes
      rushesEnd 3 { s with gaf := { s.gaf with rushes := { r with missing := satAdd 16 r.missing 1 } } }
    | none => s) s

/-! ### Guy-line time -/

/-- Every 10 ms a LINKING side sends a link message, and so does a SOLO primary that seeks its partner (R340, R346). -/
def execGuyLinkTick (region : BitVec 18) (s : State) : Res :=
  fabricDo (fun s =>
    match find s.kpr.guys region.toNat with
    | some g => if g.state = .linking || (g.state = .solo && !g.secondary) then guyCtl 0 region.toNat s else s
    | none => s) s

/-- An idle primary sends a keep-alive (R343). -/
def execKeepaliveTick (region : BitVec 18) (s : State) : Res :=
  fabricDo (fun s =>
    match find s.kpr.guys region.toNat with
    | some g => if !g.secondary && (g.mirrors || g.state = .solo) then guyCtl 1 region.toNat s else s
    | none => s) s

/-- A mirror message stays unacknowledged for MIRROR_TIMEOUT_US: the primary enters SOLO (R343). -/
def execMirrorTimeout (region : BitVec 18) (seq : BitVec 16) (s : State) : Res :=
  fabricDo (fun s =>
    let k := region.toNat
    match find s.kpr.guys k with
    | some g =>
      let due := g.commitOut.any (·.1 = seq.toNat) || g.syncOut.any (·.2 = seq.toNat) || s.fab.txns.any (·.stage = .mirror k seq.toNat)
      if due then goSolo k (bump .snpGuyStats 0 32 16 1 (limitOver (mirrorLimit k seq.toNat) s)) else s
    | none => s) s

/-- The secondary has heard nothing for MIRROR_TIMEOUT_US: STALE (R345). -/
def execSecondarySilence (region : BitVec 18) (s : State) : Res :=
  fabricDo (fun s =>
    match find s.kpr.guys region.toNat with
    | some g => if g.secondary && (g.state = .inSync || g.state = .syncing) then setGuy region.toNat .stale 0 (limitOver (silenceLimit region.toNat) s) else s
    | none => s) s

end Sys2Proof.Machine
end

