-- ==== Sys2Proof/Machine/Tiers.lean ====
section
/-! DEFINITION. Placement hints and tile moves (R128 to R134), residency queries (R133), copies and promotions that end (R96, R126), GSB settings, conversion and re-encodes (R153 to R158), and the background work of the memories (R135, R136, R357, R392). -/

namespace Sys2Proof.Machine

/-! ### Placement hints -/

/-- Tiles of a range in a view, each with its place (R129). -/
def rangeTiles (s : State) (r : Region) (v : View) (base size : Nat) : List (Nat × Place) :=
  (granuleSpan r base size).map fun g => (tileOf r v g, placeOf s r (tileOf r v g))

/-- A tier-3 pool register pair of the epoch in force: tent, node, size in tiles; none where it is invalid (Tables 6.16 and 6.17). -/
def t3Pool (s : State) (p : Nat) : Option (Nat × Nat × Nat) :=
  let lo := mapVal s .hbcT3PoolLo p
  if lo.testBit 63 then some (bits lo 56 7, bits lo 36 14, bits (mapVal s .hbcT3PoolHi p) 0 32) else none

/-- Slots of a pool in use, those set aside for hints included. -/
def poolUsed (s : State) (p : Nat) : Nat := (s.pool.used3.filter fun k => k / 2 ^ 32 = p).length

/-- Slots of a pool that hold data (Table 6.17): not those that a hint has only set aside. -/
def poolHolds (s : State) (p : Nat) : Nat :=
  poolUsed s p - s.pool.hints.foldl (fun a h => a + (h.2.moves.filter fun m => match m.target with | .t3 q _ => q = p | _ => false).length) 0

/-- SOURCE may read the range: a range-gate entry of the tent with RD, or a reel read entry (R128). -/
def hintReads (s : State) (t k src base size : Nat) : Bool :=
  (readEntry s k src).isSome ||
    s.fab.gate.any fun e => !e.2.edge && e.2.source = src && e.2.tent = t && e.2.rd && covers e.2.base e.2.size base size

/-- Checks 1 to 4 of R128 that PLACE.HINT and TIER.QUERY share, once a region holds BASE. -/
def rangeCheck (s : State) (k : Nat) (r : Region) (t src base size : Nat) : Option Nat :=
  if r.base + r.size < base + size then some stBadField
  else if r.owner != t then some stNotOwner
  else if !hintReads s t k src base size then some stNotPermitted
  else none

/-- Set target space aside for `n` tiles of a hint (R124, R128): their places in ascending tile order. -/
def setAside (k : Nat) (r : Region) (tier pl n : Nat) (s : State) : Option (List Place × State) :=
  if n = 0 then some ([], s)
  else if tier = 0 then (if stackRoom s r.span r.stackSel n then takeFree0 n s else none).map fun s => (List.replicate n .t0, s)
  else if tier = 3 then
    let size := ((t3Pool s pl).map (·.2.2)).getD 0
    let free := (List.range size).filter fun i => !s.pool.used3.contains (pl * 2 ^ 32 + i)
    if free.length < n then none else
    let ks := free.take n
    some (ks.map fun i => .t3 pl i, { s with pool := { s.pool with used3 := ks.foldl (fun u i => insNat u (pl * 2 ^ 32 + i)) s.pool.used3 } })
  else
    let last := if tier = 1 then r.lastMod1 else r.lastMod2
    (allocLower (tagOf r.slot true) tier ((last.map fun m => (m + 1) % 8).getD (k % 8)) 0 n s).map fun (runs, m, s) =>
      ((List.range n).map fun i => runPlace i runs,
        updRegion k (fun r => if tier = 1 then { r with lastMod1 := some m } else { r with lastMod2 := some m }) s)

/-- Field check of PLACE.HINT (Table 6.2, R445). -/
def fieldsPlaceHint (d : Desc) : Option Nat :=
  let whole := opf d 20 2 1 = 1
  let tier := opf d 20 0 2
  let g := if whole then 64 else tileBytes
  let size := opf d 32 0 64
  if !onlyFields d [(16, 0, 32), (20, 0, 3), (21, 0, 4), (22, 0, 14), (24, 0, 64), (32, 0, 64)]
    || opf d 24 0 64 % g != 0 || size % g != 0 || size = 0 || (whole && 2 ^ 30 < size) || (tier != 3 && opf d 21 0 4 != 0) then some stBadField
  else if tier = 3 && fused 12 then some stFeatureDisabled
  else none

/-- Body of PLACE.HINT (R128, R129, Table 14.6). -/
def bodyPlaceHint (q : QId) (d : Desc) (c : CRef) (s : State) : State :=
  let tier := opf d 20 0 2
  let pl := opf d 21 0 4
  let src := opf d 22 0 14
  let base := opf d 24 0 64
  let size := opf d 32 0 64
  let t := dtent d
  match regionAt s base with
  | none => reject c stNotFound s
  | some (k, r) =>
    if r.base + r.size < base + size then reject c stBadField s
    else if (tier = 3 && (t3Pool s pl).isNone) || !clapOk s (issuer q) (opf d 16 0 32) then reject c stNotFound s
    else match rangeCheck s k r t src base size with
    | some st => reject c st s
    | none =>
      let host := ((t3Pool s pl).map (·.2.1)).getD 0
      if r.coherent || (tier = 3 && ((t3Pool s pl).map Prod.fst != some t || (issuer q = none && tentSealed s t))) then reject c stNotPermitted s
      else if ((tier = 1 || tier = 2) && pdOff s 13 && pdOff s 14)
          || (tier = 3 && (edgePortOf s host).any fun p => pdOff s (pdFabric p)) then reject c stPowerOff s
      else
        let ts := rangeTiles s r (viewFor s k r src) base size
        let mv := ts.filter fun x => x.2.tier != tier
        match firstFree s.pool.hints 0 256, setAside k r tier pl mv.length s with
        | some h, some (ps, s) =>
          let x : Hint := { region := k, tent := t, whole := opf d 20 2 1 = 1, clapper := clapName (opf d 16 0 32), owner := issuer q
                            moves := List.zipWith (fun m p => ⟨m.1, p, false⟩) mv ps
                            seq := s.pool.hints.foldl (fun a e => max a (e.2.seq + 1)) 0 }
          let s := complete c stSuccess 0 (place (ts.length - mv.length) 32 32 ||| mv.length) { s with pool := { s.pool with hints := put s.pool.hints h x } }
          endHint h s
        | _, _ => reject c stNoResource s

/-- PLACE.HINT (R128). -/
def execPlaceHint (q : QId) (d : Desc) (s : State) : Res :=
  .next (runI q d { any := true, sealedOk := true } fieldsPlaceHint (bodyPlaceHint q d) s)

/-! ### Moves -/

/-- An earlier hint still moves this tile (Table 6.6). -/
def movedEarlier (s : State) (seq tile : Nat) : Bool := s.pool.hints.any fun h => h.2.seq < seq && h.2.moves.any (·.tile = tile)

/-- A write of the region waits for a hint's copy of this tile (Table 6.6). -/
def writeWaits (s : State) (k g : Nat) : Bool := s.fab.txns.any fun x => x.stage = .copy k g

/-- A hint's move switches over (R130); a write that waits for the tile needs it in tier 0 for itself (R126). -/
def moveOver (h : Hint) (m : TileMove) (s : State) : State := switchTile h.region h.tent m (writeWaits s h.region (m.tile % 2 ^ 24)) s

/-- May a tile's move switch over now: no earlier move of it runs (Table 6.6), no near-bank run binds it (R290), and a conversion has passed it (R154)? -/
def mayMove (s : State) (h : Hint) (m : TileMove) : Bool :=
  !movedEarlier s h.seq m.tile && !runBinds s m.tile && (match (region s h.region).bind (·.conv) with
    | some (_, done, _) => done.contains (m.tile % 2 ^ 24)
    | none => true)

/-- TILE_SWITCH_OVER (R130). -/
def execTileSwitchOver (hint : BitVec 8) (tile : Nat) (s : State) : Res :=
  fabricDo (fun s =>
    match find s.pool.hints hint.toNat with
    | none => s
    | some h =>
      match h.moves.find? (·.tile = tile) with
      | none => s
      | some m =>
        if h.whole || !mayMove s h m then s else
        let s := moveOver h m s
        let s := { s with pool := { s.pool with hints := upd s.pool.hints hint.toNat fun x => { x with moves := x.moves.filter (·.tile != tile) } } }
        wakeCopies (endHint hint.toNat s)) s

/-- WHOLE_TENSOR_SWITCH_OVER (R131): the whole group in one cycle. -/
def execWholeTensorSwitchOver (hint : BitVec 8) (s : State) : Res :=
  fabricDo (fun s =>
    match find s.pool.hints hint.toNat with
    | none => s
    | some h =>
      if !h.whole || !h.moves.all (mayMove s h) then s else
      let s := h.moves.foldl (fun s m => moveOver h m s) s
      let s := { s with pool := { s.pool with hints := upd s.pool.hints hint.toNat fun x => { x with moves := [] } } }
      wakeCopies (endHint hint.toNat s)) s

/-! ### Residency -/

/-- Field check of TIER.QUERY (Table 6.4). -/
def fieldsTierQuery (d : Desc) : Option Nat :=
  let size := opf d 32 0 64
  if !onlyFields d [(22, 0, 14), (24, 0, 64), (32, 0, 64), (40, 0, 64)] || opf d 24 0 64 % tileBytes != 0
    || size % tileBytes != 0 || size = 0 || opf d 40 0 64 % 64 != 0 then some stBadField else none

/-- The 64-byte summary of Table 6.5. -/
def tierSummary (ps : List Place) : List Byte :=
  ((List.range 4).map fun t => leBytes 8 (ps.filter (·.tier = t)).length).flatten
    ++ ((List.range 8).map fun m => leBytes 4 (ps.filter fun p => p = .t1 m || p = .t2 m).length).flatten

/-- Body of TIER.QUERY (R133). -/
def bodyTierQuery (d : Desc) (c : CRef) (s : State) : State :=
  let src := opf d 22 0 14
  let base := opf d 24 0 64
  let size := opf d 32 0 64
  let t := dtent d
  match regionAt s base with
  | none => reject c stNotFound s
  | some (k, r) =>
    match rangeCheck s k r t src base size with
    | some st => reject c st s
    | none =>
      let ts := rangeTiles s r (viewFor s k r src) base size
      let transit := ts.filter fun x => s.pool.hints.any fun h => h.2.moves.any (·.tile = x.1)
      let (ok, s) := engWriteS src t (opf d 40 0 64) (tierSummary (ts.map Prod.snd)) s
      if ok then complete c stSuccess 0 (place transit.length 32 32 ||| (ts.filter fun x => x.2.tier != 0).length) s
      else reject c stNotPermitted s

/-- TIER.QUERY (R133). -/
def execTierQuery (q : QId) (d : Desc) (s : State) : Res :=
  .next (runI q d { any := true, sealedOk := true } fieldsTierQuery (bodyTierQuery d) s)

/-! ### Copies that end -/

/-- The tile that a copy took at its start goes back to where it came from, to be cleared, since the copy has begun (R88, R328), and its header chunk is free again. -/
def untakeTile (k : Nat) (s : State) : State :=
  trimHeads k (match (region s k).bind (·.writer) with
    | some w => if w.left < w.reserve then updWriter k (fun w => { w with left := w.left + 1, soiled := w.soiled + 1 }) s else giveDirty0 1 s
    | none => giveDirty0 1 s)

/-- The copy of a granule ends (R96, R98, R126): the head has its own tier-0 tile, and the writes that waited go on. DESIGN CHOICE (log entry 49): the spec does not say what becomes of a copy whose writer closes and another opens before it ends; it goes into the head that is open then. -/
def endCopy (k g : Nat) (s : State) : State :=
  let s := match region s k with
    | some r => if r.writer.isSome && tileUp s r (r.base + g * tileBytes) (placeOf s r (tileOf r (headView r) g)) then (ownGranule k g s).getD s else s
    | none => s
  if s.pool.copies.contains (k, g) then
    wakeCopies (untakeTile k { s with pool := { s.pool with copies := s.pool.copies.filter (· != (k, g)) } })
  else s

/-- Does a copy run for the granule, and is the head's tile shared? -/
def copyShared (s : State) (k g : Nat) : Option Bool :=
  if s.pool.copies.contains (k, g) then some ((region s k).any fun r => headShared r g) else none

/-- COPY_COMPLETE (R98). -/
def execCopyComplete (region : BitVec 18) (granule : BitVec 24) (s : State) : Res :=
  fabricDo (fun s => if copyShared s region.toNat granule.toNat = some true then endCopy region.toNat granule.toNat s else s) s

/-- PROMOTION_COMPLETE (R126). -/
def execPromotionComplete (region : BitVec 18) (granule : BitVec 24) (s : State) : Res :=
  fabricDo (fun s => if copyShared s region.toNat granule.toNat = some false then endCopy region.toNat granule.toNat s else s) s

/-! ### GSB settings and conversion -/

/-- The setting that CMP.SET_REGION asks for (Table 7.4). -/
def cmpSetting (d : Desc) : Option GsbSet := if opf d 20 7 1 = 1 then some ⟨opf d 20 0 2, opf d 20 2 2⟩ else none

/-- Field check of CMP.SET_REGION (Table 7.4, R153, R445). -/
def stageCmpSetRegion (d : Desc) : Option Nat :=
  let on := opf d 20 7 1 = 1
  let z := opf d 20 0 2
  let e := opf d 20 2 2
  if !onlyFields d [(16, 0, 18), (20, 7, 1), (20, 0, 4), (24, 0, 32)] || z = 3 || e = 3 || (!on && (z != 0 || e != 0)) then some stBadField
  else if on && fused 1 then some stFeatureDisabled
  else none

/-- CMP.SET_REGION applied (R153, R154). DESIGN CHOICE (log entry 52): R153 does not place a setting equal to the present one among the checks; it succeeds after REGION_BUSY and before NO_RESOURCE and POWER_OFF. -/
def applyCmpSetRegion (q : QId) (d : Desc) (s : State) : ApplyRes :=
  let k := opf d 16 0 18
  let new := cmpSetting d
  match region s k with
  | none => bad stNotFound
  | some r =>
    if fresh s (!clapOk s (issuer q) (opf d 24 0 32)) then bad stNotFound
    else if r.owner != dtent d then bad stNotOwner
    else if r.coherent || has s.kpr.guys k then bad stNotPermitted
    else if fresh s ((s.pool.handles.any fun h => h.2.region = k) || r.waiting.isSome || 1 < liveCount r) || r.conv.isSome then bad stRegionBusy
    else if r.gsb = new then good s
    else
      let n := granules r
      let head := match new with | some g => headerTiles g n | none => 0
      if fresh s ((List.range n).any fun g => placeOf s r (tileOf r (currentView r) g) != .t0) then bad stNoResource
      else if 16 ≤ (s.pool.regions.filter fun e => e.2.conv.isSome).length then bad stNoResource
      else match takeFree0 head s with
      | none => bad stNoResource
      | some s =>
        if fresh s (pdOff s 24) then bad stPowerOff else
        .ok (updRegion k (fun r => { r with gsb := new, heads := head, conv := some (r.gsb, [], clapName (opf d 24 0 32)) }) s, n)

/-- A tile is rewritten into its region's new form: read in the form it holds, decoded, encoded, and written, in the owner's migration class (R154, R132, Tables 7.9 and 7.10). -/
def rewriteTile (k g tile : Nat) (s : State) : State :=
  match region s k with
  | none => s
  | some r =>
    let s := dropBuffers (·.1 = tile) (movePass r .t0 r.owner tile (decodeBlocks r tile 0 tileBytes s))
    let s := updRegion k (fun r => { r with conv := r.conv.map fun c => (c.1, insNat c.2.1 g, c.2.2) }) s
    match region s k with
    | some r => dropBuffers (·.1 = tile) (movePass r .t0 r.owner tile (encodeBlocks r tile 0 tileBytes s))
    | none => s

/-- The conversion of a region is over: header chunks of the form left behind return, and the clapper is advanced (R154). -/
def endConversion (k : Nat) (old : Option GsbSet) (n : Nat) (clap : Option Nat) (s : State) : State :=
  let s := updRegion k (fun r => { r with conv := none }) s
  let s := match old with | some g => giveFree0 (headerTiles g n) s | none => s
  clapOpt clap 1 s

/-- CONVERSION_SWITCH_OVER (R154): the next tile is in its new form. -/
def execConversionSwitchOver (region : BitVec 18) (granule : BitVec 24) (s : State) : Res :=
  .next (
    let k := region.toNat
    let g := granule.toNat
    match Machine.region s k with
    | none => s
    | some r =>
      match r.conv with
      | none => s
      | some (old, done, clap) =>
        if granules r ≤ g || done.contains g || !pdOn s 24 then s else
        let s := rewriteTile k g (tileOf r (currentView r) g) s
        if done.length + 1 = granules r then endConversion k old (granules r) clap s else s)

/-! ### Re-encodes -/

/-- REENCODE_START (R157): the stores that wait for the block, at most 128, are merged. -/
def execReencodeStart (tile : Nat) (block : BitVec 5) (s : State) : Res :=
  .next (
    let b := block.toNat
    if s.fab.txns.any fun x => x.stage = .encoding tile b then s else
    ((s.fab.txns.filter fun x => x.stage = .reencode tile b).take 128).foldl (fun s x => stageTxn x.id (.encoding tile b) s) s)

/-- A merged store takes effect in its block, or starts again where its granule was shared or moved meanwhile (R96, R126). A store over several blocks goes on to the next, and completes with the last (R157). -/
def mergeStore (z : GsbSet) (tile b : Nat) (x : Txn) (s : State) : State :=
  match regionAt (underMap s x) (offOf x.addr) with
  | none => endTxn x wRefused [] 0 s
  | some (k, r) =>
    let g := granuleOf r (offOf x.addr)
    if (writeRefused (underMap s x) k r x.source).isSome || needsCopy s k r g || writeTile r g != tile then stageTxn x.id .ready s else
    let n := gsbBytes z.size
    let mine := (storeLines x).filter fun l => l.1 * 64 % tileBytes / n = b
    let s := mine.foldl (fun s l => applyLines k 1 l.2.1 (l.1 * 64) l.2.2.1 (bitOf l.2.2.2) s) s
    if (b + 1) * n < offOf x.addr % tileBytes + x.len then stageTxn x.id (.reencode tile (b + 1)) s else endTxn x wOk [] 0 s

/-- REENCODE_COMPLETE (R156, R157): the block is decoded, the merged stores take effect in order, and it is encoded again with its new payload and header; the stores complete. -/
def execReencodeComplete (tile : Nat) (block : BitVec 5) (s : State) : Res :=
  fabricDo (fun s =>
    let b := block.toNat
    match s.fab.txns.filter fun x => x.stage = .encoding tile b with
    | [] => s
    | x :: xs =>
      match (regionAt (underMap s x) (offOf x.addr)).bind fun e => (tileSetting e.2 tile).map fun z => (e.2, z) with
      | none => (x :: xs).foldl (fun s x => stageTxn x.id .ready s) s
      | some (r, z) =>
        let n := gsbBytes z.size
        let s := (x :: xs).foldl (fun s x => mergeStore z tile b x s) (decodeBlocks r tile (b * n) n s)
        encodeBlocks r tile (b * n) n s) s

/-! ### Background work -/

/-- HBM_REFRESH (R135): a refresh changes nothing that software can see. -/
def execHbmRefresh (_channel : BitVec 7) (s : State) : Res := .next s

/-- TELEMETRY_SAMPLE (R135): the sample stays on the internal bus and changes nothing that software can see. -/
def execTelemetrySample (_addr : BitVec 24) (s : State) : Res := .next s

/-- Scrub granules of a channel (R136). -/
def scrubGranules : Nat := 8388608

/-- Channels that scrub: those of the stacks that are on. -/
def scrubChannels (s : State) : List Nat := (List.range 128).filter fun c => pdOn s (pdStack (c / 32))

/-- Granules that every channel has read since reset (R136). -/
def scrubbed (s : State) : Nat :=
  match scrubChannels s with
  | [] => 0
  | c :: cs => cs.foldl (fun a c => min a ((find s.pool.scrub c).getD 0)) ((find s.pool.scrub c).getD 0)

/-- A channel's count of granules moves on; a pass is over once every channel has read its last granule (R136, Table 6.13). -/
def scrubAdvance (ch : Nat) (s : State) : State :=
  let s := { s with pool := { s.pool with scrub := put s.pool.scrub ch ((find s.pool.scrub ch).getD 0 + 1) } }
  if scrubbed s < (s.pool.passes + 1) * scrubGranules then s else
  let (now, s) := clock s
  { s with pool := { s.pool with passes := s.pool.passes + 1, lastPass := (now - s.pool.passStart) / 1000000000, passStart := now } }

/-- The 256 bytes that a scrub read met: a free choice among the tier-0 granules of the channel in any live view of a region, or space that no region holds. Answers the region, the tile and the pooled-memory offset. -/
def scrubWhere (ch : Nat) (s : State) : Option (Region × Nat × Nat) × State :=
  let (n, s) := drawNat s
  match s.pool.regions[n % (s.pool.regions.length + 1)]? with
  | none => (none, s)
  | some (_, r) =>
    let (n, s) := drawNat s
    let off := r.base + 256 * (n % (r.size / 256))
    let (n, s) := drawNat s
    let tile := tileOf r ((liveViews r).getD (n % (liveViews r).length) []) (granuleOf r off)
    if 32 * stackOf r off + bits (channelHash off r.seed) 0 5 = ch && placeOf s r tile = .t0 then (some (r, tile, off), s) else (none, s)

/-- Lines that a scrub read poisons in the granule it met, which is logged (R136, Tables 3.14 and 15.9). In a compressed tile the block is found damaged; by which check is free (R158). -/
def scrubPoison (ch lines : Nat) (s : State) : State :=
  let (w, s) := scrubWhere ch s
  let pos := (find s.pool.scrub ch).getD 0 % scrubGranules
  let s := ras 0x04 2 none (selfNode s) ch pos (bump .hbcEccStatus (ch / 32) 16 16 1 s)
  match w with
  | none => s
  | some (r, t, off) =>
    match tileSetting r t with
    | some z =>
      let (w, s) := drawNat s
      damageBlock r z t ((off - r.base) % tileBytes / gsbBytes z.size) (w % 2 = 1) s
    | none => (setBits 4 lines).foldl (fun s i => setPoison t (bits (off - r.base) 6 10 + i) true s) s

/-- SCRUB_READ (R136). -/
def execScrubRead (channel : BitVec 7) (corrected : Bool) (lines : BitVec 4) (s : State) : Res :=
  .next (
    let ch := channel.toNat
    if !pdOn s (pdStack (ch / 32)) then s else
    let s := if corrected then bump .hbcEccStatus (ch / 32) 32 32 1 { s with pool := { s.pool with ce := put s.pool.ce ch ((find s.pool.ce ch).getD 0 + 1) } } else s
    let s := if lines = 0 then s else scrubPoison ch lines.toNat s
    scrubAdvance ch s)

/-- CE_ALERT_INTERVAL (R357): the channel's count of the interval is compared with CE_ALERT, and a new interval begins. -/
def execCeAlertInterval (channel : BitVec 7) (s : State) : Res :=
  .next (
    let ch := channel.toNat
    let n := (find s.pool.ce ch).getD 0
    let s := { s with pool := { s.pool with ce := del s.pool.ce ch, ceLast := if n = 0 then del s.pool.ceLast ch else put s.pool.ceLast ch n } }
    if fld s .hbcEccCtl 0 0 16 < n then ras 0x02 1 none (selfNode s) ch 0 s else s)

/-! ### The clear engine -/

/-- A tile of a store has been cleared: tents in CLEARING wait for theirs, and a tent whose last one this was is ABSENT (R318, Table 14.2). -/
def clearTick (store : Nat) (s : State) : State :=
  let tick (l : List (Nat × Nat)) : List (Nat × Nat) :=
    match find l store with
    | none => l
    | some n => if n ≤ 1 then del l store else put l store (n - 1)
  let ts := s.kpr.tents.map fun e => (e.1, if e.2.state = .clearing then { e.2 with clearing := tick e.2.clearing } else e.2)
  endTents { s with kpr := { s.kpr with tents := ts } }

/-- A cleared tile of MEM.CLEAR; with the last one the clapper is advanced (R329). -/
def clearRegionTile (s : State) : State :=
  match s.pool.clears with
  | [] => s
  | (k, n, clap) :: rest =>
    if 1 < n then { s with pool := { s.pool with clears := (k, n - 1, clap) :: rest } }
    else clapOpt clap 1 { s with pool := { s.pool with clears := rest } }

/-- CLEAR_ENGINE_TILE (R392, R328): store 0 is tier 0, whose reserved area goes first, 1 to 8 are the modules' tier 1, and 9 is a region under MEM.CLEAR. Clearing pauses while PD 24 is off or its block resets (Table 17.7). -/
def execClearEngineTile (store : BitVec 4) (s : State) : Res :=
  .next (
    let n := store.toNat
    if s.gaf.stage < 3 || !pdOn s 24 || resetting s 0x51 then s
    else if n = 0 then
      if !s.pool.reservedClear then { s with pool := { s.pool with reservedClear := true } }
      else if s.pool.dirty0 = 0 then s
      else clearTick 0 { s with pool := { s.pool with dirty0 := s.pool.dirty0 - 1, free0 := s.pool.free0 + 1 } }
    else if n ≤ 8 then
      if !trayUp s (n - 1) || (tray s (n - 1)).dirty1 = 0 then s
      else clearTick n (updTray (n - 1) (fun t => { t with dirty1 := t.dirty1 - 1, free1 := t.free1 + 1 }) (gateTags (n - 1) 0 1 s))
    else if n = 9 then clearRegionTile s
    else s)

/-- MEM.CLEAR (R329). -/
def execMemClear (q : QId) (d : Desc) (s : State) : Res := .next (runI q d { any := false } fieldsMemClear (bodyMemClear d) s)

end Sys2Proof.Machine
end

