-- ==== Sys2Proof/Machine/GafCmds.lean ====
section
/-! DEFINITION. Commands that the gaffer serves from its own state: STATUS, IDENTIFY, FEATURE.QUERY, LOG.READ (Table 2.10), clappers and waits (R53, R54, R454), reels (chapter 4), consent (R333), doorbells and hardware queue counters (R33, R36, R309). -/

namespace Sys2Proof.Machine

/-- BAD_OPCODE: a descriptor whose opcode is not in the command set completes and has no effect (R31). A listed opcode is no such event: its command has a row of its own, and this one changes nothing (log entry 21). -/
def execBadOpcode (opcode : BitVec 16) (q : QId) (d : Desc) (s : State) : Res :=
  .next (
    if listedOpcode opcode || !canFetch s q d.fence then s else
    if ringWaits q s then asked s (fetchOk q s).2 else
    let (ok, s) := fetchOk q s
    if !ok then queueError q s else
    let s := fetchAdvance q s
    let c := crefOf q d s
    match haltCheck s { any := true } with
    | some st => reject c st s
    | none => reject c stBadOpcode s)

/-- STATUS: boot stage, tamper lock, epoch (Table 2.10). -/
def execStatus (q : QId) (d : Desc) (s : State) : Res :=
  .next (runI q d { any := true, inLock := true, inHalt := true, sealedOk := true } fieldsNone
    (fun c s => complete c stSuccess 0 (place s.gaf.stage 0 4 ||| place (bitOf s.kpr.lockdown) 4 1 ||| place s.gaf.epoch.toNat 32 32) s) s)

/-- The identity page, exactly 4 KiB (Table 2.10). -/
def identityPage : List Byte := (Config.identityPage ++ List.replicate 4096 0).take 4096

/-- Field check of IDENTIFY: one address, in the operator window for the operator queue (Table 2.10, R384). -/
def fieldsIdentify (q : QId) (d : Desc) : Option Nat :=
  if !onlyFields d [(16, 0, 64)] then some stBadField
  else match q with
    | .operator => if inWindow (opf d 16 0 64) 4096 then none else some stBadField
    | .tent _ _ => none

/-- Body of IDENTIFY: the operator's page goes to the window, a tent's to pooled memory that it owns and its queue's source may write. -/
def bodyIdentify (q : QId) (d : Desc) (c : CRef) (s : State) : State :=
  let a := opf d 16 0 64
  match q with
  | .operator => complete c stSuccess 0 0 (windowWrite a identityPage s)
  | .tent t _ =>
    if !ringOwned s t.toNat a 4096 then reject c stNotOwner s else
    let (ok, s) := engWriteS (((getQ s q).map (·.source)).getD 0) t.toNat a identityPage s
    if ok then complete c stSuccess 0 0 s else reject c stNotOwner s

/-- IDENTIFY (Table 2.10). -/
def execIdentify (q : QId) (d : Desc) (s : State) : Res := .next (runI q d { any := true } (fieldsIdentify q) (bodyIdentify q d) s)

/-- FEATURE.QUERY (R445). -/
def execFeatureQuery (q : QId) (d : Desc) (s : State) : Res :=
  .next (runI q d { any := true, sealedOk := true } fieldsNone (fun c s => complete c stSuccess 0 Config.fuseFeatures.toNat s) s)

/-! ### LOG.READ -/

/-- The 32 bytes of a RAS log entry (Table 15.9). -/
def rasBytes (e : RasEntry) : List Byte :=
  leBytes 8 e.seq ++ leBytes 8 e.time ++ leBytes 1 e.code ++ leBytes 1 (e.severity % 4)
    ++ leBytes 1 (match e.tent with | some t => 128 + t | none => 0) ++ [0] ++ leBytes 2 e.node ++ leBytes 2 e.detail ++ leBytes 8 e.offset

/-- The 32 bytes of a rushes-log entry (R359). -/
def rushBytes (e : RushLog) : List Byte :=
  leBytes 8 e.seq ++ leBytes 2 e.source ++ leBytes 1 e.tent ++ leBytes 1 e.kind ++ leBytes 2 e.byte ++ [0, 0] ++ leBytes 8 e.offset ++ List.replicate 8 0

/-- Field check of LOG.READ (Table 15.11, R384). -/
def fieldsLogRead (d : Desc) : Option Nat :=
  let n := opf d 20 0 32
  let a := opf d 24 0 64
  if !onlyFields d [(16, 0, 8), (20, 0, 32), (24, 0, 64), (32, 0, 64)] || n = 0 || 4096 < n || a % 64 != 0 || !inWindow a (32 * n) then some stBadField else none

/-- Body of LOG.READ (R359): entries of ascending sequence from FIRST_SEQ on. -/
def bodyLogRead (d : Desc) (c : CRef) (s : State) : State :=
  let log := opf d 16 0 8
  let first := opf d 32 0 64
  let all : List (Nat × List Byte) :=
    if log = 0 then s.kpr.ras.map fun e => (e.seq, rasBytes e) else s.gaf.rushLog.map fun e => (e.seq, rushBytes e)
  if 1 < log then reject c stNotFound s else
  let xs := (all.filter fun e => first ≤ e.1).take (opf d 20 0 32)
  let next := match xs.getLast? with | some e => e.1 + 1 | none => first
  complete c stSuccess 0 (place next 32 32 ||| xs.length) (windowWrite (opf d 24 0 64) (xs.map Prod.snd).flatten s)

/-- LOG.READ (R359). -/
def execLogRead (q : QId) (d : Desc) (s : State) : Res := .next (runI q d { any := false, inHalt := true } fieldsLogRead (bodyLogRead d) s)

/-! ### Clappers -/

/-- May the queue act on a clapper (R454)? A status, or none. -/
def clapAct (s : State) (q : QId) (d : Desc) (n : Nat) : Option Nat :=
  match clapper s n with
  | none => some stNotFound
  | some c => match q, c.owner with
    | .operator, none => none
    | .operator, some t => if t != dtent d then some stNotFound else if tentSealed s t then some stNotPermitted else none
    | .tent t _, o => if o = some t.toNat then none else some stNotFound

/-- Run a clapper command on a clapper that the queue may act on. -/
def onClap (q : QId) (d : Desc) (f : Nat → CRef → State → State) (c : CRef) (s : State) : State :=
  let n := opf d 16 0 17
  match clapAct s q d n with
  | some st => reject c st s
  | none => f n c s

/-- The rule of the clapper commands: R454 judges the clapper itself. -/
def clapRule : Rule := { any := true, sealedOk := true }

/-- Field check of CLAP.ALLOC (Table 2.20, R454). -/
def fieldsClapAlloc (q : QId) (d : Desc) : Option Nat :=
  if !onlyFields d [(24, 0, 64)] || (q = .operator && d.tent != 0) then some stBadField else none

/-- Body of CLAP.ALLOC (R454). -/
def bodyClapAlloc (q : QId) (d : Desc) (c : CRef) (s : State) : State :=
  if 131072 ≤ s.gaf.clappers.length then reject c stNoResource s else
  match drawFree (fun n => !has s.gaf.clappers n) 0 131072 s with
  | none => reject c stNoResource s
  | some (n, s) => complete c stSuccess 0 n { s with gaf := { s.gaf with clappers := put s.gaf.clappers n ⟨issuer q, BitVec.ofNat 64 (opf d 24 0 64), false⟩ } }

/-- CLAP.ALLOC (R454). -/
def execClapAlloc (q : QId) (d : Desc) (s : State) : Res := .next (runI q d clapRule (fieldsClapAlloc q) (bodyClapAlloc q d) s)

/-- The word of the text at a cell's pc. -/
def wordAt (s : State) (n : Nat) : Nat := leNat (readBytes (crewOf s (n / 32)).mem ((cellOf s n).pc.toNat - crewBase) 4)

/-- A clapper ceases to exist: its waits complete with ABORTED (R54), and cells that wait for it raise CLAPPER (R177). -/
def freeClap (n : Nat) (s : State) : State :=
  let s := abortWaits (fun slot w => w.clapper = n && !has s.gaf.fired slot) s
  let s := { s with gaf := { s.gaf with clappers := del s.gaf.clappers n
                                        oldMap := s.gaf.oldMap.map fun (o : OldMap) => if o.drain = some n then { o with drain := none } else o } }
  (s.crw.cells.filter fun e => match e.2.state, e.2.wait with
    | .waiting, some (.clap _ m _) => m = n
    | _, _ => false).foldl (fun s e => raiseCell e.1 cClapper (wordAt s e.1) 0 n s) s

/-- CLAP.FREE (R54). -/
def execClapFree (q : QId) (d : Desc) (s : State) : Res :=
  .next (runI q d clapRule (fun d => if onlyFields d [(16, 0, 17)] then none else some stBadField)
    (onClap q d fun n c s => complete c stSuccess 0 0 (freeClap n s)) s)

/-- Fields of CLAP.SET and CLAP.ADD. -/
def fieldsClapVal (d : Desc) : Option Nat := if onlyFields d [(16, 0, 17), (24, 0, 64)] then none else some stBadField

/-- The counter of a clapper. -/
def counter (s : State) (n : Nat) : Nat := ((clapper s n).map (·.ctr.toNat)).getD 0

/-- CLAP.SET (R53): RESULT is the value after. -/
def execClapSet (q : QId) (d : Desc) (s : State) : Res :=
  .next (runI q d clapRule fieldsClapVal (onClap q d fun n c s =>
    let s := clapSet n (BitVec.ofNat 64 (opf d 24 0 64)) s
    complete c stSuccess 0 (counter s n) s) s)

/-- CLAP.ADD (R53): RESULT is the value after. -/
def execClapAdd (q : QId) (d : Desc) (s : State) : Res :=
  .next (runI q d clapRule fieldsClapVal (onClap q d fun n c s =>
    let s := clapAdd n (opf d 24 0 64) s
    complete c stSuccess 0 (counter s n) s) s)

/-- CLAP.READ: the counter, and the overflow flag in DETAIL [0] (Table 2.20). -/
def execClapRead (q : QId) (d : Desc) (s : State) : Res :=
  .next (runI q d clapRule (fun d => if onlyFields d [(16, 0, 17)] then none else some stBadField)
    (onClap q d fun n c s => complete c stSuccess (bitOf (((clapper s n).map (·.ovf)).getD false)) (counter s n) s) s)

/-- Body of CLAP.WAIT (R54). -/
def clapWait (d : Desc) (n : Nat) (c : CRef) (s : State) : State :=
  let thr : U64 := BitVec.ofNat 64 (opf d 24 0 64)
  let us := opf d 20 0 32
  if thr.toNat ≤ counter s n then complete c stSuccess 0 (counter s n) s
  else match firstFree s.gaf.waits 0 262144 with
  | none => reject c stNoResource s
  | some k =>
    let (now, s) := clock s
    { s with gaf := { s.gaf with waits := put s.gaf.waits k ⟨n, thr, if us = 0 then none else some (now + us * 1000), c⟩ } }

/-- CLAP.WAIT (R54). -/
def execClapWait (q : QId) (d : Desc) (s : State) : Res :=
  .next (runI q d clapRule (fun d => if onlyFields d [(16, 0, 17), (20, 0, 32), (24, 0, 64)] then none else some stBadField)
    (onClap q d (clapWait d)) s)

/-- An armed wait ends. -/
def dropWait (k : Nat) (s : State) : State := { s with gaf := { s.gaf with waits := del s.gaf.waits k, fired := del s.gaf.fired k } }

/-- CLAP_WAIT_FIRED: the wait's completion is posted with the value that met it (R54). -/
def execClapWaitFired (slot : BitVec 18) (s : State) : Res :=
  .next (match find s.gaf.waits slot.toNat, find s.gaf.fired slot.toNat with
    | some w, some v => complete w.who stSuccess 0 v.toNat (dropWait slot.toNat s)
    | _, _ => s)

/-- CLAP_WAIT_TIMEOUT (R54). -/
def execClapWaitTimeout (slot : BitVec 18) (s : State) : Res :=
  .next (match find s.gaf.waits slot.toNat with
    | none => s
    | some w => match w.deadline with
      | none => s
      | some t => if has s.gaf.fired slot.toNat then s else complete w.who stTimeout 0 (counter s w.clapper) (clockTo t (dropWait slot.toNat s)))

/-! ### Reels -/

/-- REEL.OPEN (R90, R92). -/
def execReelOpen (q : QId) (d : Desc) (s : State) : Res := .next (runI q d { any := true } fieldsReelOpen (bodyReelOpen d) s)

/-- Field check of REEL.COMMIT (Table 4.5). -/
def fieldsReelCommit (d : Desc) : Option Nat := if onlyFields d [(16, 0, 16), (18, 0, 1)] then none else some stBadField

/-- REEL.COMMIT (R93, R94). -/
def execReelCommit (q : QId) (d : Desc) (s : State) : Res :=
  fabricDo (runI q d { any := true } fieldsReelCommit (bodyReelCommit guyCommit q d)) s

/-- REEL.CLOSE (R95). -/
def execReelClose (q : QId) (d : Desc) (s : State) : Res :=
  fabricDo (runI q d { any := true, sealedOk := true } (fun d => if onlyFields d [(16, 0, 16)] then none else some stBadField) (bodyReelClose d)) s

/-- REEL_OPEN_WAIT_END (R92). -/
def execReelOpenWaitEnd (region : BitVec 18) (s : State) : Res := .next (endOpenWait region.toNat s)
/-- REEL_OPEN_TIMEOUT (R92). -/
def execReelOpenTimeout (region : BitVec 18) (s : State) : Res := .next (timeoutOpenWait region.toNat s)
/-- REEL_COMMIT_WAIT_END (R94). -/
def execReelCommitWaitEnd (region : BitVec 18) (s : State) : Res := fabricDo (endCommitWait guyCommit region.toNat) s
/-- REEL_COMMIT_TIMEOUT (R94). -/
def execReelCommitTimeout (region : BitVec 18) (s : State) : Res := .next (timeoutCommitWait region.toNat s)

/-! ### Consent -/

/-- DEBUG.CONSENT (R333). -/
def execDebugConsent (q : QId) (d : Desc) (s : State) : Res := .next (runI q d { any := true, sealedOk := true } (fieldsConsent q) (bodyConsent q d) s)

/-- DEBUG.REVOKE (R333). -/
def execDebugRevoke (q : QId) (d : Desc) (s : State) : Res := .next (runI q d { any := true, sealedOk := true } fieldsNone (bodyRevoke d) s)

/-- CONSENT_EXPIRY (R333). -/
def execConsentExpiry (tent : BitVec 7) (s : State) : Res :=
  .next (match (Machine.tent s tent.toNat).bind (·.consent) with
    | some (t, _, _) => bump .kprConsentStats 0 0 16 1 (clockTo t (updTent tent.toNat (fun x => { x with consent := none }) s))
    | none => s)

/-! ### Doorbells and hardware queues -/

/-- A queue whose words a write reaches: the operator's registers, or a tent queue that exists. -/
def doorReach (s : State) (q : QId) (v : BitVec 64) : Bool :=
  match q with
  | .operator => true
  | .tent _ _ => (getQ s q).isSome && v.toNat < 65536

/-- CMDQ_DOORBELL (R33). -/
def execCmdqDoorbell (q : QId) (v : BitVec 64) (s : State) : Res := .next (if doorReach s q v then doorbell q (v.toNat % 65536) s else s)

/-- CQ_HEAD_WRITE (R36). -/
def execCqHeadWrite (q : QId) (v : BitVec 64) (s : State) : Res := .next (if doorReach s q v then Machine.cqHeadWrite q (v.toNat % 65536) s else s)

/-- CMDQ_ENABLE (R451). -/
def execCmdqEnable (q : QId) (s : State) : Res := .next (enableQueue q s)

/-- CMDQ_DISABLE (R33). -/
def execCmdqDisable (q : QId) (s : State) : Res := .next (disableQueue q s)

/-- QUEUE_TAIL_WRITE (R309). -/
def execQueueTailWrite (queue : BitVec 20) (v : BitVec 32) (s : State) : Res := .next (hwTail queue.toNat v s).2

/-- QUEUE_HEAD_WRITE (R309). -/
def execQueueHeadWrite (queue : BitVec 20) (v : BitVec 32) (s : State) : Res := .next (hwHead queue.toNat v s).2

/-- QUEUE_HEAD_RESET (R309). -/
def execQueueHeadReset (queue : BitVec 20) (v : BitVec 32) (s : State) : Res := .next (hwReset queue.toNat v s).2

end Sys2Proof.Machine
end

