-- ==== Sys2Proof/Machine/Coll.lean ====
section
/-! DEFINITION. COLL.OPEN, COLL.CLOSE and COLL.REPORT (R218 to R224, R237, R238), the fp64 tree (R234), the filter scan (R239 to R241), round timeouts and power loss of a window (Table 10.8). -/

namespace Sys2Proof.Machine

/-! ### The parameter block -/

/-- Little-endian field of a byte string. -/
def fieldAt (bs : List Byte) (o n : Nat) : Nat := leNat ((bs.drop o).take n)

/-- The pairs of OP, IN_FMT and OUT_FMT that Table 10.5 allows (R221). -/
def pairOk (op i o : Nat) : Bool :=
  if op = 3 then (i = 6 && o = 6) || (i = 7 && o = 7)
  else if op = 0 then
    if i = 5 then o = 5 else (i ≤ 4 || i = 8) && (o ≤ 5 || o = 8)
  else i ≤ 4 && o ≤ 5

/-- Size of a field type (Table 10.14). -/
def typeSize (t : Nat) : Nat := if t < 8 then 2 ^ (t % 4) else if t < 10 then 2 else if t = 10 then 4 else 8

/-- The filter steps of a program (Table 10.13). -/
def stepAt (bs : List Byte) (i : Nat) : FStep :=
  let b := bs.drop (32 * i)
  ⟨fieldAt b 0 1 % 8, fieldAt b 1 1 / 64, bits (fieldAt b 1 1) 4 2, fieldAt b 1 1 % 16, fieldAt b 2 2, fieldAt b 4 2, fieldAt b 8 8, fieldAt b 16 8⟩

/-- A program step breaks Table 10.13; `used` are the Bloom arrays in use. -/
def stepBad (bs : List Byte) (i recLen : Nat) (used : List Nat) : Bool :=
  let b := bs.drop (32 * i)
  let x := stepAt bs i
  let lim := 2 ^ (8 * typeSize x.ty)
  fieldAt b 0 1 / 8 != 0 || fieldAt b 6 2 != 0 || fieldAt b 24 8 != 0 || (i = 0 && x.join != 0)
    || (if x.op = 7 then x.ty != 0 || x.keyLen = 0 || 64 < x.keyLen || recLen < x.field + x.keyLen || x.a != 0 || x.b != 0 || !used.contains x.arr
        else x.arr != 0 || x.keyLen != 0 || 11 < x.ty || recLen < x.field + typeSize x.ty || lim ≤ x.a || (if x.op = 6 then lim ≤ x.b else x.b != 0))

/-- LOG2_BITS and HASHES of a Bloom array (Table 10.12). -/
def bloomAt (bs : List Byte) (a : Nat) : Nat × Nat × Nat := (fieldAt bs (128 + 16 * a) 8, fieldAt bs (136 + 16 * a) 1, fieldAt bs (137 + 16 * a) 1)

/-- Bloom arrays in use. -/
def bloomsUsed (bs : List Byte) : List Nat := (List.range 4).filter fun a => (bloomAt bs a).2.1 != 0 || (bloomAt bs a).2.2 != 0

/-- FILTER fields break Table 10.12. -/
def filterBad (bs : List Byte) : Bool :=
  let k := fieldAt bs 76 2
  let kt := fieldAt bs 80 1
  let rl := fieldAt bs 74 2
  let om := fieldAt bs 96 4
  fieldAt bs 64 8 % 64 != 0 || 31 < fieldAt bs 72 1 || fieldAt bs 72 1 = 0 || 16 < fieldAt bs 72 1 || 3 < fieldAt bs 73 1
    || rl < 8 || 256 < rl || rl % 8 != 0 || 4096 < k || (k = 0 && kt != 0) || 11 < kt || (k != 0 && rl < fieldAt bs 78 2 + typeSize kt)
    || fieldAt bs 81 7 != 0 || fieldAt bs 88 8 % 64 != 0 || om = 0 || om < k || fieldAt bs 100 28 != 0
    || (List.range 4).any fun a =>
        let (ad, l, h) := bloomAt bs a
        ad % 64 != 0 || fieldAt bs (138 + 16 * a) 6 != 0 || ((l != 0 || h != 0) && (l < 10 || 23 < l || h = 0 || 8 < h))

/-- The parameter block breaks Table 10.4 or 10.12 for a kind, its lists apart (R223 step 3). -/
def paramBad (bs : List Byte) (kind : Nat) : Bool :=
  let f (o n : Nat) : Nat := fieldAt bs o n
  let reduce := kind ≤ 2
  let multi := kind = 1 || kind = 4
  let members := f 4 2
  let dests := f 6 1
  let data := kind = 3 || kind = 4 || kind = 5 || kind = 6 || (reduce && f 1 1 = 5)
  3 < f 0 1 || 15 < f 1 1 || 15 < f 2 1 || f 3 1 != 0 || 2 ^ 15 ≤ members || 31 < dests || f 7 1 != 0 || f 36 4 != 0 || f 56 8 != 0
    || (if reduce then !pairOk (f 0 1) (f 1 1) (f 2 1) || f 16 16 = 0 || f 32 4 % 64 != 0
        else f 0 1 != 0 || f 1 1 != 0 || f 2 1 != 0 || f 16 16 != 0 || f 32 4 != 0)
    || (if kind = 6 then members != 0 || f 40 8 != 0 || f 12 4 != 0 else members = 0 || 16384 < members || f 40 8 % 64 != 0)
    || (if multi then dests = 0 || 20 < dests else dests != 0)
    || (if data then f 48 8 % 64 != 0 else f 48 8 != 0)
    || (if kind = 6 then filterBad bs || f 192 320 != 0
        else f 384 128 != 0 || (List.range 20).any fun d =>
          let a := f (64 + 8 * d) 8
          let n := f (224 + 8 * d) 8
          if d < dests then a % 64 != 0 || 2 ^ 62 ≤ a || (n != 2 ^ 64 - 1 && (n % 8 != 0 || 2 ^ 62 ≤ n)) else a != 0 || n != 0)

/-- A number rounded up to a multiple of 64. -/
def up64 (n : Nat) : Nat := (n + 63) / 64 * 64

/-- Lengths break R221 (R223 step 4). -/
def lengthBad (bs : List Byte) (kind : Nat) : Bool :=
  let f (o n : Nat) : Nat := fieldAt bs o n
  let count := f 8 4
  let members := f 4 2
  let sIn := winSize (f 1 1)
  let sOut := winSize (f 2 1)
  if kind ≤ 2 then
    count = 0 || 4194304 < count || count * sIn % 64 != 0 || count * sOut % 64 != 0
      || (kind = 2 && (count % members != 0 || count / members * sOut % 64 != 0))
  else if kind ≤ 5 then count = 0 || count % 64 != 0 || 2 ^ 31 - 64 < members * count
  else count = 0 || 2 ^ 31 - 64 < up64 (f 96 4 * (if f 73 1 % 2 = 1 then 4 else f 74 2))

/-- Does a list hold a number twice? -/
def twice : List Nat → Bool
  | [] => false
  | x :: xs => xs.contains x || twice xs

/-- Members of a parameter block's list. -/
def membersOf (bs : List Byte) (n : Nat) : List Nat := (List.range n).map fun i => fieldAt bs (2 * i) 2

/-! ### Opening -/

/-- Field check of COLL.OPEN (Table 10.3, R223 step 1, R445). -/
def fieldsCollOpen (d : Desc) : Option Nat :=
  if !onlyFields d [(16, 0, 12), (18, 0, 3), (20, 0, 14), (24, 0, 32), (28, 0, 32), (32, 0, 64)] || opf d 18 0 3 = 7 || opf d 32 0 64 % 64 != 0 then some stBadField
  else if opf d 18 0 3 = 6 && fused 4 then some stFeatureDisabled
  else none

/-- What the lists of a parameter block hold, as read: the member list, the program, the Bloom arrays by number; none where SOURCE cannot read one. -/
structure Lists where
  members : Option EngRead
  prog : Option EngRead
  blooms : List (Nat × Option EngRead)

/-- Read the lists of a block (R220). -/
def readLists (bs : List Byte) (kind src t : Nat) (s : State) : Lists × State :=
  if kind != 6 then
    let (m, s) := engRead src t (fieldAt bs 40 8) (2 * fieldAt bs 4 2) s
    (⟨m, some ⟨[], false, 0⟩, []⟩, s)
  else
    let (p, s) := engRead src t (fieldAt bs 64 8) (32 * fieldAt bs 72 1) s
    let (bl, s) := (bloomsUsed bs).foldl (fun acc a =>
      let (ad, l, _) := bloomAt bs a
      let (r, s) := engRead src t ad (2 ^ l / 8) acc.2
      (acc.1 ++ [(a, r)], s)) ([], s)
    (⟨some ⟨[], false, 0⟩, p, bl⟩, s)

/-- What the lists break at step 3 of R223; a list that cannot be read is not judged there. -/
def listsBad (bs : List Byte) (l : Lists) : Bool :=
  (match l.members with
    | some r => r.poison || twice (membersOf r.data (fieldAt bs 4 2)) || (membersOf r.data (fieldAt bs 4 2)).any fun n => 16383 < n
    | none => false)
  || (match l.prog with
    | some r => r.poison || (!r.data.isEmpty && (List.range (fieldAt bs 72 1)).any fun i => stepBad r.data i (fieldAt bs 74 2) (bloomsUsed bs))
    | none => false)
  || l.blooms.any fun b => b.2.any (·.poison)

/-- Ranges that SOURCE must reach (R223 step 7). -/
def rangesOk (s : State) (bs : List Byte) (kind src t : Nat) (l : Lists) : Bool :=
  let f (o n : Nat) : Nat := fieldAt bs o n
  let data := f 48 8
  l.members.isSome && l.prog.isSome && l.blooms.all (·.2.isSome)
    && (if kind = 3 || kind = 4 then mayRead s src t data (f 4 2 * f 8 4) && mayGateWrite s src t data (f 4 2 * f 8 4)
        else if kind ≤ 2 && f 1 1 = 5 then mayRead s src t data (f 4 2 * f 8 4 * 8) && mayGateWrite s src t data (f 4 2 * f 8 4 * 8)
        else if kind = 5 then mayRead s src t data (f 4 2 * f 8 4)
        else if kind = 6 then mayRead s src t data (f 8 4 * f 74 2) && mayGateWrite s src t (f 88 8) (up64 (f 96 4 * (if f 73 1 % 2 = 1 then 4 else f 74 2)))
        else true)

/-- Member slots in use (R224). -/
def memberSlots (s : State) : Nat := s.win.foldl (fun a e => a + e.2.members.length) 0

/-- Bytes of the Bloom store in use (R224). -/
def bloomBytes (s : State) : Nat := s.win.foldl (fun a e => a + match e.2.filter with
  | some f => f.blooms.foldl (fun a b => a + 2 ^ b.2.log2 / 8) 0
  | none => 0) 0

/-- A window holds a multicast buffer (R224). -/
def bufferHeld (s : State) (i : Nat) : Bool := s.win.any fun e => e.2.buffer = some i

/-- Records that each named crew binds (R222). -/
def recordsOf (count sIn n : Nat) : Nat := ((count * sIn / 64) + n - 1) / n * (64 / sIn)

/-- The filter of a block (Table 10.12). -/
def filterOf (bs : List Byte) (l : Lists) : Filter :=
  let f (o n : Nat) : Nat := fieldAt bs o n
  { steps := (List.range (f 72 1)).map (stepAt ((l.prog.map (·.data)).getD []))
    smallest := (f 73 1).testBit 1, indices := (f 73 1).testBit 0, recLen := f 74 2, k := f 76 2, keyOff := f 78 2, keyType := f 80 1
    outAddr := f 88 8, outMax := f 96 4
    blooms := l.blooms.map fun b => (b.1, ⟨(bloomAt bs b.1).2.1, (bloomAt bs b.1).2.2, writeBytes [] 0 ((b.2.map (·.data)).getD [])⟩) }

/-- Body of COLL.OPEN (R223, R224). -/
def bodyCollOpen (d : Desc) (c : CRef) (s : State) : State :=
  let w := opf d 16 0 12
  let kind := opf d 18 0 3
  let src := opf d 20 0 14
  let t := dtent d
  match engRead src t (opf d 32 0 64) 512 s with
  | (none, s) => reject c stNotPermitted s
  | (some p, s) =>
    let bs := p.data
    let f (o n : Nat) : Nat := fieldAt bs o n
    if p.poison || paramBad bs kind then reject c stBadField s else
    let (l, s) := readLists bs kind src t s
    if listsBad bs l then reject c stBadField s else
    let crews := setBits 128 (f 16 16)
    let recs := if kind ≤ 2 then recordsOf (f 8 4) (winSize (f 1 1)) crews.length else 0
    let bloom := l.blooms.foldl (fun a b => a + 2 ^ (bloomAt bs b.1).2.1 / 8) 0
    let multi := kind = 1 || kind = 4
    if kind ≤ 2 && f 1 1 = 5 && fused 5 then reject c stFeatureDisabled s
    else if lengthBad bs kind then reject c stBadLength s
    else if !clapOk s (some t) (opf d 24 0 32) then reject c stNotFound s
    else if crews.any fun k => assigned s k != some t then reject c stNotOwner s
    else if !rangesOk s bs kind src t l then reject c stNotPermitted s
    else if crews.any fun k => pdOff s (pdCrew k) then reject c stPowerOff s
    else if (window s w).isSome || crews.any fun k => (crewOf s k).area.isSome then reject c stResourceBusy s
    else if 2097152 < f 32 4 + 64 * recs || 262144 < memberSlots s + f 4 2 || 16777216 < bloomBytes s + bloom then reject c stNoResource s
    else
      let buf := if multi then (drawFree (fun i => !claimed s 4 i && !bufferHeld s i) 0 64 s).map fun b => (some b.1, b.2) else some (none, s)
      match buf with
      | none => reject c stNoResource s
      | some (b, s) =>
        let (now, s) := clock s
        let x : Window :=
          { tent := t, kind := kind, source := src, clapper := clapName (opf d 24 0 32), timeout := opf d 28 0 32, op := f 0 1, inFmt := f 1 1, outFmt := f 2 1
            count := f 8 4, lateNs := f 12 4, crews := crews, areaBase := f 32 4, records := recs, dataAddr := f 48 8
            members := (membersOf ((l.members.map (·.data)).getD []) (f 4 2)).map fun n => { node := n }
            dests := (List.range (f 6 1)).map fun i => { addr := f (64 + 8 * i) 8, notify := if f (224 + 8 * i) 8 = 2 ^ 64 - 1 then none else some (f (224 + 8 * i) 8) }
            buffer := b, filter := if kind = 6 then some (filterOf bs l) else none, state := if kind = 6 then .completing else .open, start := now }
        let s := crews.foldl (fun s k => updCrew k (fun y => { y with area := some ⟨f 32 4, recs, w⟩ }) s) { s with win := put s.win w x }
        complete c stSuccess 0 (place (f 4 2) 32 32 ||| recs) (emptyRecords x s)

/-- COLL.OPEN (R223). -/
def execCollOpen (q : QId) (d : Desc) (s : State) : Res := .next (runI q d { any := true } fieldsCollOpen (orLater s (bodyCollOpen d)) s)

/-! ### Closing and reporting -/

/-- A contribution to a window slot that the range gate has admitted. -/
def contributes (s : State) (w : Nat) (x : Txn) : Bool :=
  x.gated && x.stage = .ready && (x.ty = 2 || x.ty = 3) && s.fab.self = some (nodeOf x.addr) && inColl (offOf x.addr)
    && (slotOf (offOf x.addr)).1 = w && (slotOf (offOf x.addr)).2 < 0x80000000

/-- A window is gone: its crews are unbound and everything it held is free (R224, Table 10.8); a contribution that still waits completes with WINDOW_STATE (R237). -/
def dropWindow (w : Nat) (s : State) : State :=
  match window s w with
  | none => s
  | some x =>
    let late := s.fab.txns.filter (contributes s w)
    let s := x.crews.foldl (fun s k => updCrew k (fun y => { y with area := y.area.filter (·.slot != w) }) s) { s with win := del s.win w }
    late.foldl (fun s x => endTxn x wWindowState [] 0 s) s

/-- A new round begins (Table 10.8); a FILTER window starts its scan again. -/
def rearm (w : Nat) (x : Window) (s : State) : State :=
  let (now, s) := clock s
  emptyRecords x (updWin w (fun x => { x with
    state := if x.kind = 6 then .completing else .open
    cause := 0, round := x.round + 1, start := now, elapsed := none, poisonedLines := 0, refused := 0, mcastFail := 0, nMatches := 0, written := 0
    timed := false, failing := false, unspecified := false, advanced := false, batch := none, result := [], resultPoison := []
    members := x.members.map fun m => { node := m.node }
    dests := x.dests.map fun d => { addr := d.addr, notify := d.notify } }) s)

/-- Body of COLL.CLOSE (R237). -/
def bodyCollClose (d : Desc) (c : CRef) (s : State) : State :=
  let w := opf d 16 0 12
  match (window s w).filter (·.tent = dtent d) with
  | none => reject c stNotFound s
  | some x =>
    if opf d 18 0 1 = 0 then complete c stSuccess 0 0 (dropWindow w s)
    else if x.state = .open || x.state = .completing then reject c stResourceBusy s
    else complete c stSuccess 0 (x.round + 1) (rearm w x s)

/-- COLL.CLOSE (R237). -/
def execCollClose (q : QId) (d : Desc) (s : State) : Res :=
  .next (runI q d { any := true } (fun d => if onlyFields d [(16, 0, 12), (18, 0, 1)] then none else some stBadField) (bodyCollClose d) s)

/-- Body of COLL.REPORT (R237, R238). -/
def bodyCollReport (d : Desc) (c : CRef) (s : State) : State :=
  match (window s (opf d 16 0 12)).filter (·.tent = dtent d) with
  | none => reject c stNotFound s
  | some x =>
    let (now, s) := clock s
    let bs := arrivalReport x now
    let (ok, s) := engWriteS x.source x.tent (opf d 24 0 64) bs s
    if ok then complete c stSuccess 0 bs.length s else reject c stNotPermitted s

/-- COLL.REPORT (R238). -/
def execCollReport (q : QId) (d : Desc) (s : State) : Res :=
  .next (runI q d { any := true } (fun d => if onlyFields d [(16, 0, 12), (24, 0, 64)] && opf d 24 0 64 % 64 = 0 then none else some stBadField) (bodyCollReport d) s)

/-! ### The ordered tree of F64 -/

/-- The staged line that holds element `e` of member `m`, read under SOURCE. -/
def stagedLine (x : Window) (m l : Nat) (s : State) : Option EngRead × State :=
  engRead x.source x.tent (x.dataAddr + m * x.share + 64 * l) 64 s

/-- The staged lines `l` of every member, in member index order. -/
def stagedLines (x : Window) (l : Nat) : Nat → Nat → State → List (Option EngRead) × State
  | 0, _, s => ([], s)
  | n + 1, m, s =>
    let (r, s) := stagedLine x m l s
    let (rs, s) := stagedLines x l n (m + 1) s
    (r :: rs, s)

/-- fp64 addition. -/
def f64add (a b : Nat) : Nat := FF.f64.round (sumFV [FF.f64.decode a, FF.f64.decode b])

/-- Sum the eight elements of a line along the tree of R206 and store their records (R234). -/
def treeLine (w : Nat) (x : Window) (l : Nat) (s : State) : State :=
  let (rs, s) := stagedLines x l x.members.length 0 s
  let bad := rs.any fun r => match r with | some r => r.poison | none => true
  (List.range 8).foldl (fun s i =>
    let leaves := rs.map fun r => some (fieldAt ((r.map (·.data)).getD []) (8 * i) 8)
    let v := (treeSum f64add (rs.length + 1) leaves).getD 0
    let a := winRec s x (8 * l + i)
    match window s w with
    | some _ => setWinRec x (8 * l + i) 0 { a with value := BitVec.ofNat 320 v, flags := if bad then a.flags ||| flPoison else a.flags } s
    | none => s) s

/-- F64_TREE_DONE (R234, Table 10.8). -/
def execF64TreeDone (slot : BitVec 16) (s : State) : Res :=
  fabricDo (fun s =>
    let w := slot.toNat
    match window s w with
    | none => s
    | some x =>
      if !x.tree || x.state != .completing || x.failing || x.dests.any (fun d => d.out != 0 || d.asked) then s else
      let s := (List.range (x.count / 8)).foldl (fun s l => treeLine w x l s) s
      if x.multi then startMulticast w s else winComplete w s) s

/-! ### The filter scan -/

/-- A field's value: an integer under its signedness, or a float (Table 10.14). -/
inductive FKey where
  | int (v : Int)
  | float (v : FV)
deriving DecidableEq, Repr

/-- The value that little-endian bits spell in a type. -/
def keyOf (t x : Nat) : FKey :=
  if t < 4 then .int x
  else if t < 8 then .int (sext (8 * typeSize t) x)
  else .float ((if t = 8 then FF.f16 else if t = 9 then FF.bf16 else if t = 10 then FF.f32 else FF.f64).decode x)

/-- Order of two keys of one type; NaN is below nothing (R239). -/
def FKey.lt : FKey → FKey → Bool
  | .int a, .int b => a < b
  | .float a, .float b => ltFV a b
  | _, _ => false

/-- Equality of two keys of one type (R239). -/
def FKey.eq : FKey → FKey → Bool
  | .int a, .int b => a = b
  | .float a, .float b => eqFV a b
  | _, _ => false

/-- A key that is NaN. -/
def FKey.isNan : FKey → Bool
  | .float v => v.isNan
  | _ => false

/-- All the bits of a Bloom step are 1 (R240). -/
def bloomHit (f : Filter) (x : FStep) (key : List Byte) : Bool :=
  match find f.blooms x.arr with
  | none => false
  | some b =>
    let h1 := crc32c key
    let h2 := crc32c (key ++ [1]) ||| 1
    (List.range b.hashes).all fun j =>
      let n := (h1 + j * h2) % 2 ^ 32 % 2 ^ b.log2
      (byteAt b.data (n / 8)).toNat.testBit (n % 8)

/-- One predicate step on a record (R239). -/
def stepHolds (f : Filter) (x : FStep) (rec_ : List Byte) : Bool :=
  if x.op = 7 then bloomHit f x ((rec_.drop x.field).take x.keyLen) else
  let v := keyOf x.ty (fieldAt rec_ x.field (typeSize x.ty))
  let a := keyOf x.ty x.a
  let b := keyOf x.ty x.b
  let le (p q : FKey) : Bool := p.lt q || p.eq q
  match x.op with
  | 0 => v.eq a
  | 1 => !v.eq a
  | 2 => v.lt a
  | 3 => le v a
  | 4 => a.lt v
  | 5 => le a v
  | _ => le a v && le v b

/-- The program's value on a record (R239). -/
def passes (f : Filter) (rec_ : List Byte) : Bool :=
  match f.steps with
  | [] => false
  | x :: xs => xs.foldl (fun r y =>
      let h := stepHolds f y rec_
      match y.join with
      | 0 => r && h
      | 1 => r || h
      | 2 => r && !h
      | _ => r || !h) (stepHolds f x rec_)

/-- One passing record: its index, bytes, key and whether a line of it was poisoned. -/
structure Hit where
  index : Nat
  data : List Byte
  key : FKey
  poison : Bool
deriving DecidableEq, Repr

/-- Does one hit rank before another (R241)? NaN keys come last, equal keys by lower index. -/
def Hit.before (f : Filter) (a b : Hit) : Bool :=
  let better := if f.smallest then a.key.lt b.key else b.key.lt a.key
  let worse := if f.smallest then b.key.lt a.key else a.key.lt b.key
  if a.key.isNan != b.key.isNan then b.key.isNan else better || (!worse && a.index < b.index)

/-- Insert a hit in ranking order. -/
def rank (f : Filter) (h : Hit) : List Hit → List Hit
  | [] => [h]
  | x :: xs => if h.before f x then h :: x :: xs else x :: rank f h xs

/-- Scan `n` records from index `i` on; a poisoned record passes or fails freely. -/
def scan (f : Filter) (r : EngRead) (base : Nat) : Nat → Nat → State → List Hit × State
  | 0, _, s => ([], s)
  | n + 1, i, s =>
    let o := i * f.recLen
    let rec_ := (r.data.drop o).take f.recLen
    let (l0, k) := lineSpan (base % 64 + o) f.recLen
    let bad := (List.range k).any fun j => r.mask.testBit (l0 / 64 + j)
    let (free, s) := if bad then drawNat s else (0, s)
    let hit := if bad then free % 2 = 1 else passes f rec_
    let (hs, s) := scan f r base n (i + 1) s
    (if hit then ⟨i, rec_, keyOf f.keyType (fieldAt rec_ f.keyOff (typeSize f.keyType)), bad⟩ :: hs else hs, s)

/-- Poisoned lines of the output records (R173): those that hold bytes of a poisoned record. -/
def hitMarks (len : Nat) : Nat → List Hit → Nat
  | _, [] => 0
  | o, h :: hs =>
    let (l0, k) := lineSpan o len
    (if h.poison then maskOf (l0 / 64) k else 0) ||| hitMarks len (o + len) hs

/-- The scan ends: the output is written, and the window completes (R241). -/
def scanEnd (w : Nat) (x : Window) (f : Filter) (s : State) : State :=
  match engRead x.source x.tent x.dataAddr (x.count * f.recLen) s with
  | (none, s) => winFail w 0 s
  | (some r, s) =>
    let (hits, s) := scan f r x.dataAddr x.count 0 s
    let out := if f.k = 0 then hits.take f.outMax else (hits.foldr (rank f) []).take f.k
    let bs := pad64 (out.map fun h => if f.indices then leBytes 4 h.index else h.data).flatten
    let marks := if f.indices then 0 else hitMarks f.recLen 0 out
    let (ok, s) := if bs.isEmpty then (true, s) else engWriteS x.source x.tent f.outAddr bs s marks
    let s := updWin w (fun x => { x with nMatches := hits.length, written := out.length }) s
    if ok then winComplete w s else winFail w 0 s

/-- FILTER_SCAN_DONE (R241). -/
def execFilterScanDone (slot : BitVec 16) (s : State) : Res :=
  .next (ready (fun s => match window s slot.toNat with
    | none => s
    | some x => match x.filter with
      | some f => if x.state = .completing then scanEnd slot.toNat x f s else s
      | none => s) s)

/-! ### Timeouts and power -/

/-- WINDOW_TIMEOUT (R243, Table 10.8). -/
def execWindowTimeout (slot : BitVec 16) (s : State) : Res :=
  fabricDo (fun s =>
    let w := slot.toNat
    match window s w with
    | none => s
    | some x =>
      if x.timeout = 0 || x.timed || !(x.state = .open || x.state = .completing) then s else
      winFailing w 1 (updWin w (fun x => { x with timed := true }) (clockTo (x.start + x.timeout * 1000) s))) s

/-- A crew group that holds a window's area loses power (Table 10.8, Table 10.15). -/
def windowPower (group : Nat) (s : State) : State :=
  s.win.foldl (fun s e =>
    if !e.2.crews.any (fun k => k / 16 = group) then s else
    match e.2.state with
    | .open | .completing => winFailing e.1 2 s
    | .complete => winFail e.1 2 s
    | .failed => s) s

end Sys2Proof.Machine
end

