-- ==== Sys2Proof/Machine/EmbCmds.lean ====
section
/-! DEFINITION. Commands and events of the gather/embedding and KV engine that take effect at once (R250, R255 to R257, R261, R266, R267). -/

namespace Sys2Proof.Machine

/-- Field check of a command behind a fuse: BAD_FIELD first, then FEATURE_DISABLED (R445). -/
def behindFuse (f : Nat) (check : Desc → Option Nat) (d : Desc) : Option Nat :=
  match check d with
  | some st => some st
  | none => if fused f then some stFeatureDisabled else none

/-- What the rows' writes have left to mirror is sent, and the last messages' acknowledgements are awaited (R73, R342): the command completes with them. -/
def mirrorRows (x : Table) (op : Nat) (c : CRef) (clapper : Option Nat) (status done : Nat) (s : State) : State :=
  let ks := [x.codeBase, x.paramBase].filterMap fun a => (regionAt s a).map Prod.fst
  ks.foldl (fun s k =>
    match find s.kpr.guys k with
    | some g =>
      if !g.mirrors || g.todo.isEmpty then s else
      match sendTodo k x.tent clsEngine g.todo.length none s with
      | (some q, s) =>
        addTxn { id := 0, epoch := s.gaf.epoch.toNat, origin := .rows op c clapper status done, source := selfNode s, tent := x.tent, cls := clsEngine, eng := true
                 ty := 2, addr := 0, len := 0, data := [], mask := 0, pline := false, contrib := false, hint := none, gated := true, stage := .mirror k q } s
      | (none, s) => s
    | none => s) s

/-- Body of EMB.ROW_REPLACE (R256). -/
def bodyRowReplace (d : Desc) (c : CRef) (s : State) : State :=
  let k := opf d 16 0 8
  let src := opf d 18 0 14
  let n := opf d 20 0 32
  match find s.gth.tables k with
  | none => reject c stNotFound s
  | some x =>
    let sz := 64 + (x.stride + 63) / 64 * 64
    if !clapOk s (some (dtent d)) (opf d 40 0 32) then reject c stNotFound s
    else if x.tent != dtent d then reject c stNotPermitted s
    else match engRead src x.tent (opf d 24 0 64) (4 * n) s with
    | (none, s) => reject c stNotPermitted s
    | (some is, s) =>
      match engRead src x.tent (opf d 32 0 64) (n * sz) s with
      | (none, s) => reject c stNotPermitted s
      | (some ns, s) =>
        if !pdOn s 23 then reject c stPowerOff s else
        let (st, done, s) := replaceRows x src is ns sz n 0 s
        let clap := clapName (opf d 40 0 32)
        let op := s.fab.nextTxn
        let s := mirrorRows x op c clap st done s
        if rowsWait s op then s else clapOpt clap 1 (complete c st 0 done s)

/-- EMB.ROW_REPLACE (R256, R257). -/
def execEmbRowReplace (q : QId) (d : Desc) (s : State) : Res := .next (runI q d { any := true } (behindFuse 6 fieldsRowReplace) (orLater s (bodyRowReplace d)) s)

/-- EMB.BAG_SET (R250). -/
def execEmbBagSet (q : QId) (d : Desc) (s : State) : Res := .next (runI q d { any := true } (behindFuse 6 fieldsBagSet) (bodyBagSet d) s)

/-- KV.PAGE_MAP (R261). -/
def execKvPageMap (q : QId) (d : Desc) (s : State) : Res := .next (runI q d { any := true } (behindFuse 7 fieldsPageMap) (orLater s (bodyPageMap d)) s)

/-- ATTN.DECODE (R266). -/
def execAttnDecode (q : QId) (d : Desc) (s : State) : Res := .next (runI q d { any := true } (behindFuse 7 fieldsAttn) (orLater s (bodyAttn d)) s)

/-- BUF_HOLD_EXPIRY: an output leaves the pooled-row buffer at the end of its hold (R255). -/
def execBufHoldExpiry (entry : BitVec 32) (s : State) : Res :=
  .next (match find s.gth.buf entry.toNat with
    | some x => clockTo x.deadline (updGth (fun g => { g with buf := del g.buf entry.toNat }) s)
    | none => s)

/-- ATTN_DECODE_DONE (R267). -/
def execAttnDecodeDone (op : BitVec 32) (s : State) : Res := .next (ready (decodeDone op.toNat) s)

/-- Field check of EMB.DEFINE behind its fuse: deleting a table needs no feature (R247, R445). -/
def stageEmb (d : Desc) : Option Nat := if opf d 17 7 1 = 1 then stageEmbDefine d else behindFuse 6 stageEmbDefine d

/-- Field check of KV.DEFINE behind its fuse (R259, R445). -/
def stageKv (d : Desc) : Option Nat := if opf d 16 7 1 = 1 then stageKvDefine d else behindFuse 7 stageKvDefine d

/-- A tent's tables, caches and views are deleted (R268). -/
def dropGather (t : Nat) (s : State) : State :=
  let tabs := (s.gth.tables.filter fun e => e.2.tent = t).map Prod.fst
  let s := tabs.foldl (fun s k => dropBuffered k none (updGth (fun g => { g with tables := del g.tables k }) s)) s
  ((s.gth.caches.filter fun e => e.2.tent = t).map Prod.fst).foldl (fun s k => removeCache k s) s

end Sys2Proof.Machine
end

