-- ==== Sys2Proof/Machine/CrewCmds.lean ====
section
/-! DEFINITION. Crews: the dolly's requests and retirement (R175, R176), fault records (R181), stopping and clearing (R182, R184), loading, starting and stopping images (R185 to R188), and crew-group clocks (R402). -/

namespace Sys2Proof.Machine

/-! ### The dolly -/

/-- A transfer has begun: one of its requests is issued (Table 8.12). -/
def Xfer.begun (t : Xfer) : Bool := t.row != 0 || t.pos != 0

/-- Nothing of a transfer is left to issue. -/
def Xfer.issued (t : Xfer) : Bool := t.abandoned || t.rows ≤ t.row

/-- Source and destination of the next request of a transfer, and its length: at most 4,096 bytes, within an aligned 4 KiB of the fabric address (R175). -/
def Xfer.piece (t : Xfer) : Nat × Nat × Nat :=
  let a := t.src + t.row * t.srcStride + t.pos
  let b := t.dst + t.row * t.dstStride + t.pos
  let f := if t.srcFab then a else if t.dstFab then b else 0
  (a, b, min (t.len - t.pos) (4096 - f % 4096))

/-- Move on past a request of `n` bytes. -/
def Xfer.advance (n : Nat) (t : Xfer) : Xfer :=
  if t.pos + n < t.len then { t with pos := t.pos + n } else { t with pos := 0, row := t.row + 1 }

/-- The row in progress touches a bound accumulator area (R215). -/
def rowInArea (s : State) (n : Nat) (t : Xfer) : Bool :=
  let hit (a : Nat) : Bool := (locOf a t.len).any fun l => locArea s n l t.len
  (!t.srcFab && hit (t.src + t.row * t.srcStride)) || (!t.dstFab && hit (t.dst + t.row * t.dstStride))

/-- A local line range as bytes. -/
def locBytes (s : State) (n a len : Nat) : List Byte :=
  match locOf a len with
  | some l => locRead s n l len
  | none => []

/-- Issue the next request of a transfer (R175): a fabric read, a fabric write, or a copy between local ranges. One that R215 refuses is counted (Table 9.18). -/
def issuePiece (n : Nat) (t : Xfer) (s : State) : State :=
  let (a, b, len) := t.piece
  let go (f : Xfer → Xfer) (s : State) : State := updXfer n t.run t.ticket (fun t => f (t.advance len)) s
  let x := cellOf s n
  if rowInArea s n t then go (fun t => { t with status := max t.status 3 }) (countXlock (n / 32) s)
  else if t.srcFab then go (fun t => { t with out := t.out + 1 }) (issue (.dolly n t.run t.ticket b) x.source (cellTent s n) 1 a len [] 0 s)
  else
    let bs := locBytes s n a len
    let m := locMarks s n a len
    if t.dstFab then go (fun t => { t with out := t.out + 1 }) (issue (.dolly n t.run t.ticket b) x.source (cellTent s n) 2 b len bs m s (inColl (offOf b)))
    else go (fun t => { t with bytes := t.bytes + len, status := max t.status (if m = 0 then 0 else 1), writes := t.writes ++ [(b, bs, m)] }) s

/-- DOLLY_REQUEST_ISSUE: the first transfer of the cell with a request left issues it (R175). -/
def execDollyRequestIssue (c : CellId) (s : State) : Res :=
  fabricDo (fun s =>
    let n := cellNum c
    if relocking s (n / 512) then s else
    match (cellOf s n).xfers.find? fun t => !t.issued with
    | some t => issuePiece n t s
    | none => s) s

/-- The local writes of a transfer become visible, with the marks that came with the data (R173, R176). -/
def showWrites (n : Nat) (t : Xfer) (s : State) : State := t.writes.foldl (fun s w => locFill n w.1 (w.2.1.length / 64) w.2.1 w.2.2 s) s

/-- Retire a transfer (R176): STATUS and DONE_BYTES go into its descriptor, then its local writes become visible, then CLAPPER is advanced, then what waited for it goes on. A transfer of an earlier run does not count for the run under way (R180). -/
def retire (n : Nat) (t : Xfer) (s : State) : State :=
  let st := if t.abandoned then 5 else t.status
  let s := match locOf (t.addr + 36) 12 with
    | some l => locWrite n l (leBytes 4 st ++ leBytes 8 t.bytes) s
    | none => s
  let s := showWrites n t s
  let s := updCell n (fun x => { x with
    xfers := x.xfers.filter fun y => !y.is t.run t.ticket, retired := if t.run = x.group then x.retired + 1 else x.retired }) s
  settle n (if t.abandoned then s else clapOpt t.clapper 1 s)

/-- DOLLY_RETIRE: every request of the transfer has completed and every earlier transfer has retired (R176). -/
def execDollyRetire (c : CellId) (ticket : BitVec 64) (s : State) : Res :=
  .next (match (cellOf s (cellNum c)).xfers.head? with
    | some t => if t.ticket = ticket.toNat && t.issued && t.out = 0 then retire (cellNum c) t s else s
    | none => s)

/-! ### Fault records -/

/-- The 64 bytes of a fault record (Table 8.15). -/
def recordBytes (n : Nat) (f : CellFault) (instrs : Nat) : List Byte :=
  leBytes 1 (n / 32) ++ leBytes 1 (n % 32) ++ leBytes 1 f.cause ++ [0] ++ leBytes 4 f.instr ++ leBytes 8 f.pc.toNat ++ leBytes 8 f.addr
    ++ leBytes 8 f.value ++ leBytes 8 instrs ++ List.replicate 24 0

/-- Write a fault record, or count it as lost, then advance the FAULT clapper (R180, R181). -/
def putRecord (n : Nat) (r : DueRecord) (s : State) : State :=
  let s := match r.report with
    | some b =>
      let (ok, s) := engWriteS r.source (cellTent s n) (b * 65536 + n * 64) (recordBytes n r.fault r.instrs) s
      if ok then s else bump .crwSummary 0 48 16 1 s
    | none => s
  clapOpt r.clapper 1 s

/-- The fault record that a cell's present run owes. -/
def Cell.due (x : Cell) : Option DueRecord :=
  if x.recordDue then x.fault.map fun f => ⟨x.group, x.source, x.report, x.faultClap, f, x.instrs⟩ else none

/-- Write the fault record of a cell's present run (R180, R181). -/
def writeFault (n : Nat) (s : State) : State :=
  let s' := updCell n (fun x => { x with recordDue := false }) s
  match (cellOf s n).due with
  | some r => putRecord n r s'
  | none => s'

/-- Write every fault record that a cell still owes. -/
def writeFaults (n : Nat) (s : State) : State :=
  writeFault n ((cellOf s n).older.foldl (fun s r => putRecord n r s) (updCell n (fun x => { x with older := [] }) s))

/-- FAULT_RECORD_WRITE: a faulted run's record is written once the transfers it submitted have retired, an earlier run's first (R180, R181). -/
def execFaultRecordWrite (c : CellId) (s : State) : Res :=
  fabricDo (fun s =>
    let n := cellNum c
    let x := cellOf s n
    match x.older with
    | r :: rest => if x.xfers.all (·.run != r.run) then putRecord n r (updCell n (fun x => { x with older := rest }) s) else s
    | [] => if x.recordDue && x.xfers.isEmpty then writeFault n s else s) s

/-! ### Stopping and clearing -/

/-- A cell that runs or waits begins to stop (Table 8.16). -/
def stopCell (n : Nat) (s : State) : State :=
  let x := cellOf s n
  if x.state = .running || x.state = .waiting then
    releaseBar (n / 32) x.group (updCell n (fun x => { x with
      state := .stopping, wait := none, xfers := x.xfers.map fun t => if t.begun then t else { t with abandoned := true } }) s)
  else s

/-- A stopped cell leaves the CREW.STOP commands that wait for it; one with none left completes (R188). -/
def cellIdle (n : Nat) (s : State) : State :=
  let ws := s.crw.stops.map fun w => { w with left := delNat w.left n }
  let done := ws.filter fun w => w.left.isEmpty
  done.foldl (fun s w => complete w.cref stSuccess 0 w.stopped s) { s with crw := { s.crw with stops := ws.filter fun w => !w.left.isEmpty } }

/-- CELL_STOP_COMPLETE: a stopping cell with nothing left to retire becomes IDLE (Table 8.16). -/
def execCellStopComplete (c : CellId) (s : State) : Res :=
  .next (let n := cellNum c
    let x := cellOf s n
    if x.state = .stopping && x.xfers.isEmpty then cellIdle n (updCell n (fun x => { x with state := .idle }) s) else s)

/-- A crew leaves its tent: its cells stop, and it clears once they are idle (R184). -/
def releaseCrew (k : Nat) (s : State) : State :=
  let s := abortDecodes (fun x => x.crews.contains k) stAborted s
  updCrew k (fun x => { x with clearing := true, next := none, released := x.released || !x.clearing })
    ((crewCells k).foldl (fun s n => stopCell n s) s)

/-- A crew is claimed for a tent (R184); one that the same take has released before is its tent's once it is clear (R50). -/
def claimCrew (t k : Nat) (s : State) : State :=
  updCrew k (fun x => if x.clearing then { x with next := some t } else { x with tent := some t }) s

/-- CREW_CLEAR_DONE: the crew is zeroed and free once its cells have ended all they began (R184). -/
def execCrewClearDone (crew : BitVec 7) (s : State) : Res :=
  .next (let k := crew.toNat
    if zeroing s k then updCrew k (fun x => { x with clearing := false, tent := x.next, next := none }) (zeroCrew k s) else s)

/-! ### Assignment -/

/-- Crews that a command names in bytes 16 to 31. -/
def crewsIn (d : Desc) : List Nat := setBits 128 (opf d 16 0 128)

/-- Field check of CREW.ASSIGN (Table 8.18). -/
def stageCrewAssign (d : Desc) : Option Nat := if !onlyFields d [(16, 0, 128), (32, 0, 1)] || opf d 16 0 128 = 0 then some stBadField else none

/-- CREW.ASSIGN applied (R50, R184, R224). -/
def applyCrewAssign (d : Desc) (s : State) : ApplyRes :=
  let t := dtent d
  let ks := crewsIn d
  if (tent s t).isNone then bad stNotFound
  else if opf d 32 0 1 = 0 then
    match ks.find? fun k => ((crewOf s k).clearing && !(crewOf s k).released) || (assigned s k).any (· != t) with
    | some k => .error (stResourceBusy, some 5, k)
    | none => if fresh s (ks.any fun k => pdOff s (pdCrew k)) then bad stPowerOff
              else good (ks.foldl (fun s k => claimCrew t k s) s)
  else if ks.any fun k => assigned s k != some t then bad stNotOwner
  else match ks.find? fun k => fresh s (crewOf s k).area.isSome with
    | some k => .error (stResourceBusy, some 5, k)
    | none => if fresh s (ks.any fun k => pdOff s (pdCrew k)) then bad stPowerOff else good (ks.foldl (fun s k => releaseCrew k s) s)

/-! ### Images -/

/-- POWER_OFF or NOT_READY for a group that is not ON (Table 2.9). -/
def crewPower? (s : State) (ks : List Nat) : Option Nat :=
  if ks.any fun k => pdState s (pdCrew k) = .starting then some stNotReady
  else if ks.any fun k => !pdOn s (pdCrew k) then some stPowerOff
  else none

/-- The header of an image breaks Table 8.19 or R185. -/
def imageBad (bs : List Byte) : Bool :=
  let f (o n : Nat) : Nat := fieldAt bs o n
  f 0 4 != 0x50525542 || f 4 2 != 1 || f 6 2 != 0 || f 8 4 % 4 != 0 || f 12 4 ≤ f 8 4 || f 12 4 % 4 != 0 || f 12 4 < 4
    || 65536 < f 20 4 || f 24 4 % 64 != 0 || (bs.drop 32).take 32 != List.replicate 32 0
    || crewBytes < (f 24 4 + f 12 4 + 63) / 64 * 64 + f 16 4

/-- Load a checked image into a crew (R185, R186): every mark is cleared, whether or not a line of the image came poisoned (R173; log entry 53). -/
def loadCrew (r : EngRead) (index k : Nat) (s : State) : State :=
  let f (o n : Nat) : Nat := fieldAt r.data o n
  let tl := f 12 4
  let cl := f 16 4
  let sl := f 20 4
  let base := f 24 4
  let cd := (base + tl + 63) / 64 * 64
  let n := (r.data.length + 63) / 64
  let s := ringLoad k n (zeroCrew k s)
  let s := updCrew k (fun x => { x with
    mem := writeBytes (writeBytes [] base ((r.data.drop 64).take tl)) cd ((r.data.drop (64 + tl)).take cl)
    loaded := true, image := index, textBase := base, textLen := tl, entry := f 8 4 }) s
  (crewCells k).foldl (fun s m => updCell m (fun x => { x with
    state := .idle, scratch := writeBytes [] 0 ((r.data.drop (64 + tl + cl)).take sl) }) s) s

/-- Field check of IMAGE.LOAD (Table 8.20). -/
def fieldsImageLoad (d : Desc) : Option Nat :=
  if 64 ≤ opf d 36 0 32 && opf d 36 0 32 ≤ 2162752 || !onlyFields d [(16, 0, 128), (32, 0, 14), (36, 0, 32), (40, 0, 64)] then
    (if !onlyFields d [(16, 0, 128), (32, 0, 14), (36, 0, 32), (40, 0, 64)] || opf d 16 0 128 = 0 || opf d 40 0 64 % 64 != 0 then some stBadField else none)
  else some stBadLength

/-- Index of an image digest in a list, adding it if it is not there (R186). -/
def digestIndex (l : List (List Byte)) (x : List Byte) : Nat × List (List Byte) :=
  match l.findIdx? (· == x) with
  | some i => (i, l)
  | none => (l.length, l ++ [x])

/-- Body of IMAGE.LOAD (R186). -/
def bodyImageLoad (d : Desc) (c : CRef) (s : State) : State :=
  let t := dtent d
  let ks := crewsIn d
  let len := opf d 36 0 32
  let (r, s1) := engRead (opf d 32 0 14) t (opf d 40 0 64) len s
  let bs := (r.map (·.data)).getD []
  if r.isSome && fieldAt bs 28 4 != len then reject c stBadLength s1
  else if r.isSome && (imageBad bs || len != 64 + fieldAt bs 12 4 + fieldAt bs 16 4 + fieldAt bs 20 4) then reject c stBadField s1
  else if ks.any fun k => assigned s k != some t then reject c stNotOwner s1
  else if ks.any (crewBusy s) then reject c stResourceBusy s1
  else match r, tent s t with
  | none, _ => reject c stNotPermitted s1
  | some _, none => reject c stNotPermitted s1
  | some r, some x =>
    let dg := Config.sha384 r.data
    let (i, l) := digestIndex x.images dg
    if 64 < l.length then reject c stNoResource s1
    else match crewPower? s ks with
    | some st => reject c st s1
    | none => complete c stSuccess 0 i (ks.foldl (fun s k => loadCrew r i k s) (updTent t (fun x => { x with images := l }) s1))

/-- IMAGE.LOAD (R185, R186). -/
def execImageLoad (q : QId) (d : Desc) (s : State) : Res := .next (runI q d { any := true } fieldsImageLoad (orLater s (bodyImageLoad d)) s)

/-! ### Starting and stopping -/

/-- Cells that a command names: CREWS in bytes 16 to 31, CELLS in bytes 32 to 35. -/
def cellsIn (d : Desc) : List Nat :=
  (crewsIn d).foldl (fun a k => a ++ (setBits 32 (opf d 32 0 32)).map fun i => k * 32 + i) []

/-- Field check of CREW.START (Table 8.21). -/
def fieldsCrewStart (d : Desc) : Option Nat :=
  let e := opf d 36 0 32
  if !onlyFields d [(16, 0, 128), (32, 0, 32), (36, 0, 32), (40, 0, 14), (44, 0, 32), (48, 0, 32), (52, 0, 64), (60, 0, 32)]
    || opf d 16 0 128 = 0 || opf d 32 0 32 = 0 || (e != 0xFFFFFFFF && e % 4 != 0) then some stBadField else none

/-- Registers of Table 8.2 at a start. -/
def startRegs (n : Nat) (arg : U64) : Vector U64 32 :=
  Vector.ofFn fun i => if i.val = 1 then arg else if i.val = 2 then BitVec.ofNat 64 (n / 32) else if i.val = 3 then BitVec.ofNat 64 (n % 32) else 0

/-- A cell starts (Table 8.16, Table 8.2). Transfers of an earlier run that faulted go on to retirement, and its fault record stays due until then (R180). -/
def startCell (d : Desc) (group n : Nat) (s : State) : State :=
  let k := crewOf s (n / 32)
  let e := opf d 36 0 32
  let pc := crewBase + k.textBase + (if e = 0xFFFFFFFF then k.entry else e)
  updCell n (fun x => { x with
    state := .running, g := startRegs n (BitVec.ofNat 64 (opf d 52 0 64)), p := Vector.replicate 8 0, v := Vector.replicate 16 0, x := Vector.replicate 4 {}
    pc := BitVec.ofNat 64 pc, older := x.older ++ x.due.toList, submitted := 0, retired := 0, instrs := 0, source := opf d 40 0 14
    doneClap := clapName (opf d 44 0 32), faultClap := clapName (opf d 48 0 32), report := clapName (opf d 60 0 32)
    group := group, wait := none, fault := none, recordDue := false }) s

/-- Body of CREW.START (R187). -/
def bodyCrewStart (d : Desc) (c : CRef) (s : State) : State :=
  let t := dtent d
  let ks := crewsIn d
  let e := opf d 36 0 32
  if ks.any fun k => (crewOf s k).loaded && e != 0xFFFFFFFF && (crewOf s k).textLen ≤ e then reject c stBadField s
  else if ks.any fun k => assigned s k != some t then reject c stNotOwner s
  else if (ks.any fun k => !(crewOf s k).loaded) || !clapOk s (some t) (opf d 44 0 32) || !clapOk s (some t) (opf d 48 0 32) then reject c stNotFound s
  else if !(s.fab.gate.any fun g => g.2.source = opf d 40 0 14 && g.2.tent = t) then reject c stNotPermitted s
  else if ((cellsIn d).any fun n => (cellOf s n).state.active) || ks.any fun k => resetting s (0x40 + k / 16) then reject c stResourceBusy s
  else match crewPower? s ks with
  | some st => reject c st s
  | none =>
    let s := { s with crw := { s.crw with starts := s.crw.starts + 1 } }
    complete c stSuccess 0 (cellsIn d).length ((cellsIn d).foldl (fun s n => startCell d s.crw.starts n s) s)

/-- CREW.START (R187). -/
def execCrewStart (q : QId) (d : Desc) (s : State) : Res := .next (runI q d { any := true } fieldsCrewStart (bodyCrewStart d) s)

/-- Field check of CREW.STOP (Table 8.22). -/
def fieldsCrewStop (d : Desc) : Option Nat :=
  if !onlyFields d [(16, 0, 128), (32, 0, 32)] || opf d 16 0 128 = 0 || opf d 32 0 32 = 0 then some stBadField else none

/-- Body of CREW.STOP (R188, R267). -/
def bodyCrewStop (d : Desc) (c : CRef) (s : State) : State :=
  if (crewsIn d).any fun k => assigned s k != some (dtent d) then reject c stNotOwner s else
  let ns := (cellsIn d).filter fun n => (cellOf s n).state = .running || (cellOf s n).state = .waiting
  let s := abortDecodes (fun x => x.crews.any fun k => (crewsIn d).contains k) stAborted s
  let s := ns.foldl (fun s n => stopCell n s) s
  let left := ns.filter fun n => (cellOf s n).state = .stopping
  if left.isEmpty then complete c stSuccess 0 ns.length s
  else { s with crw := { s.crw with stops := s.crw.stops ++ [⟨c, left, ns.length⟩] } }

/-- CREW.STOP (R188). -/
def execCrewStop (q : QId) (d : Desc) (s : State) : Res := .next (runI q d { any := true, sealedOk := true } fieldsCrewStop (bodyCrewStop d) s)

/-- A crew group loses power or is reset (Table 8.16, R267, Table 10.8, Table 17.7): its cells end with POWER; its memories, bound records among them, are lost unless `keep`, the clock stop of R405. A window holds its area bindings until it closes (R224). Decodes end with a status. -/
def crewPowerLoss (group st : Nat) (keep : Bool) (s : State) : State :=
  let ks := (List.range 16).map fun i => group * 16 + i
  let s := abortDecodes (fun x => x.crews.any fun k => k / 16 = group) st s
  let s := windowPower group s
  let s := { s with fab := { s.fab with txns := s.fab.txns.map fun x => match x.origin with
    | .dolly m _ _ _ => if m / 512 = group then { x with origin := .none } else x
    | _ => x } }
  let s := ks.foldl (fun s k => (crewCells k).foldl (fun s n =>
    let x := cellOf s n
    if x.state = .running || x.state = .waiting then
      let s := writeFaults n (updCell n (fun x => { x with fault := some ⟨cPower, 0, x.pc, 0, 0⟩, recordDue := true }) s)
      updCell n (fun x => { x with state := .idle, wait := none, xfers := [] }) s
    else if x.recordDue || !x.older.isEmpty then cellIdle n (updCell n (fun x => { x with state := .idle, xfers := [] }) (writeFaults n s))
    else if x.state = .idle && x.xfers.isEmpty then s
    else cellIdle n (updCell n (fun x => { x with state := .idle, xfers := [] }) s)) s) s
  if keep then s else ks.foldl (fun s k => zeroCrew k s) s

/-! ### Crew-group clocks -/

/-- A block of a crew group resets, or its domain changes (R402). -/
def groupBusy (s : State) (g : Nat) : Bool :=
  has s.chip.resets (0x40 + g) || pdState s (15 + g) = .starting || pdState s (15 + g) = .stopping

/-- Field check of CREW.SET_FREQ (Table 17.10). -/
def fieldsSetFreq (d : Desc) : Option Nat :=
  let f := opf d 18 0 16
  if !onlyFields d [(16, 0, 8), (18, 0, 16)] || opf d 16 0 8 = 0 || f < 400 || 1800 < f || f % 25 != 0 then some stBadField else none

/-- Body of CREW.SET_FREQ (R402): the groups relock in turn. -/
def bodySetFreq (d : Desc) (c : CRef) (s : State) : State :=
  let gs := setBits 8 (opf d 16 0 8)
  if gs.any fun g => pdOff s (15 + g) then reject c stPowerOff s
  else if gs.any (groupBusy s) then reject c stResourceBusy s
  else { s with chip := { s.chip with relock := s.chip.relock ++ [(c, opf d 18 0 16, gs)] } }

/-- CREW.SET_FREQ (R402). -/
def execCrewSetFreq (q : QId) (d : Desc) (s : State) : Res := .next (runI q d { any := false } fieldsSetFreq (bodySetFreq d) s)

/-- PLL_RELOCK_DONE: the group resumes at its new frequency; the command completes after its last group (R402). -/
def execPllRelockDone (group : BitVec 3) (s : State) : Res :=
  .next (match s.chip.relock with
    | (c, f, g :: gs) :: rest =>
      if g != group.toNat then s else
      let p := (find s.chip.plls (g + 1)).getD {}
      let s := { s with chip := { s.chip with plls := put s.chip.plls (g + 1) { p with locked := true, freq := f } } }
      if gs.isEmpty then complete c stSuccess 0 f { s with chip := { s.chip with relock := rest } }
      else { s with chip := { s.chip with relock := (c, f, gs) :: rest } }
    | _ => s)

end Sys2Proof.Machine
end

