-- ==== Sys2Proof/Machine/Near.lean ====
section
/-! DEFINITION. Near-bank units: the channel's messages (R277, R381), programs and runs (R279 to R286), module reset (R287), allotments (R273, R274). -/

namespace Sys2Proof.Machine

/-- Near-bank side of a module. -/
def nbuOf (s : State) (m : Nat) : Nbu := (find s.nbu m).getD {}

/-- Change the near-bank side of a module. -/
def updNbu (m : Nat) (f : Nbu → Nbu) (s : State) : State := { s with nbu := put s.nbu m (f (nbuOf s m)) }

/-- Units that a module offers: 0 when it is not admitted, and without a session while its port group is on (R276, R382). -/
def unitCount (s : State) (m : Nat) : Nat :=
  let t := tray s m
  if t.admitted && (t.session || !pdOn s (pdTray m)) then t.units else 0

/-- Usable units of a module: those it offers, once they have passed the checks of Table 12.13 (R291). -/
def nbuUnits (s : State) (m : Nat) : Nat := if (nbuOf s m).probes = 0 then unitCount s m else 0

/-- An allotment entry in force: tent, tiles, first module tile address (Table 12.17). -/
def allotOf (s : State) (m n : Nat) : Option (Nat × Nat × Nat) :=
  let v := mapVal s .tryNbuAllot (16 * m + n)
  if bit v 63 then some (bits v 56 7, bits v 32 13, bits v 0 32) else none

/-! ### Channel -/

/-- A down message, its TAG 0 (Table 12.1). -/
def nbuMsg (ty unit off len step : Nat) (data : List Byte) : List Byte :=
  leBytes 1 ty ++ leBytes 1 unit ++ [0, 0] ++ leBytes 4 off ++ leBytes 1 len ++ leBytes 1 step ++ List.replicate 6 0 ++ (data ++ List.replicate 48 0).take 48

/-- Answers that a message gets (R277). -/
def answersOf (units : Nat) (body : List Byte) : Nat :=
  if fieldAt body 1 1 = 0xFF && fieldAt body 0 1 != 6 then units else 1

/-- Send waiting messages while fewer than 16 are unanswered (R381). -/
def sendDown (m : Nat) : Nat → State → State
  | 0, s => s
  | n + 1, s =>
    let x := nbuOf s m
    match x.down with
    | [] => s
    | (body, w) :: rest =>
      if 16 ≤ x.waits.length then s else
      let tag := x.nextTag % 65536
      let s := updNbu m (fun x => { x with
        down := rest, nextTag := x.nextTag + 1, waits := put x.waits tag (answersOf (nbuUnits s m) body, w)
        running := if w = .start then x.running.map fun r => { r with tag := tag } else x.running }) s
      sendDown m n (emit (.nbu m (body.take 2 ++ leBytes 2 tag ++ body.drop 4)) s)

/-- Put messages in line, and send what may go. -/
def pushDown (m : Nat) (ms : List (List Byte × NbuWait)) (s : State) : State :=
  let s := updNbu m (fun x => { x with down := x.down ++ ms }) s
  sendDown m 17 s

/-- A message has one answer less outstanding. -/
def answered (m tag : Nat) (s : State) : State :=
  sendDown m 17 (updNbu m (fun x => { x with waits := match find x.waits tag with
    | some (k, w) => if k ≤ 1 then del x.waits tag else put x.waits tag (k - 1, w)
    | none => x.waits }) s)

/-- TAG, STATUS and UNIT of an up message. -/
def upTag (b : BitVec 512) : Nat := bits b.toNat 16 16
/-- See `upTag`. -/
def upStatus (b : BitVec 512) : Nat := bits b.toNat 64 8
/-- See `upTag`. -/
def upUnit (b : BitVec 512) : Nat := bits b.toNat 8 8

/-! ### Programs -/

/-- Does a step break Table 12.6 or 12.7? -/
def stepIsBad (x : Nat) : Bool :=
  let op := bits x 0 8
  let fn := bits x 8 8
  let b := bits x 24 4
  let c := bits x 28 4
  let k1 := bits x 64 32
  let k2 := bits x 96 32
  8 < op || (op = 0 && x != 0) || bits x 32 32 != 0 || (if op = 6 then 1 < fn else fn != 0)
    || (b != 0 && !(op = 3 || op = 4 || op = 5 || op = 7 || op = 8))
    || (c != 0 && !(op = 5 || op = 8))
    || (k1 != 0 && !(op = 2 || (op = 6 && fn = 1) || op = 7 || op = 8))
    || (k2 != 0 && op != 2)

/-- Sixteen-byte steps of a program. -/
def stepsOf (bs : List Byte) : List (BitVec 128) :=
  (List.range (bs.length / 16)).map fun i => BitVec.ofNat 128 (leNat ((bs.drop (16 * i)).take 16))

/-- Step `i` of a module's store; an absent one is END. -/
def stepOf (x : Nbu) (i : Nat) : Nat := ((find x.prog i).map BitVec.toNat).getD 0

/-- Set the 16 steps of a store slot, zeros not listed. -/
def setSlot (a : Nat) (st : List (BitVec 128)) (p : List (Nat × BitVec 128)) : List (Nat × BitVec 128) :=
  (List.range 16).foldl (fun p i =>
    let v := st.getD i 0
    if v = 0 then del p (16 * a + i) else put p (16 * a + i) v) p

/-- REG_WRITE messages of a store slot for every unit. -/
def slotMsgs (units a : Nat) (st : List (BitVec 128)) (w : NbuWait) : List (List Byte × NbuWait) :=
  ((List.range units).map fun u => (List.range 16).map fun i =>
    (nbuMsg 1 u (0x1000 + 16 * (16 * a + i)) 16 0 (leBytes 16 (st.getD i 0).toNat), w)).flatten

/-- Field check of NBU.PROGRAM (Table 12.8). -/
def fieldsNbuProgram (d : Desc) : Option Nat :=
  if !onlyFields d [(16, 0, 3), (17, 0, 4), (18, 0, 14), (20, 0, 16), (24, 0, 64)] || opf d 20 0 16 = 0 || 16 < opf d 20 0 16
    || opf d 24 0 64 % 64 != 0 then some stBadField else none

/-- Body of NBU.PROGRAM (R282): nothing of the tent's image list or of the store changes before every unit has acknowledged. -/
def bodyNbuProgram (d : Desc) (c : CRef) (s : State) : State :=
  let m := opf d 16 0 3
  let a := opf d 17 0 4
  let t := dtent d
  let (r, s1) := engRead (opf d 18 0 14) t (opf d 24 0 64) (16 * opf d 20 0 16) s
  let bs := (r.map (·.data)).getD []
  if (stepsOf bs).any fun x => stepIsBad x.toNat then reject c stBadField s1
  else if nbuUnits s m = 0 || (allotOf s m a).isNone then reject c stNotFound s1
  else if ((allotOf s m a).map (·.1)) != some t then reject c stNotOwner s1
  else if r.isNone then reject c stNotPermitted s1
  else if (nbuOf s m).queue.any (·.allot = a) || (nbuOf s m).running.any (·.allot = a) then reject c stResourceBusy s1
  else match tent s t with
  | none => reject c stNotOwner s1
  | some x =>
    let dg := Config.sha384 bs
    if 64 < (digestIndex x.images dg).2.length then reject c stNoResource s1
    else if !pdOn s (pdTray m) then reject c stPowerOff s1
    else
      let st := stepsOf bs
      let s := updNbu m (fun x => { x with programs := x.programs ++ [⟨c, a, 16 * nbuUnits s m, st, t, dg⟩] }) s1
      pushDown m (slotMsgs (nbuUnits s m) a st (.program c)) s

/-- An NBU.PROGRAM ends: its other messages are no longer waited for. -/
def endProgram (m : Nat) (c : CRef) (st : Nat) (s : State) : State :=
  let plain (w : NbuWait) : NbuWait := if w = .program c then .plain else w
  reject c st (updNbu m (fun x => { x with
    programs := x.programs.filter (·.cref != c)
    down := x.down.map fun e => (e.1, plain e.2), waits := x.waits.map fun e => (e.1, e.2.1, plain e.2.2) }) s)

/-- Every unit has acknowledged: the digest enters the tent's image list, which must have room for it still, and the slot holds the steps (R282). -/
def programEnd (m : Nat) (c : CRef) (p : Program) (s : State) : State :=
  let (full, s) := match tent s p.tent with
    | none => (false, s)
    | some x =>
      let l := (digestIndex x.images p.digest).2
      if 64 < l.length then (true, s) else (false, updTent p.tent (fun x => { x with images := l }) s)
  if full then endProgram m c stNoResource s
  else endProgram m c stSuccess (if p.steps.isEmpty then s else updNbu m (fun x => { x with prog := setSlot p.allot p.steps x.prog }) s)

/-- One acknowledgement of an NBU.PROGRAM; the last one completes it (R282). -/
def programAck (m : Nat) (c : CRef) (s : State) : State :=
  match (nbuOf s m).programs.find? (·.cref = c) with
  | none => s
  | some p =>
    if 1 < p.left then updNbu m (fun x => { x with programs := x.programs.map fun y => if y.cref = c then { y with left := y.left - 1 } else y }) s
    else programEnd m c p s

/-! ### Rows and arithmetic -/

/-- Bytes of a row. -/
def Bind.rowBytes (b : Bind) : Nat := 2 ^ b.rowLog2

/-- Tile number within a binding, and offset in the tile, of row r (R278). -/
def Bind.at_ (b : Bind) (r : Nat) : Nat × Nat :=
  let p := b.off % tileBytes + r * b.rowBytes
  (p / tileBytes, p % tileBytes)

/-- Tiles that a binding touches. -/
def Bind.count (b : Bind) : Nat := (b.off % tileBytes + b.rows * b.rowBytes + tileBytes - 1) / tileBytes

/-- Row r of a binding, and whether a line of it is poisoned; allotment tiles as they were at the step's START. -/
def bindRow (s : State) (w : NbuRun) (b : Bind) (r : Nat) : List Byte × Bool :=
  let (i, o) := b.at_ r
  let t := b.tiles.getD i 0
  let n := b.rowBytes
  if b.work then
    let a := t * tileBytes + o
    (readBytes w.seen a n, (List.range (n / 64)).any fun j => w.seenMarks.contains (a / 64 + j))
  else (tileRead s t o n, (List.range (n / 64)).any fun j => isPoison s t (o / 64 + j))

/-- Store bytes at a module byte address, every line marked or not. -/
def nbuStore (m a : Nat) (bs : List Byte) (mark : Nat → Bool) (s : State) : State :=
  updNbu m (fun x => { x with
    mem := writeBytes x.mem a bs
    marks := (List.range (bs.length / 64)).foldl (fun k j => if mark j then insNat k (a / 64 + j) else delNat k (a / 64 + j)) x.marks }) s

/-- Element format of a binding. -/
def Bind.ff (b : Bind) : FF := if b.fmt = 0 then .f32 else if b.fmt = 1 then .bf16 else .f16

/-- Element size of a binding. -/
def Bind.size (b : Bind) : Nat := if b.fmt = 0 then 4 else 2

/-- Elements of a row as fp32 (R279). -/
def Bind.elems (b : Bind) (bs : List Byte) : List Nat :=
  (List.range (b.rowBytes / b.size)).map fun i => FF.cvt b.ff .f32 (leNat ((bs.drop (i * b.size)).take b.size))

/-- Bytes of a row of fp32 results in a binding's format (R279). -/
def Bind.bytes (b : Bind) (es : List Nat) : List Byte := (es.map fun e => leBytes b.size (FF.cvt .f32 b.ff e)).flatten

/-- The ordered tree of a row's elements (R206), in fp32. -/
def rowTree (xs : List Nat) : Nat := (treeSum f32add 40 (xs.map some)).getD 0

/-- ACT RELU and SIGMUL (Table 12.7). -/
def actElem (fn k1 a : Nat) : Nat :=
  let v := FF.f32.decode a
  if fn = 0 then (if v.isNan then FF.f32.nan else if ltFV (.fin false 0 0) v then a else 0)
  else
    let t := f32mul k1 a
    let u := f32mul (FF.f32.round (negFV (FF.f32.decode t))) 0x3FB8AA3B
    f32mul a (f32fn rcpFV (f32add 0x3F800000 (f32fn exp2FV u)))

/-- Two rows element by element. -/
def zipElems (f : Nat → Nat → Nat) (a b : List Nat) : List Nat := List.zipWith f a b

/-- The result of a step on one row (Table 12.7). -/
def stepRow (x : Nat) (a b c : List Nat) : List Nat :=
  let op := bits x 0 8
  let fn := bits x 8 4
  let k1 := bits x 64 32
  let k2 := bits x 96 32
  if op = 1 then a
  else if op = 2 then a.map fun e => f32add (f32mul e k1) k2
  else if op = 3 then zipElems f32mul a b
  else if op = 4 then zipElems f32add a b
  else if op = 5 then zipElems f32add (zipElems f32mul a b) c
  else if op = 6 then a.map (actElem fn k1)
  else if op = 7 then
    let r := f32fn rsqrtFV (f32add (f32divNat (rowTree (a.map fun e => f32mul e e)) a.length) k1)
    zipElems f32mul (a.map fun e => f32mul e r) b
  else
    let mu := f32divNat (rowTree a) a.length
    let d := a.map fun e => f32sub e mu
    let r := f32fn rsqrtFV (f32add (f32divNat (rowTree (d.map fun e => f32mul e e)) a.length) k1)
    zipElems f32add (zipElems f32mul (d.map fun e => f32mul e r) b) c

/-- Operand bindings of a step: A, B, C as its OP uses them (Table 12.7). -/
def stepUses (x : Nat) : List Nat :=
  let op := bits x 0 8
  if op = 0 then []
  else [bits x 20 4] ++ (if op = 3 || op = 4 || op = 5 || op = 7 || op = 8 then [bits x 24 4] else [])
    ++ (if op = 5 || op = 8 then [bits x 28 4] else [])

/-- Output binding of a step. -/
def stepOut (x : Nat) : Nat := bits x 16 4

/-- The binding for which a step breaks R280, if any. -/
def stepFault (bs : List Bind) (x : Nat) : Option Nat :=
  if x = 0 then none else
  match bs[stepOut x]? with
  | none => some (stepOut x)
  | some d =>
    if !d.work then some (stepOut x) else
    let op := bits x 0 8
    let us := stepUses x
    (List.range us.length).findSome? fun i =>
      match bs[us.getD i 0]? with
      | none => some (us.getD i 0)
      | some b =>
        if b.rowBytes / b.size != d.rowBytes / d.size || (b.rows != d.rows && b.rows != 1) || ((op = 7 || op = 8) && 0 < i && b.rows != 1)
        then some (us.getD i 0) else none

/-- A row operand: row r, or the only row of a single-row binding. -/
def operandRow (s : State) (w : NbuRun) (i r : Nat) : List Nat × Bool :=
  match w.binds[i]? with
  | none => ([], false)
  | some b =>
    let (x, p) := bindRow s w b (if b.rows = 1 then 0 else r)
    (b.elems x, p)

/-- Rows of D in the homes of a unit (R281). -/
def homeRows (units u : Nat) (d : Bind) : List Nat :=
  (List.range d.rows).filter fun r => d.tiles.getD (d.at_ r).1 0 % units = u

/-- Module byte address of a row of a WORK binding. -/
def Bind.rowAddr (b : Bind) (r : Nat) : Nat :=
  let (i, o) := b.at_ r
  b.tiles.getD i 0 * tileBytes + o

/-- A unit computes its rows of a step from the operands as they were at its START, so that neither the order of rows nor that of units shows (R279 to R281, R285; log entry 36); answers the poisoned rows. -/
def unitStep (m units u : Nat) (w : NbuRun) (x : Nat) (s : State) : Nat × State :=
  match w.binds[stepOut x]? with
  | none => (0, s)
  | some d =>
    (homeRows units u d).foldl (fun acc r =>
      let us := (stepUses x).map fun i => operandRow s w i r
      let g (i : Nat) : List Nat := (us.getD i ([], false)).1
      let p := us.any (·.2)
      (acc.1 + bitOf p, nbuStore m (d.rowAddr r) (d.bytes (stepRow x (g 0) (g 1) (g 2))) (fun _ => p) acc.2)) (0, s)

/-- A row of a binding is unknown: its bytes and its marks are free. -/
def unknownRow (m : Nat) (d : Bind) (r : Nat) (s : State) : State :=
  let (b, s) := drawBytes d.rowBytes s
  let (k, s) := drawNat s
  nbuStore m (d.rowAddr r) b (fun j => k.testBit j) s

/-- Rows of a unit from the `n`-th on are unknown (Table 12.3). -/
def unknownRows (m units u n : Nat) (bs : List Bind) (x : Nat) (s : State) : State :=
  match bs[stepOut x]? with
  | none => s
  | some d => ((homeRows units u d).drop n).foldl (fun s r => unknownRow m d r s) s

/-- Every row that a run has written, by its in-copies and its steps up to the present one, is unknown (R286). -/
def unknownRun (m : Nat) (w : NbuRun) (s : State) : State :=
  let out := (List.range (w.step + 1)).map fun i => stepOut (stepOf (nbuOf s m) (16 * w.allot + i))
  ((w.ins.map Prod.snd ++ out).foldl insNat []).foldl (fun s i => match w.binds[i]? with
    | some d => (List.range d.rows).foldl (fun s r => unknownRow m d r s) s
    | none => s) s

/-- KiB that a step moved over the module bus, from the homes of its bindings (Table 12.16). Homes of region tiles follow from module tile addresses, which the spec leaves to the switch: a free value. -/
def busKib (m units : Nat) (bs : List Bind) (x : Nat) (s : State) : Nat × State :=
  match bs[stepOut x]? with
  | none => (0, s)
  | some d =>
    let per := (stepUses x).foldl (fun (acc : Nat × State) i =>
      match bs[i]? with
      | none => acc
      | some b =>
        let home (r : Nat) : Nat := b.tiles.getD (b.at_ r).1 0 % units
        let us := (List.range units).filter fun u => !(homeRows units u d).isEmpty
        let most := if b.rows = 1 then us.length * b.rowBytes else d.rows * b.rowBytes
        if b.work then
          let n := if b.rows = 1 then (us.filter (· != home 0)).length
                   else ((List.range d.rows).filter fun r => home r != d.tiles.getD (d.at_ r).1 0 % units).length
          (acc.1 + n * b.rowBytes, acc.2)
        else
          let (f, s) := drawNat acc.2
          (acc.1 + f % (most / b.rowBytes + 1) * b.rowBytes, s)) (0, s)
    let _ := m
    (per.1 / 1024, per.2)

/-! ### Runs -/

/-- Binding b of a run block (Table 12.10). -/
def blockBind (bs : List Byte) (base b : Nat) : Bind :=
  let o := 64 + 16 * b
  let work := fieldAt bs (o + 14) 1 = 1
  let x : Bind := ⟨work, fieldAt bs o 8, fieldAt bs (o + 8) 4, fieldAt bs (o + 12) 1, fieldAt bs (o + 13) 1, []⟩
  if work then { x with tiles := (List.range x.count).map fun i => base + x.off / tileBytes + i } else x

/-- A field of Table 12.10 breaks its values, or a WORK binding runs past its allotment of `tiles`. -/
def blockBad (bs : List Byte) (tiles : Option Nat) : Bool :=
  let n := bits (fieldAt bs 0 1) 0 5
  let ins := bits (fieldAt bs 1 1) 0 4
  let outs := bits (fieldAt bs 1 1) 4 4
  32 ≤ fieldAt bs 0 1 || n = 0 || 16 < n || 4 < ins || 4 < outs
    || !((bs.drop 2).take 62).all (· == 0) || !((bs.drop 448).take 64).all (· == 0)
    || ((List.range n).any fun b =>
        let o := 64 + 16 * b
        let x := blockBind bs 0 b
        x.rows = 0 || 16777216 < x.rows || x.rowLog2 < 6 || 16 < x.rowLog2 || 2 < x.fmt || 1 < fieldAt bs (o + 14) 1 || fieldAt bs (o + 15) 1 != 0
          || x.off % x.rowBytes != 0 || (x.work && tiles.any fun t => t * tileBytes < x.off + x.rows * x.rowBytes))
    || (List.range (ins + outs)).any fun c =>
        let o := 320 + 16 * c
        fieldAt bs o 8 % 64 != 0 || n ≤ fieldAt bs (o + 8) 1 || !(blockBind bs 0 (fieldAt bs (o + 8) 1)).work || fieldAt bs (o + 9) 7 != 0

/-- Tiles of a pooled-memory range in a source's view, with their regions and places; none outside every region. -/
def viewTiles (s : State) (src off n : Nat) : List (Option (Nat × Region × Nat × Place)) :=
  (List.range n).map fun i =>
    let o := (off / tileBytes + i) * tileBytes
    (regionAt s o).map fun (k, r) =>
      let t := tileOf r (viewFor s k r src) (granuleOf r o)
      (k, r, t, placeOf s r t)

/-- Is a tile on its way between tiers? -/
def inTransit (s : State) (t : Nat) : Bool := s.pool.hints.any fun h => h.2.moves.any fun m => m.tile = t

/-- A REGION binding may be used by a run on a module (R283, check 4). -/
def bindPermitted (s : State) (m src t : Nat) (b : Bind) : Bool :=
  b.work || (mayRead s src t b.off (b.rows * b.rowBytes) && (viewTiles s src b.off b.count).all fun x => match x with
    | some (_, r, i, p) => p = .t1 m && !inTransit s i && !r.coded && !r.coherent
    | none => false)

/-- Field check of NBU.RUN (Table 12.9). -/
def fieldsNbuRun (d : Desc) : Option Nat :=
  if !onlyFields d [(16, 0, 3), (17, 0, 4), (18, 0, 14), (20, 0, 32), (24, 0, 64)] || opf d 24 0 64 % 64 != 0 then some stBadField else none

/-- Steps of an allotment's program up to END. -/
def programOf (x : Nbu) (a : Nat) : List Nat := ((List.range 16).map fun i => stepOf x (16 * a + i)).takeWhile (· != 0)

/-- A run joins the queue of its module; its tent wakes if it had none waiting (R284, R296). -/
def joinQueue (m : Nat) (r : NbuRun) (s : State) : State :=
  updNbu m (fun x => { x with
    queue := x.queue ++ [r]
    tags := if x.queue.any (·.tent = r.tent) then x.tags else put x.tags r.tent x.v }) s

/-- Body of NBU.RUN: the checks of R283 in order. -/
def bodyNbuRun (d : Desc) (c : CRef) (s : State) : State :=
  let m := opf d 16 0 3
  let a := opf d 17 0 4
  let src := opf d 18 0 14
  let t := dtent d
  let al := allotOf s m a
  let (r, s1) := engRead src t (opf d 24 0 64) 512 s
  let bs := (r.map (·.data)).getD []
  let n := bits (fieldAt bs 0 1) 0 5
  let ins := bits (fieldAt bs 1 1) 0 4
  let outs := bits (fieldAt bs 1 1) 4 4
  let binds := (List.range n).map fun b => blockBind bs ((al.map (·.2.2)).getD 0) b
  let copy (i : Nat) : Nat × Nat := (fieldAt bs (320 + 16 * i) 8, fieldAt bs (328 + 16 * i) 1)
  let inc := (List.range ins).map copy
  let outc := (List.range outs).map fun i => copy (ins + i)
  let len (b : Nat) : Nat := (binds[b]?).elim 0 fun x => x.rows * x.rowBytes
  if r.isSome && blockBad bs (al.map (·.2.1)) then reject c stBadField s1
  else if nbuUnits s m = 0 || al.isNone || !clapOk s (some t) (opf d 20 0 32) then reject c stNotFound s1
  else if (al.map (·.1)) != some t then reject c stNotOwner s1
  else if r.isNone then reject c stNotPermitted s1
  else match (List.range n).find? fun b => !((binds[b]?).all (bindPermitted s m src t)) with
  | some b => complete c stNotPermitted b 0 s1
  | none =>
    match (inc.find? fun x => !mayRead s src t x.1 (len x.2)).or
        (outc.find? fun x => !mayGateWrite s src t x.1 (len x.2)) with
    | some x => complete c stNotPermitted x.2 0 s1
    | none =>
      match (programOf (nbuOf s m) a).findSome? (stepFault binds) with
      | some b => complete c stBadField b 0 s1
      | none =>
        if 4096 < binds.foldl (fun a b => a + b.count) 0 || 64 ≤ (nbuOf s m).queue.length then reject c stNoResource s1
        else if !pdOn s (pdTray m) then reject c stPowerOff s1
        else joinQueue m { cref := c, tent := t, allot := a, source := src, clapper := clapName (opf d 20 0 32), binds := binds, ins := inc, outs := outc } s1

/-- Clear an allotment: zeros, its key out of the module, its store slot END, whatever an NBU.PROGRAM in progress has sent (R274). -/
def clearAllot (m n tiles base : Nat) (s : State) : State :=
  let id := 2 * (16 * m + n) + 1
  let x := nbuOf s m
  let ks := (x.keys.filter (·.2 = id)).map Prod.fst
  let u := nbuUnits s m
  let s := updNbu m (fun x => { x with
    mem := zeroBytes x.mem (base * tileBytes) (tiles * tileBytes)
    marks := x.marks.filter fun l => !(base * 1024 ≤ l && l < (base + tiles) * 1024)
    keys := x.keys.filter (·.2 != id), prog := setSlot n [] x.prog
    programs := x.programs.map fun p => if p.allot = n then { p with steps := [] } else p }) s
  if u = 0 then s else pushDown m (ks.map (fun k => (nbuMsg 5 0xFF k 0 0 [], .plain)) ++ slotMsgs u n [] .plain) s

/-- A run ends: the module is free, its command completes, then CLAPPER (R285). -/
def endRun (m : Nat) (r : NbuRun) (st result : Nat) (s : State) : State :=
  let s := releaseRunTiles (updNbu m (fun x => { x with running := none }) s)
  let fails := st = stTimeout || st = stAborted || 2 ≤ result % 256
  let s := if st = stSuccess then bump .tryNbuStats m 16 16 1 s else s
  let s := if fails then bump .tryNbuStats m 0 16 1 s else s
  let s := complete r.cref st 0 result s
  let s := if st = stSuccess then clapOpt r.clapper 1 s else s
  if r.aborting then (match allotOf s m r.allot with | some (_, n, b) => clearAllot m r.allot n b s | none => s) else s

/-- RESULT of NBU.RUN (Table 12.9). -/
def runResult (r : NbuRun) (status fail : Nat) : Nat := place r.poisonRows 32 32 ||| place fail 16 8 ||| status

/-- Run the out-copies and end the run (R285). -/
def runOuts (m : Nat) (r : NbuRun) : List (Nat × Nat) → State → State
  | [], s => endRun m r stSuccess (runResult r (if r.poisoned then 1 else 0) 0) s
  | (a, i) :: rest, s =>
    match r.binds[i]? with
    | none => runOuts m r rest s
    | some b =>
      let n := b.rows * b.rowBytes
      let x := nbuOf s m
      let lo := b.rowAddr 0
      let marks := (List.range (n / 64)).foldl (fun k j => if x.marks.contains (lo / 64 + j) then k ||| 2 ^ j else k) 0
      let refused := mayGateWrite s r.source r.tent a n && !mayWrite s r.source r.tent a n
      match engWriteS r.source r.tent a (readBytes x.mem lo n) s marks with
      | (true, s) => runOuts m r rest s
      | (false, s) => endRun m r stSuccess (runResult r (if refused then 3 else 4) 0) s

/-- START the next step, with the limit that TRY_NBU_CTL gives now, or go on to the out-copies at END (R285, R286, R292). -/
def runStep (m : Nat) (r : NbuRun) (s : State) : State :=
  if 16 ≤ r.step || stepOf (nbuOf s m) (16 * r.allot + r.step) = 0 then runOuts m r r.outs s
  else
    let (now, s) := clock s
    let s := updNbu m (fun x => { x with running := some { r with
      left := List.range (nbuUnits s m), failed := false, limit := now + fld s .tryNbuCtl 0 16 16 * 1000000, seen := x.mem, seenMarks := x.marks } }) s
    pushDown m [(nbuMsg 3 0xFF 0 0 (16 * r.allot + r.step) [], .start)] s

/-- Run the in-copies, then the first step (R285). -/
def runIns (m : Nat) (r : NbuRun) : List (Nat × Nat) → State → State
  | [], s => runStep m r s
  | (a, i) :: rest, s =>
    match r.binds[i]? with
    | none => runIns m r rest s
    | some b =>
      match engRead r.source r.tent a (b.rows * b.rowBytes) s with
      | (none, s) => endRun m r stSuccess (runResult r 4 0) s
      | (some x, s) => runIns m r rest (nbuStore m (b.rowAddr 0) x.data (fun j => x.mask.testBit j) s)

/-- Keys that a run needs: identity of the memory key, and device key slot (R275, R276). -/
def keysOf (s : State) (m : Nat) (r : NbuRun) : List (Nat × Nat) :=
  r.binds.foldl (fun l b =>
    let k := if b.work then (2 * (16 * m + r.allot) + 1, ((tent s r.tent).map (·.slot)).getD 0)
             else match s.pool.regions.find? fun e => e.2.base ≤ b.off && b.off < e.2.base + e.2.size with
               | some (_, x) => (2 * (x.ext * 2 ^ 32 + x.keyGen), x.slot)
               | none => (0, 0)
    if l.contains k then l else l ++ [k]) []

/-- Load the keys that are missing: a free module slot, else one whose key the run does not need (R276, Table 14.5). -/
def loadKeys (m : Nat) (need : List (Nat × Nat)) : List (Nat × Nat) → State → State
  | [], s => s
  | (id, slot) :: rest, s =>
    let x := nbuOf s m
    if x.keys.any (·.2 = id) then loadKeys m need rest s else
    let ok (k : Nat) : Bool := (find x.keys k).all fun i => !need.any (·.1 = i)
    let pick := match firstFree x.keys 0 16 with
      | some k => some (k, s)
      | none => drawFree ok 0 16 s
    match pick with
    | none => loadKeys m need rest s
    | some (k, s) =>
      let s := updNbu m (fun x => { x with keys := put x.keys k id }) s
      let s := emit (.gate m (leBytes 1 2 ++ [(0 : Byte)] ++ leBytes 2 (k ||| slot <<< 8) ++ List.replicate 12 (0 : Byte))) s
      let (ks, s) := (List.range (2 * nbuUnits s m)).foldl (fun (acc : List (List Byte × NbuWait) × State) i =>
        let (b, s) := drawBytes 40 acc.2
        (acc.1 ++ [(nbuMsg 4 (i / 2) (k ||| (i % 2) <<< 4) 40 0 b, .plain)], s)) ([], s)
      loadKeys m need rest (pushDown m ks s)

/-- BIND and MAP messages of a run for every unit (Tables 12.4 and 12.5); map entries of region tiles are module tile addresses, free values. -/
def bindMsgs (m : Nat) (r : NbuRun) (s : State) : List (List Byte × NbuWait) × State :=
  let x := nbuOf s m
  let (tiles, s) := r.binds.foldl (fun (acc : List Nat × State) b =>
    b.tiles.foldl (fun (acc : List Nat × State) t =>
      if b.work then (acc.1 ++ [t], acc.2) else
      let (f, s) := drawNat acc.2
      (acc.1 ++ [f % 2 ^ 32], s)) acc) ([], s)
  let key (b : Bind) : Nat :=
    let id := if b.work then 2 * (16 * m + r.allot) + 1 else
      match s.pool.regions.find? fun e => e.2.base ≤ b.off && b.off < e.2.base + e.2.size with
      | some (_, y) => 2 * (y.ext * 2 ^ 32 + y.keyGen)
      | none => 0
    ((x.keys.find? (·.2 = id)).map Prod.fst).getD 0
  let one (first : Nat) (b : Bind) : List Byte :=
    leBytes 2 first ++ leBytes 2 b.count ++ leBytes 4 b.rows ++ leBytes 1 b.rowLog2 ++ leBytes 1 b.fmt ++ leBytes 1 (key b) ++ leBytes 1 (bitOf b.work)
      ++ leBytes 2 (b.off % tileBytes / 64) ++ [0, 0]
  let firsts := (List.range r.binds.length).map fun i => (r.binds.take i).foldl (fun a b => a + b.count) 0
  let us := List.range (nbuUnits s m)
  let bm := (us.map fun u => (List.range r.binds.length).map fun i =>
    (nbuMsg 1 u (0x100 + 16 * i) 16 0 ((r.binds[i]?).elim [] (one (firsts.getD i 0))), NbuWait.plain)).flatten
  let mm := (us.map fun u => (List.range ((tiles.length + 1) / 2)).map fun i =>
    (nbuMsg 1 u (0x2000 + 8 * i) 8 0 (leBytes 4 (tiles.getD (2 * i) 0) ++ leBytes 4 (tiles.getD (2 * i + 1) 0)), NbuWait.plain)).flatten
  (bm ++ mm, s)

/-- A run leaves the queue: its REGION tiles are resolved in its source's view (R284). A tile that no longer lies in the module's tier 1 ends the run as a failed step. -/
def startRun (m : Nat) (r : NbuRun) (s : State) : State :=
  let r := { r with binds := r.binds.map fun b =>
    if b.work then b else { b with tiles := (viewTiles s r.source b.off b.count).map fun x => (x.map fun y => y.2.2.1).getD 0 } }
  let here := r.binds.all fun b => b.work || (viewTiles s r.source b.off b.count).all fun x => x.any fun y => y.2.2.2 = .t1 m
  let s := updNbu m (fun x => { x with running := some r }) s
  if !here then endRun m r stSuccess (runResult r 2 0) s else
  let s := loadKeys m (keysOf s m r) (keysOf s m r) s
  let (ms, s) := bindMsgs m r s
  runIns m r r.ins (pushDown m ms s)

/-- RUN_DEQUEUE: the free module takes the run of the tent with the least start tag (R284, R296). -/
def execRunDequeue (tray : BitVec 3) (s : State) : Res :=
  fabricDo (fun s =>
    let m := tray.toNat
    let x := nbuOf s m
    if x.running.isSome || x.resetting || nbuUnits s m = 0 || !trayUp s m then s else
    match least (x.tags.map fun e => (e.2, e.1)) with
    | none => s
    | some (tag, t) =>
      match takeFirst (fun r : NbuRun => r.tent = t) x.queue with
      | none => s
      | some (r, rest) =>
        let s := updNbu m (fun x => { x with
          queue := rest, v := tag
          tags := if rest.any (·.tent = t) then put x.tags t (tag + tagUnit / tentWeight s t) else del x.tags t }) s
        startRun m r s) s

/-- A unit has finished its step: its rows are written; with the last unit the run goes on (R285). -/
def stepAnswer (m u status : Nat) (r : NbuRun) (s : State) : State :=
  let x := stepOf (nbuOf s m) (16 * r.allot + r.step)
  let units := nbuUnits s m
  let (k, s) := if status ≤ 1 then unitStep m units u r x s else (0, s)
  let s := if status = 5 then
      let (f, s) := drawNat s
      unknownRows m units u (match r.binds[stepOut x]? with | some d => f % ((homeRows units u d).length + 1) | none => 0) r.binds x s
    else s
  let more := if status = 1 && k = 0 then 1 else k
  let r := { r with left := delNat r.left u, failed := r.failed || 1 < status, poisoned := r.poisoned || 0 < more, poisonRows := r.poisonRows + more }
  if !r.left.isEmpty then updNbu m (fun y => { y with running := some r }) s
  else
    let (kib, s) := busKib m units r.binds x s
    let s := bump .tryNbuStats m 32 32 kib s
    if r.aborting then endRun m r stAborted 0 s
    else if r.failed then endRun m r stSuccess (runResult r 2 (16 * r.allot + r.step)) s
    else runStep m { r with step := r.step + 1 } s

/-- STEP_DONE (R277, R285). -/
def execStepDone (tray : BitVec 3) (body : BitVec 512) (s : State) : Res :=
  fabricDo (fun s =>
    let m := tray.toNat
    let tag := upTag body
    match find (nbuOf s m).waits tag, (nbuOf s m).running with
    | some (_, .start), some r =>
      if r.tag = tag && r.left.contains (upUnit body) then stepAnswer m (upUnit body) (upStatus body) r (answered m tag s)
      else answered m tag s
    | some _, _ => answered m tag s
    | none, _ => s) s

/-! ### Acknowledgements, resets -/

/-- ACK (R277). -/
def execAck (tray : BitVec 3) (body : BitVec 512) (s : State) : Res :=
  .next (let m := tray.toNat
    match find (nbuOf s m).waits (upTag body) with
    | some (_, .program c) => programAck m c (answered m (upTag body) s)
    | some _ => answered m (upTag body) s
    | none => s)

/-- The row of Table 12.13, counted from 0, that the answer to a read of UNIT_ID or UNIT_CAPS fails, if any: 0 Units, 1 Local rate, 2 Bus, 3 Row buffer, 4 Register area (Table 12.4). -/
def capsFault (units : Nat) (caps : Bool) (u st v : Nat) : Option Nat :=
  if st != 0 then some 4
  else if caps then
    if bits v 56 8 < 8 then some 1 else if bits v 48 8 < 32 then some 2 else if bits v 32 16 < 128 then some 3
    else if bits v 0 32 != 0 then some 4 else none
  else if bits v 16 4 + 1 != units || bits v 20 4 != u then some 0
  else if bits v 24 8 != 1 || bits v 0 16 != 0 then some 4 else none

/-- The module fails a row of Table 12.13: it stays admitted with UNITS 0, and the item is logged (R291). -/
def failUnits (m item : Nat) (s : State) : State :=
  if (tray s m).units = 0 then s else
  ras 0x09 2 none (selfNode s) (Config.itemCode item) m (updNbu m (fun x => { x with probes := 0 }) (updTray m (fun t => { t with units := 0 }) s))

/-- REG_DATA: the answer to a read of the admission check. UNIT_CAPS gives the local and bus rates; the units are usable once every answer has met Table 12.13 (R291). -/
def execRegData (tray : BitVec 3) (body : BitVec 512) (s : State) : Res :=
  .next (let m := tray.toNat
    match find (nbuOf s m).waits (upTag body) with
    | some (_, .probe caps u) =>
      let v := bits body.toNat 128 64
      let s := answered m (upTag body) s
      match capsFault (Machine.tray s m).units caps u (upStatus body) v with
      | some i => failUnits m i s
      | none => updNbu m (fun x => if caps then { x with probes := x.probes - 1, unitGbps := bits v 56 8, busGbps := bits v 48 8 } else { x with probes := x.probes - 1 }) s
    | some _ => answered m (upTag body) s
    | none => s)

/-- CAL: a unit begins or ends its calibration (R289). -/
def execCal (tray : BitVec 3) (body : BitVec 512) (s : State) : Res :=
  .next (updNbu tray.toNat (fun x => { x with cal := if body.toNat.testBit 128 then insNat x.cal (upUnit body) else delNat x.cal (upUnit body) }) s)

/-- The step in progress is cut off: rows of units that have not answered are unknown (R286). -/
def cutStep (m : Nat) (r : NbuRun) (s : State) : State :=
  r.left.foldl (fun s u => unknownRows m (nbuUnits s m) u 0 r.binds (stepOf (nbuOf s m) (16 * r.allot + r.step)) s) s

/-- The running run ends with a status and RESULT 0. -/
def killRun (m st : Nat) (s : State) : State :=
  match (nbuOf s m).running with
  | none => s
  | some r => endRun m r st 0 (cutStep m r s)

/-- What a module forgets in a reset (R287), and messages of the run it ended. -/
def forgetModule (m : Nat) (s : State) : State :=
  let plain (w : NbuWait) : NbuWait := if w = .start then .plain else w
  updNbu m (fun x => { x with
    prog := [], keys := [], cal := [], programs := x.programs.map fun p => { p with steps := [] }
    down := x.down.filter fun e => match e.2 with | .program _ | .probe .. => true | _ => false
    waits := x.waits.map fun e => (e.1, e.2.1, plain e.2.2) }) s

/-- A module reset begins (R287). -/
def moduleReset (m : Nat) (s : State) : State :=
  let s := forgetModule m (killRun m stAborted s)
  pushDown m [(nbuMsg 6 0xFF 0 0 0 [], .reset)] (updNbu m (fun x => { x with resetting := true }) s)

/-- RESET_DONE (R287). -/
def execResetDone (tray : BitVec 3) (body : BitVec 512) (s : State) : Res :=
  .next (let m := tray.toNat
    match find (nbuOf s m).waits (upTag body) with
    | some (_, .reset) =>
      let s := answered m (upTag body) s
      let cs := (nbuOf s m).resets
      cs.foldl (fun s c => reject c stSuccess s) (updNbu m (fun x => { x with resetting := false, resets := [] }) s)
    | _ => s)

/-- NBU_ACK_TIMEOUT: 10 µs without the answer to a message, 1 ms without RESET_DONE (R277, R282, Table 12.11). A read of the admission check left unanswered fails the Channel row of Table 12.13 (R291). -/
def execNbuAckTimeout (tray : BitVec 3) (tag : BitVec 16) (s : State) : Res :=
  .next (let m := tray.toNat
    let drop (s : State) : State := sendDown m 17 (updNbu m (fun x => { x with waits := del x.waits tag.toNat }) s)
    match find (nbuOf s m).waits tag.toNat with
    | some (_, .program c) => endProgram m c stTimeout (drop s)
    | some (_, .reset) => (nbuOf s m).resets.foldl (fun s c => reject c stTimeout s) (updNbu m (fun x => { x with resets := [] }) (drop s))
    | some (_, .probe ..) => failUnits m 5 (drop s)
    | some (_, .plain) => drop s
    | _ => s)

/-- STEP_TIMEOUT: STEP_TIMEOUT_MS has passed since the START of a step that some unit has not done. What the run wrote is unknown, the run ends with TIMEOUT, and the module is reset (R286). -/
def execStepTimeout (tray : BitVec 3) (s : State) : Res :=
  .next (let m := tray.toNat
    match (nbuOf s m).running with
    | some r => if r.left.isEmpty then s else moduleReset m (killRun m stTimeout (unknownRun m r (clockTo r.limit s)))
    | none => s)

/-- NBU.PROGRAM (R282). -/
def execNbuProgram (q : QId) (d : Desc) (s : State) : Res := .next (runI q d { any := true } (behindFuse 3 fieldsNbuProgram) (orLater s (bodyNbuProgram d)) s)

/-- NBU.RUN (R283). -/
def execNbuRun (q : QId) (d : Desc) (s : State) : Res := .next (runI q d { any := true } (behindFuse 3 fieldsNbuRun) (orLater s (bodyNbuRun d)) s)

/-- Body of NBU.RESET (Table 12.11). -/
def bodyNbuReset (d : Desc) (c : CRef) (s : State) : State :=
  let m := opf d 16 0 3
  if !(tray s m).admitted then reject c stNotFound s
  else if !pdOn s (pdTray m) then reject c stPowerOff s
  else
    let s := updNbu m (fun x => { x with resets := x.resets ++ [c] }) s
    if (nbuOf s m).resetting && (nbuOf s m).waits.any (·.2.2 = .reset) then s else moduleReset m s

/-- NBU.RESET (R287). -/
def execNbuReset (q : QId) (d : Desc) (s : State) : Res :=
  .next (runI q d { any := false } (fun d => if onlyFields d [(16, 0, 3)] then none else some stBadField) (bodyNbuReset d) s)

/-! ### Ends from outside -/

/-- Runs of a fenced tent end with ABORTED, the running one after its step, and its allotments are cleared (Table 12.12). -/
def fenceNear (t : Nat) (s : State) : State :=
  (List.range 8).foldl (fun s m =>
    let gone := (nbuOf s m).queue.filter (·.tent = t)
    let s := updNbu m (fun x => { x with
      queue := x.queue.filter (·.tent != t), tags := del x.tags t
      running := x.running.map fun r => if r.tent = t then { r with aborting := true } else r }) s
    let s := gone.foldl (fun s r => bump .tryNbuStats m 0 16 1 (reject r.cref stAborted s)) s
    (List.range 16).foldl (fun s n => match allotOf s m n with
      | some (y, tiles, base) => if y = t then clearAllot m n tiles base s else s
      | none => s) s) s

/-- The session or the link of a module is gone: the running run ends, the module forgets keys and messages; queued runs wait unless a status ends them (Table 12.12, R287). -/
def moduleGone (m st : Nat) (queued : Bool) (s : State) : State :=
  let s := forgetModule m (killRun m st s)
  let q := (nbuOf s m).queue
  let ps := (nbuOf s m).programs
  let rs := (nbuOf s m).resets
  let s := updNbu m (fun x => { x with down := [], waits := [], programs := [], resets := [], resetting := false, probes := 0
                                       queue := if queued then [] else x.queue, tags := if queued then [] else x.tags }) s
  let s := ps.foldl (fun s p => reject p.cref stTimeout s) s
  let s := rs.foldl (fun s c => reject c stTimeout s) s
  if queued then q.foldl (fun s r =>
    let s := reject r.cref st s
    if st = stAborted then bump .tryNbuStats m 0 16 1 s else s) s else s

/-- NB_SHARE goes to every unit (R288). -/
def sendShare (m : Nat) (s : State) : State :=
  let v := fld s .tryNbuCtl 0 0 4
  pushDown m ((List.range (unitCount s m)).map fun u => (nbuMsg 1 u 0x10 8 0 (leBytes 8 v), .plain)) s

/-- A module has been admitted: its units report what they are and their rates, which are checked, and take NB_SHARE (R288, R291). -/
def nearAdmit (m : Nat) (s : State) : State :=
  let us := List.range (unitCount s m)
  let s := updNbu m (fun x => { x with probes := 2 * us.length }) s
  sendShare m (pushDown m ((us.map fun u => [(nbuMsg 2 u 0 8 0 [], .probe false u), (nbuMsg 2 u 8 8 0 [], .probe true u)]).flatten) s)

end Sys2Proof.Machine
end

