-- ==== Sys2Proof/Machine/Fence.lean ====
section
/-! DEFINITION. Fencing a tent (R319): what every kind of object does when its tent is fenced; destroying one (R318); zeroising keys (R326, R334). -/

namespace Sys2Proof.Machine

/-- Change a power domain. -/
def updDomain (d : Nat) (f : Domain → Domain) (s : State) : State :=
  { s with chip := { s.chip with domains := put s.chip.domains d (f ((find s.chip.domains d).getD {})) } }

/-- A power domain's record. -/
def domain (s : State) (d : Nat) : Domain := (find s.chip.domains d).getD {}

/-- A keeper operation leaves the domain it held. -/
def dropHold (d : Nat) (h : KHold) (s : State) : State := updDomain d (fun x => { x with holds := x.holds.erase h }) s

/-- The tent's shapers are removed (R301, Table 13.9). -/
def dropShapers (t : Nat) (s : State) : State := { s with qm := { s.qm with shapers := s.qm.shapers.filter fun e => e.2.tent != t } }

/-- EMB.ROW_REPLACE commands of a tent whose rows wait for acknowledgements end (R268). -/
def abortRows (t : Nat) (s : State) : State :=
  let mine (x : Txn) : Bool := match x.origin with | .rows .. => x.tent = t | _ => false
  let ends := (s.fab.txns.filter mine).foldl (fun l x => match x.origin with
    | .rows op c _ _ _ => if l.any fun e => e.1 = op then l else l ++ [(op, c)]
    | _ => l) []
  ends.foldl (fun s e => reject e.2 stAborted s) { s with fab := { s.fab with txns := s.fab.txns.filter fun x => !mine x } }

/-- The tent's command queues, hardware queues and shapers are removed (Table 13.9, R314). -/
def dropQueues (t : Nat) (s : State) : State :=
  let gone := (s.qm.queues.filter fun e => e.2.tent = t).map Prod.fst
  let s := { s with gaf := { s.gaf with cmdqs := s.gaf.cmdqs.filter fun e => e.1 / 16 != t } }
  gone.foldl (fun s k => removeQueue k s) (dropShapers t s)

/-- Slates of a tent that are still being hashed end with ABORTED, and nothing is written (R332, R335). -/
def abortSlates (p : Slate → Bool) (s : State) : State :=
  (s.kpr.hashing.filter p).foldl (fun s x =>
    reject x.cref stAborted (dropHold 24 (.slate x.tent) { s with kpr := { s.kpr with hashing := s.kpr.hashing.erase x } })) s

/-- Tiles in a fenced tent's tier-3 pools are freed: they lie nowhere from now on (Table 6.6). -/
def dropPools (t : Nat) (s : State) : State :=
  let ps := (List.range 16).filter fun p => (t3Pool s p).any (·.1 = t)
  { s with pool := { s.pool with
      places := s.pool.places.map fun e => match e.2 with
        | .t3 p _ => if ps.contains p then (e.1, .t3 16 0) else e
        | _ => e
      used3 := s.pool.used3.filter fun k => !ps.contains (k / 2 ^ 32) } }

/-- Fence a tent (R319): every object of it ends as its chapter says for a fenced tent, and its region keys are destroyed. -/
def fenceTent (t : Nat) (s : State) : State :=
  if !tentActive s t then s else
  let s := abortRows t (abortDecodes (fun x => x.tent = t) stAborted (dropQueues t s))
  let s := killKeys t (updTent t (fun x => { x with state := .fenced, consent := none }) s)
  let s := (regionsOf s t).foldl (fun s k => abandonIn k (fun _ => true) false false (fenceRegion k s)) s
  let s := closeReaders t (breakGuys tellNotLinked t s)
  let s := abortSlates (fun x => x.tent = t) s
  let s := ((List.range 128).filter fun k => (crewOf s k).tent = some t).foldl (fun s k => (crewCells k).foldl (fun s n => stopCell n s) s) s
  let s := ((s.win.filter fun e => e.2.tent = t).map Prod.fst).foldl (fun s w => dropWindow w s) s
  let s := fenceNear t (dropGather t s)
  let s := abortWaits (fun slot w => ((clapper s w.clapper).map (·.owner)) = some (some t) && !has s.gaf.fired slot) s
  dropPools t s

/-- Fence several tents. -/
def fenceTents (ts : List Nat) (s : State) : State := ts.foldl (fun s t => fenceTent t s) s

/-! ### TENT.DESTROY -/

/-- A region of a destroyed tent leaves the coherence domain at once: its range entry and its directory lines go. -/
def dropCoherent (k : Nat) (r : Region) (s : State) : State :=
  let entries := (List.range (Reg.cohRange.count)).filter fun i => bit (mapVal s .cohRange i) 63 && bits (mapVal s .cohRange i) 0 18 = k
  let s := entries.foldl (fun s i => setMapVal .cohRange i 0 s) s
  let s := { s with coh := { s.coh with
      dir := s.coh.dir.filter fun e => !inRegion r e.1
      txns := s.coh.txns.filter fun x => !inRegion r x.line
      queue := s.coh.queue.filter fun x => !inRegion r x.1
      flushes := s.coh.flushes.filter (· != .region k) } }
  if r.coherent then giveFree0 (dirTiles r) s else s

/-- A region of a destroyed tent is released, whatever is open on it (R318). -/
def destroyRegion (k : Nat) (s : State) : State :=
  match region s k with
  | none => s
  | some r =>
    let s := dropCoherent k r s
    let s := if has s.kpr.guys k then giveFree0 (dirtyMapTiles r) s else s
    releaseRegion k { s with kpr := { s.kpr with replicas := del s.kpr.replicas k, guys := del s.kpr.guys k } }

/-- The tent's allotments are cleared and their entries leave the map; their tiles wait for the clear engine (R274). -/
def dropAllots (t : Nat) (s : State) : State :=
  (List.range 128).foldl (fun s i => match allotOf s (i / 16) (i % 16) with
    | some (y, tiles, base) =>
      if y != t then s else
      updTray (i / 16) (fun x => { x with dirty1 := x.dirty1 + tiles }) (gateTags (i / 16) 0 tiles (setMapVal .tryNbuAllot i 0 (clearAllot (i / 16) (i % 16) tiles base s)))
    | none => s) s

/-- Tiles of a tent's regions in tier 0 and in tier 1, by store of the clear engine. -/
def tentStores (s : State) (t : Nat) : List Nat :=
  let c := (regionsOf s t).foldl (fun a k => match region s k with
    | some r => (regionCounts s r).foldl (fun a e => addCount a e.1 e.2) a
    | none => a) []
  (List.range 9).filter fun i => has c i

/-- Tiles a store has to clear before it is through with all it holds now. -/
def storeBacklog (s : State) (i : Nat) : Nat :=
  (find s.pool.graves i).getD 0 + (if i = 0 then s.pool.dirty0 else (tray s (i - 1)).dirty1)

/-- TENT.DESTROY applied (R318): the tent is fenced, its objects go in the stated order, and it clears until the last tile of its regions is zero. Its number and slot are free only after the boundary (R317, Table 14.2). -/
def applyTentDestroy (d : Desc) (s : State) : ApplyRes :=
  let t := dtent d
  match tent s t with
  | none => bad stNotFound
  | some x =>
    if x.state = .clearing then bad stNotFound else
    let stores := tentStores s t
    let s := dropShapers t (fenceTent t s)
    let s := { s with fab := { s.fab with gate := s.fab.gate.filter fun e => e.2.tent != t } }
    let s := (regionsOf s t).foldl (fun s k => destroyRegion k s) s
    let s := ((List.range 128).filter fun k => assigned s k = some t).foldl (fun s k => releaseCrew k s) s
    let s := dropAllots t s
    let s := ((s.gaf.clappers.filter fun e => e.2.owner = some t).map Prod.fst).foldl (fun s n => freeClap n s) s
    let left := (stores.map fun i => (i, storeBacklog s i)).filter (·.2 != 0)
    let s := updTent t (fun y => { y with state := .clearing, serial := 0, images := [], weights := [], clearing := left }) s
    good s

/-! ### Zeroising -/

/-- Region keys made under a slot are gone: what they encrypted reads as poisoned (R326). -/
def zeroiseSlot (k : Nat) (s : State) : State :=
  { s with pool := { s.pool with regions := s.pool.regions.map fun e => (e.1, if e.2.slot = k then { e.2 with keyDead := true } else e.2) } }

/-- The key slot of a tent. -/
def slotOfTent (s : State) (t : Nat) : Option Nat := (tent s t).map (·.slot)

/-- Zeroise the slot keys of tents, then fence the tents (R406, R334). -/
def zeroiseTents (ts : List Nat) (s : State) : State :=
  fenceTents ts (ts.foldl (fun s t => match slotOfTent s t with
    | some k => zeroiseSlot k s
    | none => s) s)

/-- All 128 slots, the device key and every module and IDE key are zeroised (R334). -/
def zeroiseAll (s : State) : State :=
  { s with
    kpr := { s.kpr with slots := [], deviceKey := false, spdm := 0 }
    pool := { s.pool with regions := s.pool.regions.map fun e => (e.1, { e.2 with keyDead := true }) }
    fab := { s.fab with ports := s.fab.ports.map fun e => (e.1, { e.2 with ideUp := false }) }
    nbu := s.nbu.map fun e => (e.1, { e.2 with keys := [] }) }

end Sys2Proof.Machine
end

