-- ==== Sys2Proof/Machine/Slate.lean ====
section
/-! DEFINITION. The slate (R332), the SPDM responder (R383), the operator window through BAR2 (R384), and JTAG access (Table 14.11). -/

namespace Sys2Proof.Machine

/-! ### Slate blocks (Table 14.9) -/

/-- STATE code of a source (Table 14.9, block 5): AUTHENTICATED, PENDING, FAILED, MISMATCH. -/
def AuthState.code : AuthState → Nat
  | .authenticated => 0
  | .pending => 1
  | .failed => 2
  | .mismatch => 3

/-- STATE code of a tent (Table 14.19). -/
def TentState.code : TentState → Nat
  | .active => 0
  | .fenced => 1
  | .clearing => 2

/-- Range-gate entries of a tent in index order, as bytes. -/
def gateBytes (s : State) (t : Nat) : List Byte :=
  ((s.fab.gate.filter fun e => e.2.tent = t).map fun e =>
    leBytes 2 e.1 ++ leBytes 2 e.2.source ++ leBytes 1 (place (bitOf e.2.edge) 3 1 ||| place (bitOf e.2.eng) 2 1 ||| place (bitOf e.2.wr) 1 1 ||| bitOf e.2.rd)
      ++ leBytes 2 e.2.target ++ leBytes 8 e.2.base ++ leBytes 8 e.2.size).flatten

/-- Crews assigned to a tent, one bit each. -/
def crewMask (s : State) (t : Nat) : Nat := ((List.range 128).filter fun k => assigned s k = some t).foldl (fun a k => a ||| 2 ^ k) 0

/-- Blocks 1 to 4: the device. -/
def deviceBlocks (s : State) : List (List Byte) :=
  [Config.chainDigest, leBytes 2 0x100 ++ Config.romDigests,
   leBytes 2 Config.fuseFeatures.toNat ++ leBytes 1 Config.fuseDebug.toNat,
   leBytes 4 s.chip.count ++ leBytes 1 (bitOf s.kpr.lockdown)]

/-- Blocks 5 to 8: the tent, its images, its weights, its consent at a model time. -/
def tentBlocks (s : State) (t : Nat) (x : Tent) (now : Nat) : List (List Byte) :=
  let srcs := (x.sources.map fun y => leBytes 2 y.node ++ leBytes 1 y.port ++ leBytes 1 y.auth.code ++ y.digest.getD (List.replicate 48 0)).flatten
  let gate := gateBytes s t
  let cons := match x.consent with
    | some (e, scope, serial) => leBytes 1 1 ++ leBytes 1 scope ++ leBytes 8 serial ++ leBytes 4 ((e - now) / 1000000000)
    | none => List.replicate 14 0
  [leBytes 1 t ++ leBytes 1 x.state.code ++ leBytes 1 (bitOf x.isSealed) ++ leBytes 1 x.span ++ leBytes 1 x.stackSel ++ leBytes 1 x.seed ++ leBytes 1 x.slot
      ++ (match x.tenantKey with | some k => Config.sha384 k | none => List.replicate 48 0)
      ++ srcs ++ Config.sha384 gate ++ leBytes 2 (gate.length / 23) ++ leBytes 16 (crewMask s t),
   x.images.flatten,
   (x.weights.map fun w => leBytes 4 w.region ++ leBytes 4 w.reel ++ leBytes 1 w.state ++ w.digest).flatten,
   cons]

/-- Sign the slate and write it where the command asked (R332). -/
def slateFinish (c : CRef) (t : Nat) (source : Option Nat) (addr : Nat) (nonce : List Byte) (s : State) : State :=
  match tent s t with
  | none => reject c stAborted s
  | some x =>
    let (now, s) := clock s
    let bs := Config.slate (deviceBlocks s ++ tentBlocks s t x now) nonce
    match source with
    | none =>
      if inWindow addr bs.length then complete c stSuccess 0 (bs.length % 2 ^ 32) (windowWrite addr bs s) else reject c stNotPermitted s
    | some src =>
      match engWriteS src t addr bs s with
      | (true, s) => complete c stSuccess 0 (bs.length % 2 ^ 32) s
      | (false, s) => reject c stNotPermitted s

/-- Field check of SLATE.GET (Table 14.8, R384). -/
def fieldsSlateGet (q : QId) (d : Desc) : Option Nat :=
  if !onlyFields d [(16, 0, 16), (24, 0, 256), (56, 0, 64)] || opf d 56 0 64 % 64 != 0 then some stBadField
  else match q with
    | .operator => if inWindow (opf d 56 0 64) 1 then none else some stBadField
    | .tent _ _ => none

/-- The weight-list entry of a held reel: every byte of the region in offset order as the handle's source reads it, or POISONED with a zero digest (R332). -/
def measure (s : State) (h : Handle) (r : Region) : Weight :=
  let v := viewFor s h.region r h.source
  let ts := (List.range (granules r)).map fun g => tileOf r v g
  let bad := r.keyDead || ts.any fun t => tileLost s t || s.pool.poison.any fun k => k / 1024 = t
  if bad then ⟨h.region, h.reel, 2, List.replicate 48 0⟩
  else ⟨h.region, h.reel, 0, Config.sha384 ((ts.map fun t => tileRead s t 0 tileBytes).flatten)⟩

/-- Body of SLATE.GET (R332): a named reel is hashed first, which holds PD 24 (Table 17.14). -/
def bodySlateGet (q : QId) (d : Desc) (c : CRef) (s : State) : State :=
  let t := dtent d
  let h := opf d 16 0 16
  let source := match q with
    | .operator => none
    | .tent _ _ => (getQ s q).map (·.source)
  match tent s t with
  | none => reject c stNotFound s
  | some x =>
    if x.state != .active then reject c stAborted s
    else if h = 0xFFFF then slateFinish c t source (opf d 56 0 64) (opBytes d 24 32) s
    else match (find s.pool.handles h).filter fun y => y.tent = t && !y.writer with
    | none => reject c stNotFound s
    | some y =>
      match region s y.region with
      | none => reject c stNotFound s
      | some r =>
        if 64 ≤ x.weights.length + (s.kpr.hashing.filter (·.tent = t)).length then reject c stNoResource s
        else if !pdOn s 24 then reject c stPowerOff s
        else
          let op : Slate := ⟨c, t, measure s y r, source, opf d 56 0 64, opBytes d 24 32⟩
          updDomain 24 (fun z => { z with holds := z.holds ++ [.slate t] }) { s with kpr := { s.kpr with hashing := s.kpr.hashing ++ [op] } }

/-- SLATE.GET (R332). -/
def execSlateGet (q : QId) (d : Desc) (s : State) : Res :=
  .next (runI q d { any := true, sealedOk := true } (fieldsSlateGet q) (bodySlateGet q d) s)

/-- The hashing of the oldest slate ends: its weight-list entry is made, then the slate is signed and written (R332, Table 14.9). -/
def slateEnd (s : State) : State :=
  match s.kpr.hashing with
  | [] => s
  | x :: rest =>
    let s := dropHold 24 (.slate x.tent) { s with kpr := { s.kpr with hashing := rest } }
    let live := match region s x.weight.region with
      | some r => r.reels.any (·.num = x.weight.reel)
      | none => false
    let w := if x.weight.state = 0 && !live then { x.weight with state := 1 } else x.weight
    slateFinish x.cref x.tent x.source x.addr x.nonce (updTent x.tent (fun y => { y with weights := y.weights ++ [w] }) s)

/-! ### SPDM responder (R383) -/

/-- The responder works from boot stage 1 on, outside lockdown and halts, while PD 1 runs on the main rails. -/
def responds (s : State) : Bool :=
  !s.chip.inReset && 1 ≤ s.gaf.stage && s.kpr.deviceKey && !s.kpr.lockdown && !s.gaf.bootHalt && s.chip.sleep != 2

/-- Answer an SPDM request: the response code is the request code without bit 7; the body is SPDM 1.3's (Config.spdmAnswer). -/
def answer (code : Nat) (params : List Byte) (s : State) : State := emit (.spdm (code % 128) (Config.spdmAnswer code params)) s

/-- An SPDM ERROR response. -/
def spdmError (code : Nat) (s : State) : State := emit (.spdm 0x7F (Config.spdmAnswer 0x7F (leBytes 1 code))) s

/-- Serve an SPDM request that needs no session. -/
def respondTo (code : Nat) (params : List Byte) (s : State) : Res := .next (if responds s then answer code params s else s)

/-- GET_VERSION (R383). -/
def execGetVersion (params : List Byte) (s : State) : Res := respondTo 0x84 params s
/-- GET_CAPABILITIES (R383). -/
def execGetCapabilities (params : List Byte) (s : State) : Res := respondTo 0xE1 params s
/-- NEGOTIATE_ALGORITHMS (R383). -/
def execNegotiateAlgorithms (params : List Byte) (s : State) : Res := respondTo 0xE3 params s
/-- GET_DIGESTS (R383). -/
def execGetDigests (params : List Byte) (s : State) : Res := respondTo 0x81 params s
/-- GET_CERTIFICATE (R332, R383). -/
def execGetCertificate (params : List Byte) (s : State) : Res := respondTo 0x82 params s
/-- CHALLENGE (R383). -/
def execChallenge (params : List Byte) (s : State) : Res := respondTo 0x83 params s

/-- GET_MEASUREMENTS returns blocks 1 to 4 (R332, R383). -/
def execGetMeasurements (params : List Byte) (s : State) : Res :=
  .next (if responds s then answer 0xE0 (params ++ (deviceBlocks s).flatten) s else s)

/-- KEY_EXCHANGE opens a session (R383). -/
def execKeyExchange (params : List Byte) (s : State) : Res :=
  .next (if responds s then answer 0xE4 params { s with kpr := { s.kpr with spdm := 1 } } else s)

/-- FINISH ends the handshake of the session that KEY_EXCHANGE opened (R383). -/
def execFinish (params : List Byte) (s : State) : Res :=
  .next (if !responds s then s
    else if s.kpr.spdm = 1 then answer 0xE5 params { s with kpr := { s.kpr with spdm := 2 } } else spdmError 0xE5 s)

/-- END_SESSION ends the session (R383). -/
def execEndSession (params : List Byte) (s : State) : Res :=
  .next (if !responds s then s
    else if s.kpr.spdm = 2 then answer 0xEC params { s with kpr := { s.kpr with spdm := 0 } } else spdmError 0xEC s)

/-! ### BAR2 and JTAG -/

/-- OPERATOR_WINDOW_ACCESS: BAR2 reaches the operator window alone (R383, R384), which lies in stack 0. -/
def execOperatorWindowAccess (write : Bool) (off : BitVec 28) (len : BitVec 13) (data : List Byte) (s : State) : Res :=
  .next (let n := len.toNat
    if n = 0 || !inWindow off.toNat n || s.chip.inReset || s.gaf.stage < 1 || s.chip.sleep = 2 then s
    else if !pdOn s 4 then
      if write then s else let (bs, s) := drawBytes n s; emit (.read off.toNat bs) s
    else if write then windowWrite off.toNat ((data ++ List.replicate n 0).take n) s
    else emit (.read off.toNat (windowRead s off.toNat n)) s)

/-- DEBUG consent of a tent is active (R333). -/
def debugOpen (s : State) (t : Nat) : Bool :=
  match (tent s t).bind (·.consent) with
  | some (_, scope, _) => bit scope 0
  | none => false

/-- Tents with state in the memories of a crew. -/
def crewTents (s : State) (k : Nat) : List Nat := (crewOf s k).tent.toList

/-- Tents with tiles in tier 0. -/
def tier0Tents (s : State) : List Nat := (s.pool.regions.filter fun e => has (regionCounts s e.2) 0).map fun e => e.2.owner

/-- Answer a JTAG access to a byte: granted, the byte read or written; refused otherwise (Table 14.11, Table 19.9). -/
def jtagByte (ok : Bool) (v : Option Byte) (get : State → Byte) (set : Byte → State → State) (s : State) : State :=
  if !ok then emit (.jtag false []) s else
  match v with
  | some b => emit (.jtag true []) (set b s)
  | none => emit (.jtag true [get s]) s

/-- JTAG_ACCESS (R333, Table 14.11). -/
def execJtagAccess (op : JtagOp) (s : State) : Res :=
  .next (let mem (ts : List Nat) : Bool := !bit Config.fuseDebug.toNat 0 && ts.all (debugOpen s)
    let step (k : Nat) : Bool := !bit Config.fuseDebug.toNat 1 && !(crewTents s k).isEmpty && (crewTents s k).all (debugOpen s)
    match op with
    | .boundary => emit (.jtag true []) s
    | .crewMem k o v =>
      jtagByte (mem (crewTents s k.toNat)) v (fun s => byteAt (crewOf s k.toNat).mem o.toNat) (fun b => updCrew k.toNat fun x => { x with mem := setByte x.mem o.toNat b }) s
    | .scratch c o v =>
      jtagByte (mem (crewTents s c.crew.toNat)) v (fun s => byteAt (cellOf s (cellNum c)).scratch o.toNat)
        (fun b => updCell (cellNum c) fun x => { x with scratch := setByte x.scratch o.toNat b }) s
    | .tier0 o v =>
      match regionAt s o.toNat with
      | none => let (f, s) := drawNat s; jtagByte (mem (tier0Tents s)) v (fun _ => BitVec.ofNat 8 f) (fun _ s => s) s
      | some (_, r) =>
        let tile := tileOf r (headView r) (granuleOf r o.toNat)
        let a := (o.toNat - r.base) % tileBytes
        jtagByte (mem (tier0Tents s)) v (fun s => (tileRead s tile a 1).headD 0) (fun b => tileWrite tile a [b]) s
    | .brk c =>
      let n := cellNum c
      if step c.crew.toNat && (cellOf s n).state = .running then emit (.jtag true []) (raiseCell n cBreak (wordAt s n) 0 0 s)
      else emit (.jtag false []) s
    | .step c => emit (.jtag (step c.crew.toNat) []) s)

end Sys2Proof.Machine
end

