-- ==== Sys2Proof/Machine/MapRegs.lean ====
section
/-! DEFINITION. Map registers (R433): what a CSR.WRITE to each is validated against and does at the epoch boundary (Table 5.2, R121, R125, R273, R297, R337). -/

namespace Sys2Proof.Machine

/-- The map registers of R433. -/
def Reg.isMap : Reg → Bool
  | .cohCtl | .cohAgent | .cohRange | .cohHint | .hbcT3PoolLo | .hbcT3PoolHi | .rngRouteCtl | .tryNbuAllot
  | .qmgCtl | .qmgWeight | .gafFailDomain => true
  | _ => false

/-- A write under MASK: RW fields take the masked bits (R438). -/
def maskedWrite (r : Reg) (old v mask : Nat) : Nat :=
  let m := mask &&& r.maskBy fun a => a = .rw || a = .rwh
  ((old ||| m) ^^^ m) ||| (v &&& m)

/-- Clamps of the map registers (Tables 3.12 and 5.11). -/
def clampMap (r : Reg) (v : Nat) : Nat :=
  match r with
  | .rngRouteCtl =>
    let v := if bits v 16 16 = 0 then setBitsOf v 16 16 128 else v
    if bits v 0 8 < 4 then setBitsOf v 0 8 4 else v
  | .cohCtl => if bits v 0 16 < 10 then setBitsOf v 0 16 10 else v
  | _ => v

/-- The feature that a register named in Table 19.10 belongs to (R437, R445; log entry 19). -/
def featureOf : Reg → Option Nat
  | .cohAgent | .cohRange | .cohHint => some 0
  | .cmpWireCtl => some 2
  | .tryNbuAllot => some 3
  | .hbcT3PoolLo | .hbcT3PoolHi => some 12
  | _ => none

/-- A register is absent: a fuse disables the feature that it belongs to (R437, R445). -/
def regAbsent (r : Reg) : Bool := (featureOf r).any fused

/-- Power domain of a register (Table 19.1, R432, R433); a register of a grouped block that belongs to no group is taken to lie in PD 3. -/
def regDomain (s : State) (r : Reg) (i : Nat) : Nat :=
  if r.isMap then 3 else
  match r, r.place.1 with
  | .rstCount, _ | .rstCauseLog, _ | .rstWdogCtl, _ => 0
  | .crwSummary, _ | .crwRingLoad, _ | .xsuSummary, _ | .crwCellSel, _ | .tryNbuCtl, _ => 3
  | .crwCellFault, _ => pdCrew (fld s .crwCellSel 0 5 7)
  | .hbcEccStatus, _ => pdStack i
  | _, 1 => 1
  | _, 0 | _, 2 | _, 3 | _, 4 | _, 5 => 2
  | _, 11 => pdFabric i
  | _, 12 => pdTray i
  | _, 13 | _, 14 => pdCrew i
  | _, 15 => 23
  | _, 16 => 24
  | _, _ => 3

/-- The register's domain is OFF, STARTING, CLOCK_STOPPED or in RETAIN (R434). -/
def regOff (s : State) (r : Reg) (i : Nat) : Bool :=
  match pdState s (regDomain s r i) with
  | .off | .starting | .clockStopped | .retain => true
  | _ => false

/-! ### Coherence settings (Table 5.2) -/

/-- Do the port's role and mode admit a KIND (Table 5.1, R105)? -/
def kindAdmitted (s : State) (e : Nat) : Bool :=
  let x := port s (agPort e)
  if agKind e = 0 then edgeRole x.role && x.mode = 1
  else if agKind e = 1 then x.role = 1 && x.mode = 0
  else x.role = 2 && x.mode = 0

/-- Two agent entries cannot stand together (R105). -/
def agentClash (e f : Nat) : Bool := agPort e = agPort f && (agKind e != agKind f || agKind e != 1 || agCache e = agCache f)

/-- Validation of a COH_AGENT value (Table 5.2): the codes of any value, the rest of a valid one that changes the entry, and any write while the entry is flushed. -/
def agentFault (s : State) (a e : Nat) : Option Nat :=
  let set := agValid e && e != mapVal s .cohAgent a
  if agKind e = 3 || 19 < agPort e || (set && (!kindAdmitted s e || attachOf s (agPort e) != some (agNode e))) then some stBadField
  else if set && (tent s (agTent e)).isNone then some stNotFound
  else if set && (List.range 32).any fun b => b != a && agValid (mapVal s .cohAgent b) && agentClash e (mapVal s .cohAgent b) then some stResourceBusy
  else if fresh s (agentFlushing s a) then some stResourceBusy
  else none

/-- Region named by a valid range entry. -/
def rangeRegion (s : State) (i : Nat) : Option Nat :=
  let v := mapVal s .cohRange i
  if bit v 63 then some (bits v 0 18) else none

/-- Bytes of the coherent regions. -/
def coherentBytes (s : State) : Nat := (s.pool.regions.filter fun e => e.2.coherent).foldl (fun a e => a + e.2.size) 0

/-- Validation of a COH_RANGE value that names region k; a region already in the domain needs no new directory space. -/
def rangeFault (s : State) (i k : Nat) : Option Nat :=
  match region s k with
  | none => some stNotFound
  | some r =>
    if (List.range 16).any fun j => j != i && rangeRegion s j = some k then some stResourceBusy
    else if fresh s ((s.pool.handles.any fun h => h.2.region = k) || r.waiting.isSome) || r.gsb.isSome || r.conv.isSome || has s.kpr.guys k then some stRegionBusy
    else if fresh s (regionFlushing s k) then some stRegionBusy
    else if fresh s ((regionCounts s r).any fun e => e.1 != 0) then some stNoResource
    else if !r.coherent && (2 ^ 35 < coherentBytes s + r.size || s.pool.free0 < dirTiles r) then some stNoResource
    else none

/-- The region enters the domain: moves of its tiles are abandoned, since no migration moves its granules (R108). -/
def joinDomain (k : Nat) (s : State) : State :=
  if (region s k).any (·.coherent) then s else enterDomain k (abandonIn k (fun _ => true) false false s)

/-- At the epoch boundary: entries that were invalidated start their flushes (R118). -/
def cohBoundary (old s : State) : State :=
  let s := (List.range 32).foldl (fun s a =>
    let e := mapVal old .cohAgent a
    if agValid e && mapVal s .cohAgent a != e then startAgentFlush a e s else s) s
  (s.pool.regions.filter fun e => e.2.coherent && !regionFlushing s e.1 && (List.range 16).all fun i => rangeRegion s i != some e.1).foldl
    (fun s e => startRegionFlush e.1 s) s

/-! ### Tier-3 pools (R125) -/

/-- NODE is the ATTACH node of a host-role port. -/
def hostNode (s : State) (n : Nat) : Bool := s.fab.attach.any fun e => e.2 = n && (port s e.1).role = 2

/-- Does a valid pool pair fail validation? The pair `(lo, hi)` would be pool p. -/
def poolFault (s : State) (p lo hi : Nat) : Option Nat :=
  let node := bits lo 36 14
  let size := bits hi 0 32
  let base := bits lo 0 32
  if !hostNode s node || size = 0 then some stBadField
  else if (List.range 16).any fun q =>
      let l := mapVal s .hbcT3PoolLo q
      q != p && bit l 63 && bits l 36 14 = node && overlaps (bits l 0 32) (bits (mapVal s .hbcT3PoolHi q) 0 32) base size then some stBadField
  else if (tent s (bits lo 56 7)).isNone then some stNotFound
  else if tentSealed s (bits lo 56 7) then some stNotPermitted
  else none

/-- A write to either register of a pool. -/
def applyPool (p lo hi : Nat) (s : State) : ApplyRes :=
  let lo0 := mapVal s .hbcT3PoolLo p
  let hi0 := mapVal s .hbcT3PoolHi p
  let changed := lo != lo0 || hi != hi0
  match if bit lo 63 && changed then poolFault s p lo hi else none with
  | some st => bad st
  | none =>
    if changed && bit lo0 63 && fresh s (poolUsed s p != 0) then bad stResourceBusy
    else good (setMapVal .hbcT3PoolHi p hi (setMapVal .hbcT3PoolLo p lo s))

/-! ### Allotments (R273, R274) -/

/-- Tiles that a module's tier 1 has in all: D - K, in tiles (R123). -/
def moduleTiles (s : State) (m : Nat) : Nat := ((tray s m).dGib - (tray s m).kGib) * 16384

/-- Tiles that the module's allotments hold. -/
def allotted (s : State) (m : Nat) : Nat := ((List.range 16).filterMap (allotOf s m)).foldl (fun a x => a + x.2.1) 0

/-- Tiles of a range that the entry holds already, where it is valid: none of them holds tier-1 data. -/
def ownTiles (s : State) (m n base tiles : Nat) : Nat :=
  match allotOf s m n with
  | some (_, k, b) => min (base + tiles) (b + k) - max base b
  | none => 0

/-- Does a tile of a range hold tier-1 data, `own` of its tiles being the entry's? Tiles that wait for the clear engine hold none. Where data lie on a module is the switch's own choice, so the answer is free between the two certain cases (log entry 2). -/
def rangeTaken (s : State) (m tiles own : Nat) : Bool × State :=
  let t := tray s m
  if t.free1 + t.dirty1 + own < tiles then (true, s)
  else if tiles ≤ own || moduleTiles s m ≤ t.free1 + t.dirty1 + allotted s m then (false, s)
  else let (x, s) := drawNat s; (x % 2 = 1, s)

/-- A queued or running run, or a program, names an allotment. -/
def allotBusy (s : State) (m n : Nat) : Bool :=
  let x := nbuOf s m
  (x.queue.any (·.allot = n)) || (x.running.any (·.allot = n)) || x.programs.any (·.allot = n)

/-- Take a valid allotment out: cleared, and its tiles wait for the clear engine. -/
def leaveAllot (m n : Nat) (s : State) : State :=
  match allotOf s m n with
  | none => s
  | some (_, tiles, base) => updTray m (fun x => { x with dirty1 := x.dirty1 + tiles }) (gateTags m 0 tiles (clearAllot m n tiles base s))

/-- Put a valid allotment in: its tiles leave tier 1 and are tagged with the tent's slot (R273, Table 14.4). Those the entry held before, and where free tiles do not reach others too, are taken from the tiles that wait for the clear engine: a new allotment reads as zero whatever they held (R274). -/
def enterAllot (m v own : Nat) (s : State) : State :=
  let tiles := bits v 32 13
  let s := updTray m (fun x =>
    let n := min x.free1 (tiles - own)
    { x with free1 := x.free1 - n, dirty1 := x.dirty1 - (tiles - n) }) s
  match tent s (bits v 56 7) with
  | some t => gateTags m (tagOf t.slot true) tiles s
  | none => s

/-- A write to TRY_NBU_ALLOT, entry n of module m (R273). -/
def applyAllot (m n v : Nat) (s : State) : ApplyRes :=
  let i := 16 * m + n
  if v = mapVal s .tryNbuAllot i then good s
  else if bit v 63 then
    let tiles := bits v 32 13
    let base := bits v 0 32
    if tiles = 0 || 4096 < tiles then bad stBadField
    else if (List.range 16).any fun k => k != n && (allotOf s m k).any fun x => overlaps x.2.2 x.2.1 base tiles then bad stBadField
    else if (tent s (bits v 56 7)).isNone then bad stNotFound
    else if moduleTiles s m < base + tiles then bad stNoResource
    else
      let own := ownTiles s m n base tiles
      let (taken, s) := rangeTaken s m tiles own
      if fresh s taken then bad stNoResource
      else if fresh s (allotBusy s m n) then bad stResourceBusy
      else good (enterAllot m v own (setMapVal .tryNbuAllot i v (leaveAllot m n s)))
  else if (allotOf s m n).isSome && fresh s (allotBusy s m n) then bad stResourceBusy
  else good (setMapVal .tryNbuAllot i v (leaveAllot m n s))

/-! ### CSR.WRITE to a map register at its boundary -/

/-- The new value `v` of a map register, validated and applied (R433, R107, R121, R125, R273, R297). -/
def applyMapValue (r : Reg) (i v : Nat) (s : State) : ApplyRes :=
  match r with
  | .cohAgent =>
    match agentFault s i v with
    | some st => bad st
    | none => good (setMapVal .cohAgent i v s)
  | .cohRange =>
    if bit v 63 && v != mapVal s .cohRange i then
      match rangeFault s i (bits v 0 18) with
      | some st => bad st
      | none => good (joinDomain (bits v 0 18) (setMapVal .cohRange i v s))
    else good (setMapVal .cohRange i v s)
  | .cohHint =>
    if bit v 63 && (List.range 64).any fun j => j != i && bit (mapVal s .cohHint j) 63 && bits (mapVal s .cohHint j) 0 14 = bits v 0 14 then bad stResourceBusy
    else good (setMapVal .cohHint i v s)
  | .hbcT3PoolLo => applyPool i v (mapVal s .hbcT3PoolHi i) s
  | .hbcT3PoolHi => applyPool i (mapVal s .hbcT3PoolLo i) v s
  | .tryNbuAllot => applyAllot (i / 16) (i % 16) v s
  | _ => good (setMapVal r i v s)

/-- CSR.WRITE to a map register applied: ADDR, VALUE and MASK of Table 19.2 (R438, R440). -/
def applyCsrWrite (d : Desc) (s : State) : ApplyRes :=
  match regAt (opf d 16 0 24) with
  | some (r, i) =>
    if r.isMap then applyMapValue r i (clampMap r (maskedWrite r (mapVal s r i) (opf d 24 0 64) (opf d 32 0 64))) s else bad stBadField
  | none => bad stNotFound

/-- Every field of a register, as a mask (its reserved bits are the others). -/
def Reg.known (r : Reg) : Nat := r.maskBy fun _ => true

/-- Field checks of CSR.WRITE (R437, R445), `staged` where it is staged. -/
def fieldsCsrWrite (s : State) (d : Desc) : Option Nat :=
  let a := opf d 16 0 24
  let v := opf d 24 0 64
  let mask := opf d 32 0 64
  let known := ((regAt a).map fun x => x.1.known).getD (2 ^ 64 - 1)
  if !onlyFields d [(16, 0, 24), (24, 0, 64), (32, 0, 64)] || a % 8 != 0
    || ((v &&& mask) ||| known) ^^^ known != 0 || (d.stage && (regAt a).any fun x => !x.1.isMap) then some stBadField
  else match regAt a with
  | none => some stNotFound
  | some (r, i) =>
    if a / 0x10000 = 1 then some stNotPermitted
    else if regAbsent r then some stFeatureDisabled
    else if regOff s r i then some stPowerOff
    else none

end Sys2Proof.Machine
end

