-- ==== Sys2Proof/Machine/Commit.lean ====
section
/-! DEFINITION. Commits (R44 to R49): applying a take's commands in stage order, the checks of the whole state, the epoch boundary, and the old map. -/

namespace Sys2Proof.Machine

/-- One staged command applied to the map under construction. -/
def applyStaged (x : Staged) (s : State) : ApplyRes :=
  match x.cmd with
  | .csrWrite _ d => applyCsrWrite d s
  | .tentCreate _ d => applyTentCreate d x.copied s
  | .tentDestroy _ d => applyTentDestroy d s
  | .rngAdd _ d => applyRngAdd d s
  | .rngRemove _ d => applyRngRemove d s
  | .rngModify _ d => applyRngModify d s
  | .portSetRole _ d => applyPortSetRole d s
  | .portEnable _ d => applyPortEnable d s
  | .routeSet _ d => applyRouteSet d s
  | .routeClear _ d => applyRouteClear d s
  | .regionCreate _ d => applyRegionCreate d s
  | .regionRelease _ d => applyRegionRelease d s
  | .regionSetOwner _ d => applyRegionSetOwner d s
  | .guyLink _ d => applyGuyLink d s
  | .guyUnlink _ d => applyGuyUnlink d s
  | .cmpSetRegion q d => applyCmpSetRegion q d s
  | .queueCreate _ d => applyQueueCreate d s
  | .queueDestroy _ d => applyQueueDestroy d s
  | .cmdqCreate _ d => applyCmdqCreate d s
  | .cmdqDestroy _ d => applyCmdqDestroy d s
  | .shaperSet _ d => applyShaperSet d s
  | .crewAssign _ d => applyCrewAssign d s
  | .embDefine _ d => applyEmbDefine d s
  | .kvDefine _ d => applyKvDefine d s
  | .pinSetFunction _ d => applyPinSet d s
  | .timerClaim _ d => applyClaim bufferHeld d s
  | .bufferClaim _ d => applyClaim bufferHeld d s
  | .resRelease _ d => applyResRelease d s
  | .rushesBegin _ d => applyRushesBegin d s
  | .rushesEnd _ _ => applyRushesEnd s
  | .replicaSet _ d => applyReplicaSet d s
  | _ => good s

/-- A failing check: status, DETAIL and RESULT. -/
abbrev Fail := Nat × Nat × Nat

/-- The commands in stage order from index `i`; a failure carries the stage index unless the command names its own DETAIL (R44). The RESULT is the last command's. -/
def applyAll : Nat → List Staged → State → Except Fail (State × Nat)
  | _, [], s => .ok (s, 0)
  | i, x :: xs, s =>
    match applyStaged x s with
    | .error (st, det, res) => .error (st, det.getD i, res)
    | .ok (s, r) =>
      match xs with
      | [] => .ok (s, r)
      | _ => applyAll (i + 1) xs s

/-- DETAIL of a check of the whole state. -/
def wholeState : Nat := 0x7FFF

/-- Two regions under different keys would match one address (R327). -/
def keyConflict (s : State) : Bool :=
  s.pool.regions.any fun a => s.pool.regions.any fun b => a.1 != b.1 && overlaps a.2.base a.2.size b.2.base b.2.size

/-- The region whose setting a staged command adds or changes: created, handed over, or with another GSB setting, guy line or replica set than before. -/
def regionChanged (old s : State) (x : Staged) : Option Nat :=
  let if_ (d : Desc) (changed : Nat → Bool) : Option Nat := if changed (opf d 16 0 18) then some (opf d 16 0 18) else none
  match x.cmd with
  | .regionCreate _ d => some (opf d 16 0 18)
  | .regionSetOwner _ d => if_ d fun k => (region old k).map (·.owner) != (region s k).map (·.owner)
  | .cmpSetRegion _ d => if_ d fun k => (region old k).map (·.gsb) != (region s k).map (·.gsb)
  | .guyLink _ d => some (opf d 16 0 18)
  | .replicaSet _ d => if_ d fun k => has s.kpr.replicas k && find old.kpr.replicas k != find s.kpr.replicas k
  | _ => none

/-- A tier-0 region that the take adds or changes references the stacks its hash reaches (R44). -/
def stacksMissing (old s : State) (x : Staged) : Bool :=
  match (regionChanged old s x).bind (region s) with
  | some r => has (regionCounts s r) 0 && (stacksOf r.span r.stackSel).any fun k => pdOff s (pdStack k)
  | none => false

/-- Is a shaper staged (R303)? -/
def stagesShaper (xs : List Staged) : Bool := xs.any fun x => match x.cmd with | .shaperSet _ _ => true | _ => false

/-- Checks of the whole resulting state, `old` the committed state before (R44, R64, R303, R327). -/
def wholeFault (xs : List Staged) (old s : State) : Option Fail :=
  match routeFault s with
  | some st => some (st, wholeState, 0)
  | none =>
    match if stagesShaper xs then admitFault s else none with
    | some (code, sum) => some (stAdmissionRefused, wholeState, place (min sum 0xFFFFFFFF) 32 32 ||| code)
    | none =>
      if keyConflict s then some (stKeyConflict, wholeState, 0)
      else if xs.any (stacksMissing old s) then some (stPowerOff, wholeState, 0)
      else none

/-- The command that produced a route fault of the resulting state: the state before it has none, every state from it on does (R64). -/
def faultIndex (xs : List Staged) (s : State) : Nat → Nat
  | 0 => wholeState
  | n + 1 => match applyAll 0 (xs.take n) s with
    | .ok (s', _) => if (routeFault s').isNone then n else faultIndex xs s n
    | .error _ => wholeState

/-- DETAIL of a fault of the resulting state: a route fault carries the index of the command that produced it, but for the count of PORT_SET values, which lies in the state as a whole (R44, R64). -/
def wholeDetail (xs : List Staged) (old new : State) (det : Nat) : Nat :=
  if (routeFault new).any (· != stNoResource) then faultIndex xs old xs.length else det

/-- Validate a commit against the committed state: DRAIN_CLAPPER, each command in stage order, then the whole state (R44, R48). -/
def validate (c : Commit) (s : State) : Except Fail (State × Nat) :=
  let owner := issuer c.cref.q
  if c.drain.any fun k => !ownsClap s owner k then .error (stNotFound, wholeState, 0) else
  match applyAll 0 c.cmds s with
  | .error f => .error f
  | .ok (s', r) => match wholeFault c.cmds s s' with
    | some (st, det, res) => .error (st, wholeDetail c.cmds s s' det, res)
    | none => .ok (s', r)

/-- RESULT of a commit (Table 2.13, R39): epoch and commands applied; CMP.SET_REGION and the claims, issued alone, have a RESULT of their own (Table 7.4, R447). -/
def commitResult (c : Commit) (s : State) (own : Nat) : Nat :=
  let std := place c.cmds.length 32 16 ||| s.gaf.epoch.toNat
  match c.take, c.cmds with
  | none, [x] => match x.cmd with
    | .cmpSetRegion _ _ => own
    | .timerClaim _ _ | .bufferClaim _ _ => 0
    | _ => std
  | _, _ => std

/-- The take of a commit ends. -/
def endTake (c : Commit) (s : State) : State :=
  match c.take with
  | some k => { s with gaf := { s.gaf with takes := del s.gaf.takes k } }
  | none => s

/-- The epoch after `e` (R49). -/
def nextEpoch (e : BitVec 32) : BitVec 32 := if e = BitVec.allOnes 32 then 1 else e + 1

/-- EPOCH_OUT pins invert at the boundary (Table 18.8); a pin that the boundary itself connects begins with the next one. -/
def flipPins (old s : State) : State :=
  { s with chip := { s.chip with pins := s.chip.pins.map fun e =>
      if e.2.func = 6 && (pin old e.1).func = 6 then (e.1, { e.2 with epochOut := !e.2.epochOut }) else e } }

/-- The shapers that the take has written start at the boundary (R300, R302). -/
def startShapers (now : Nat) (s : State) : State :=
  { s with qm := { s.qm with shapers := s.qm.shapers.map fun (e : Nat × Shaper) =>
      (e.1, if e.2.start.isNone then { e.2 with start := some now, stamp := now } else e.2) } }

/-- No crew counts any longer as released by the take that is being applied (R50). -/
def claimsMade (s : State) : State :=
  { s with crw := { s.crw with crews := s.crw.crews.map fun (e : Nat × Crew) => (e.1, { e.2 with released := false }) } }

/-- The epoch boundary (R46, R48, R49, R77, R302), where tents without tiles to clear and slots without a holder are freed (R318, R326): `s` is the committed state with the take's commands applied, `old` the state before. -/
def boundary (c : Commit) (old s : State) : State :=
  let (now, s) := clock s
  let first := s.gaf.stage = 6
  let o : OldMap := { epoch := old.gaf.epoch.toNat, deadline := now + 2000000, drain := c.drain, self := old.fab.self, nodes := old.fab.nodes, attach := old.fab.attach
                      tables := old.gth.tables, caches := old.gth.caches, views := old.gth.views }
  let s := { s with
    gaf := { s.gaf with epoch := nextEpoch old.gaf.epoch, oldMap := some o, stage := if first then 7 else s.gaf.stage }
    chip := { s.chip with critStreak := if first then 0 else s.chip.critStreak } }
  noteOver old (holdMap old (flipPins old (cohBoundary old (endTents (claimsMade (startShapers now s))))))

/-- A power transition that PWR.SET_DOMAIN started is in progress (R404). -/
def transition (s : State) : Bool := s.chip.domains.any fun e => e.2.change.isSome

/-- What a failed validation drew is not drawn again: later free values have fresh indices. -/
def skipDrawn (s : State) : State := { s with freeIx := s.freeIx + 2 ^ 32 }

/-- A commit as the gaffer fetches it: a take or `none`, its commands, its completion and DRAIN_CLAPPER. -/
def newCommit (take : Option Nat) (cmds : List Staged) (cref : CRef) (drain : Option Nat) : Commit := { take := take, cmds := cmds, cref := cref, drain := drain }

/-- Add to the free tiles of the modules in tiers 1 and 2, or take from them. -/
def moveLow (back : Bool) (xs : List (Nat × Nat × Nat)) (s : State) : State :=
  xs.foldl (fun s e => updTray e.1 (fun t =>
    if back then { t with free1 := t.free1 + e.2.1, free2 := t.free2 + e.2.2 }
    else { t with free1 := t.free1 - e.2.1, free2 := t.free2 - e.2.2 }) s) s

/-- A commit whose validation gave `s'` waits for the old map (R48): the tiles that it takes are set aside. -/
def holdCommit (c : Commit) (rest : List Commit) (s s' : State) : State :=
  let low := ((List.range 8).map fun m => (m, (tray s m).free1 - (tray s' m).free1, (tray s m).free2 - (tray s' m).free2)).filter fun e => e.2.1 + e.2.2 != 0
  let n := s.pool.free0 - s'.pool.free0
  let s := moveLow false low (skipDrawn s)
  { s with
    pool := { s.pool with free0 := s.pool.free0 - n }
    gaf := { s.gaf with commits := { c with passed := true, held0 := n, heldLow := low } :: rest } }

/-- The tiles set aside for a commit are free again. -/
def unhold (c : Commit) (s : State) : State :=
  moveLow true c.heldLow { s with pool := { s.pool with free0 := s.pool.free0 + c.held0 } }

/-- The map that a commit which has passed validation makes now: its commands are applied with the tiles set aside for it, and without the checks that the state of the moment could fail (R48). -/
def flipped (c : Commit) (s : State) : Except Fail (State × Nat) :=
  let s := unhold c s
  (applyAll 0 c.cmds { s with gaf := { s.gaf with flipping := true } }).map fun r =>
    ({ r.1 with gaf := { r.1.gaf with flipping := false } }, r.2)

/-- Perform the commits that wait, one at a time in fetch order (R45): validation waits for a power transition (R404), the flip of a commit that has passed for the old map (R48). -/
def runCommits : Nat → State → State
  | 0, s => s
  | n + 1, s =>
    match s.gaf.commits with
    | [] => s
    | c :: rest =>
      if transition s then s else
      if c.passed && s.gaf.oldMap.isSome then s else
      let off (s : State) : State := endTake c { s with gaf := { s.gaf with commits := rest } }
      match if c.passed then flipped c s else validate c s with
      | .error (st, det, res) => runCommits n (complete c.cref st det res (off (unhold c (skipDrawn s))))
      | .ok (s', own) =>
        if c.cmds.isEmpty then runCommits n (complete c.cref stSuccess 0 s.gaf.epoch.toNat (off s))
        else if s.gaf.oldMap.isSome then holdCommit c rest s s'
        else
          let s' := off (boundary c s s')
          runCommits n (complete c.cref stSuccess 0 (commitResult c s' own) s')

/-- Run what can commit now. -/
def commitAll (s : State) : State := runCommits (s.gaf.commits.length + 1) s

/-- A commit joins the line. -/
def pushCommit (c : Commit) (s : State) : State := { s with gaf := { s.gaf with commits := s.gaf.commits ++ [c] } }

/-! ### The old map -/

/-- Requests in flight stamped with the old map's epoch (R48). -/
def oldRequests (s : State) (o : OldMap) : List Txn := s.fab.txns.filter fun x => x.gated && x.epoch = o.epoch

/-- The old map is freed (R48, R87): its clapper advances, and the tiles of regions it released return to the pools. -/
def freeOldMap (s : State) : State :=
  match s.gaf.oldMap with
  | none => s
  | some o => clapOpt o.drain 1 (freeGraves { s with gaf := { s.gaf with oldMap := none } })

/-- The end at the 2 ms limit of a request of the old epoch (R48): a read returns poison, a write is not performed; a contribution already begun is finished. -/
def expireTxn (x : Txn) (s : State) : State :=
  match x.stage with
  | .window _ => s
  | _ =>
    let s := bump .gafEpochExpired 0 0 32 1 s
    if x.ty = 1 then
      let (bs, s) := drawBytes x.len s
      endTxn x wOk bs (2 ^ ((x.len + 63) / 64) - 1) s
    else endTxn x wFailed [] 0 s

end Sys2Proof.Machine
end

