-- ==== Sys2Proof/Machine/Block.lean ====
section
/-! DEFINITION. What asking a block to go idle, its idle timeout, its reset and the loss of its power do (Tables 17.4, 17.5, 17.7 and 17.13), and IDE key exchanges (R330). -/

namespace Sys2Proof.Machine

/-! ### IDE ports -/

/-- An IDE_KM exchange starts on a port: the keeper holds its domain (R330, Table 17.14). -/
def startIde (p : Nat) (s : State) : State :=
  let d := pdFabric p
  if !(port s p).ide || (domain s d).holds.contains (.ide p) then s
  else emit (.spdmReq false p 1) (updDomain d (fun x => { x with holds := x.holds ++ [.ide p] }) s)

/-- The exchange has put keys in place: the port accepts requests (R330). -/
def ideReady (p : Nat) (s : State) : State :=
  let old := s
  holdDiff old (dropHold (pdFabric p) (.ide p) (updPort p (fun x => { x with ideUp := true }) s))

/-- The exchange failed or was given up: the port does not accept requests until a new one succeeds (R330, R406). -/
def ideFailed (p : Nat) (s : State) : State :=
  let old := s
  holdDiff old (dropHold (pdFabric p) (.ide p) (updPort p (fun x => { x with ideUp := false }) s))

/-- Ports that run IDE. -/
def idePorts (s : State) : List Nat := (List.range 20).filter fun p => (port s p).ide

/-! ### Blocks -/

/-- Block codes of Table 17.4. -/
def blockCodes : List Nat := List.range 20 ++ (List.range 8).map (0x20 + ·) ++ (List.range 4).map (0x30 + ·) ++ (List.range 8).map (0x40 + ·) ++ [0x50, 0x51, 0x52]

/-- Domain of a block (Table 1.6). -/
def blockDomain (code : Nat) : Nat :=
  if code < 20 then pdFabric code
  else if code < 0x28 then pdTray (code - 0x20)
  else if code < 0x34 then 4 + (code - 0x30)
  else if code < 0x48 then 15 + (code - 0x40)
  else if code = 0x50 then 23
  else if code = 0x51 then 24
  else 3

/-- Blocks of a domain. -/
def domainBlocks (d : Nat) : List Nat := blockCodes.filter fun c => blockDomain c = d

/-- Cells of a crew group. -/
def groupCells (g : Nat) : List Nat := ((List.range 16).map fun i => crewCells (g * 16 + i)).flatten

/-- Cells of a group with work in flight. -/
def busyCells (s : State) (g : Nat) : List Nat := (groupCells g).filter fun n => (cellOf s n).state.active || !(cellOf s n).xfers.isEmpty

/-- Requests that a port is working on: those it sent on, and those that came in on it. -/
def portWork (s : State) (p : Nat) : List Txn :=
  s.fab.txns.filter fun x => x.stage = .forwarded p || x.stage = .egress p || match x.origin with
    | .port q _ => q = p
    | _ => false

/-- Requests at a module. -/
def trayWork (s : State) (m : Nat) : List Txn := s.fab.txns.filter fun x => x.stage = .tray m

/-- Stores whose block is being encoded. -/
def codecWork (s : State) : List Txn := s.fab.txns.filter fun x => match x.stage with
  | .encoding _ _ => true
  | _ => false

/-- Pieces of work in flight in a block (Table 17.5, step 3). -/
def inFlight (s : State) (code : Nat) : Nat :=
  if code < 20 then (portWork s code).length
  else if code < 0x28 then (trayWork s (code - 0x20)).length
  else if code < 0x34 then 0
  else if code < 0x48 then (busyCells s (code - 0x40)).length
  else if code = 0x50 then s.gth.decodes.length
  else if code = 0x51 then (codecWork s).length
  else s.coh.txns.length

/-- A request at a module completes with an error, redirected where R350 allows. -/
def failTrayTxn (x : Txn) (s : State) : State :=
  match regionAt (underMap s x) (offOf x.addr) with
  | some (k, r) => readDone k r x wFailed [] 0 s
  | none => endTxn x wFailed [] 0 s

/-- Step 2: the block takes no new work (Table 17.7); near-bank runs of its module end with `st`, ABORTED in a reset and POWER_OFF where power goes (Table 12.12). -/
def blockAsk (st code : Nat) (s : State) : State :=
  if code < 20 then
    let old := s
    holdDiff old (updPort code (fun x => { x with blocked := true }) s)
  else if code < 0x28 then moduleGone (code - 0x20) st true s
  else if code < 0x34 then s
  else if code < 0x48 then
    (groupCells (code - 0x40)).foldl (fun s n =>
      if (cellOf s n).state = .running || (cellOf s n).state = .waiting then stopCell n s else s) s
  else if code = 0x51 then
    let old := s
    holdDiff old ((idePorts s).foldl (fun s p => updPort p (fun x => { x with ideUp := false }) s) s)
  else s

/-- Step 3 at the timeout: what is in flight completes with an error. Cells take the power-loss row when the block is cleared. -/
def blockExpire (code : Nat) (s : State) : State :=
  if code < 20 then (portWork s code).foldl (fun s x => endTxn x wFailed [] 0 s) s
  else if code < 0x28 then (trayWork s (code - 0x20)).foldl (fun s x => failTrayTxn x s) s
  else if code = 0x51 then (codecWork s).foldl (fun s x => endTxn x wFailed [] 0 s) s
  else s

/-- A tray port's link and session are lost (Table 3.13, Table 12.12, Table 6.6): its requests fail and moves to or from it are abandoned. -/
def trayDrop (m : Nat) (dst : LinkState) (st : Nat) (queued : Bool) (s : State) : State :=
  let lost := trayWork s m
  let s := moduleGone m st queued (updTray m (fun x => { x with link := dst, session := false }) s)
  let here (p : Place) : Bool := p = .t1 m || p = .t2 m
  let s := (keys s.pool.hints).foldl (fun s h => match find s.pool.hints h with
    | some x => match region s x.region with
      | some r => abandon h (fun y => here y.target || here (placeOf s r y.tile)) true true s
      | none => s
    | none => s) s
  lost.foldl (fun s x => failTrayTxn x s) s

/-- The block that a register belongs to for the reset of its fields (R440), by CSR address. -/
def blockOfReg (a : Nat) : Option Nat :=
  match regAt a with
  | none => none
  | some (r, i) =>
    match r, r.place.1 with
    | .tryNbuCtl, _ | .crwCellSel, _ | .crwCellFault, _ | .crwSummary, _ | .xsuSummary, _ => none
    | .crwRingLoad, _ => some (0x40 + i)
    | .hbcEccStatus, _ => some (0x30 + i)
    | _, 11 => some i
    | _, 12 => some (0x20 + i)
    | _, 13 | _, 14 => some (0x40 + i / 16)
    | _, 15 => some 0x50
    | _, 16 => some 0x51
    | _, 9 => some 0x52
    | _, _ => none

/-- The fields of a block's registers take their reset values (R440), the counts of the exact-sum units of a crew group among them (Table 9.18). -/
def resetRegs (code : Nat) (s : State) : State :=
  { s with
    csr := s.csr.filter fun e => blockOfReg e.1 != some code
    crw := { s.crw with crews := s.crw.crews.map fun e => (e.1, if code = 0x40 + e.1 / 16 then { e.2 with addends := 0 } else e.2) } }

/-- Every agent fails, and the directory is empty (R119, Table 17.7). -/
def clearDirectory (s : State) : State :=
  let s := ((List.range 32).filter fun a => agValid (agentEntry s a)).foldl (fun s a => agentFail a s) s
  { s with coh := { s.coh with dir := [] } }

/-- Step 4: what the reset of a block clears (Table 17.7). -/
def blockClear (code : Nat) (s : State) : State :=
  let s :=
    if code < 20 then portDrop code .detect s
    else if code < 0x28 then trayDrop (code - 0x20) .detect stAborted true s
    else if code < 0x34 then s
    else if code < 0x48 then crewPowerLoss (code - 0x40) stAborted false s
    else if code = 0x50 then abortDecodes (fun _ => true) stAborted { s with gth := { s.gth with buf := [] } }
    else if code = 0x51 then dropBuffers (fun _ => true) ((idePorts s).foldl (fun s p => updPort p (fun x => { x with ideUp := false }) s) s)
    else clearDirectory s
  resetRegs code s

/-- Step 5 for a block that is back at once: what waited for it goes on, and IDE ports exchange keys again (Table 17.7). -/
def blockBack (code : Nat) (s : State) : State :=
  let s := wake (fun st => st = .blockWait code) s
  if code = 0x51 then (idePorts s).foldl (fun s p => if (port s p).link = .l0 then startIde p s else s) s else s

/-! ### Loss of a domain's power or clock (R405, Table 17.13) -/

/-- What a domain loses; `keep` is CLOCK_STOP, which keeps memories, images and register settings. -/
def domainLoss (d : Nat) (keep : Bool) (s : State) : State :=
  let bs := domainBlocks d
  let s := bs.foldl (fun s c =>
    if c < 20 then updPort c (fun x => { x with started := false }) (portFail c .detect s)
    else if c < 0x28 then
      let m := c - 0x20
      updTray m (fun x => { x with started := false }) (trayDrop m .detect stPowerOff true (if (tray s m).admitted then attn 5 s else s))
    else if c < 0x34 then s
    else if c < 0x48 then crewPowerLoss (c - 0x40) stPowerOff keep s
    else if c = 0x50 then abortDecodes (fun _ => true) stPowerOff { s with gth := { s.gth with buf := [] } }
    else if c = 0x51 then
      let old := s
      dropBuffers (fun _ => true) (holdDiff old ((idePorts s).foldl (fun s p => updPort p (fun x => { x with ideUp := false }) s) s))
    else s) s
  if keep then s else bs.foldl (fun s c => resetRegs c s) s

end Sys2Proof.Machine
end

