-- ==== Sys2Proof/Machine/Reset.lean ====
section
/-! DEFINITION. The device reset: what it keeps and clears (Table 17.2), the reset counter and the cause log (R398). -/

namespace Sys2Proof.Machine

/-- Cause codes of Table 17.1. -/
def cPowerOn : Nat := 2
/-- See Table 17.1. -/
def cBrownOut : Nat := 3
/-- See Table 17.1. -/
def cPin : Nat := 4
/-- See Table 17.1. -/
def cWatchdog : Nat := 5
/-- See Table 17.1. -/
def cSoftware : Nat := 6
/-- See Table 17.1. -/
def cDebug : Nat := 7
/-- See Table 17.1. -/
def cClock : Nat := 8
/-- See Table 17.1. -/
def cLockup : Nat := 9
/-- See Table 17.1. -/
def cCrit : Nat := 10
/-- See Table 17.1. -/
def cWake : Nat := 11

/-- Auxiliary-bank inputs by PIN_SEL code: RST_N, WAKE_N and the three tamper inputs (Table 18.5, R419). -/
def auxPins : List Nat := [0, 1, 2, 3, 4]

/-- The filters and glitch counts of the auxiliary bank, which run in PD 0 (R419). -/
def keepAux {α : Type} (base : Nat) (t : List (Nat × α)) : List (Nat × α) := t.filter fun e => auxPins.any fun c => e.1 = base + c

/-- The state after a device reset that is not AUX_POR, before its cause is recorded (Table 17.2). What has left the device, the model's clock and its free values, and the commands waiting are not the device's to clear. -/
def baseReset (s : State) : State :=
  setFld .kprRasStatus 0 16 16 (fld s .kprRasStatus 0 16 16) { State.reset with
    pending := s.pending
    now := s.now
    freeIx := s.freeIx
    fab := { State.reset.fab with out := s.fab.out }
    kpr := { State.reset.kpr with
      ras := s.kpr.ras, rasNext := s.kpr.rasNext, lockdown := s.kpr.lockdown
      lid := s.kpr.lid, light := s.kpr.light, mesh := s.kpr.mesh, blobMin := s.kpr.blobMin }
    chip := { State.reset.chip with
      rails := s.chip.rails, pinHeld := s.chip.pinHeld, count := s.chip.count, causes := s.chip.causes
      lastDetail := s.chip.lastDetail, critStreak := s.chip.critStreak
      pins := keepAux 100 s.chip.pins, glitches := keepAux 0 s.chip.glitches } }

/-- CRIT_STREAK after a reset (R389). -/
def streakAfter (cause n : Nat) : Nat := if cause = cCrit then satAdd 4 n 1 else if cause = cPowerOn then 0 else n

/-- A device reset with its cause and detail (R391, R398). -/
def deviceReset (cause detail : Nat) (s : State) : State :=
  let s := baseReset s
  { s with chip := { s.chip with
      count := satAdd 32 s.chip.count 1, causes := (cause :: s.chip.causes).take 8, lastDetail := detail
      critStreak := streakAfter cause s.chip.critStreak, inReset := true } }

/-- The auxiliary power-on reset: nothing of the device is kept but fuses and the blob minimum (Table 17.2). -/
def auxReset (s : State) : State :=
  { State.reset with
    pending := s.pending, now := s.now, freeIx := s.freeIx
    fab := { State.reset.fab with out := s.fab.out }
    kpr := { State.reset.kpr with blobMin := s.kpr.blobMin } }

end Sys2Proof.Machine
end

