-- ==== Sys2Proof/Machine/Power.lean ====
section
/-! DEFINITION. Block resets (R395 to R397), domain transitions (R403 to R405), keeper deferral (R406), sleep and wake (R407 to R409). -/

namespace Sys2Proof.Machine

/-- Change the state of a domain; a change counts in TRANSITIONS (Table 17.29). -/
def setPd (d : Nat) (st : PdState) (s : State) : State :=
  if pdState s d = st then s else bump .pwrDomainStatus d 0 32 1 (updDomain d (fun x => { x with state := st }) s)

/-- Change a PLL. -/
def updPll (i : Nat) (f : Pll → Pll) (s : State) : State := { s with chip := { s.chip with plls := put s.chip.plls i (f ((find s.chip.plls i).getD {})) } }

/-- Set or clear a block's reset. -/
def putReset (code : Nat) (b : BlockReset) (s : State) : State := { s with chip := { s.chip with resets := put s.chip.resets code b } }
/-- See `putReset`. -/
def endReset (code : Nat) (s : State) : State := { s with chip := { s.chip with resets := del s.chip.resets code } }

/-- The idle timeout in ns: TIMEOUT_US of the command, or IDLE_TIMEOUT_US of RST_CTL where that is 0 (R395). -/
def idleNs (s : State) (t : Nat) : Nat := (if t = 0 then fld s .rstCtl 0 16 16 else t) * 1000

/-- A removal waits for the keeper's operations in a domain, at most 1 ms (R406); DEFERRALS counts the request. -/
def defer (ds : List Nat) (s : State) : State :=
  bump .pwrDeferStats 0 32 32 1 (ds.foldl (fun s d => if has s.chip.limits (keeperLimit d) then s else startLimit (keeperLimit d) 1000000 s) s)

/-- TIMEOUT_US is 0 or 10 to 100,000 (Table 17.6). -/
def timeoutOk (t : Nat) : Bool := t = 0 || (10 ≤ t && t ≤ 100000)

/-- A domain is between two states. -/
def moving (s : State) (d : Nat) : Bool :=
  (domain s d).change.isSome || pdState s d = .starting || pdState s d = .stopping

/-- Is a power transition in progress in any domain, or sleep being entered? -/
def anyMoving (s : State) : Bool := s.chip.sleepOp.isSome || (List.range 25).any fun d => d != 0 && moving s d

/-! ### Block reset -/

/-- Field check of BLOCK.RESET (R396). -/
def fieldsBlockReset (d : Desc) : Option Nat :=
  let c := opf d 16 0 8
  if !onlyFields d [(16, 0, 8), (20, 0, 32)] || !(blockCodes.contains c || c = 0xFF) || !timeoutOk (opf d 20 0 32) then some stBadField else none

/-- Step 2: the block is asked to go idle. -/
def askReset (code : Nat) (s : State) : State :=
  match find s.chip.resets code with
  | some b => blockAsk stAborted code (startLimit (idleLimit false code) (idleNs s b.timeout) (putReset code { b with step := 2 } s))
  | none => s

/-- Step 4 begins: the reset is held, and it is the one that RST_BLOCK_LOG shows (Table 17.26); `how` is 1 for a clock failure. -/
def holdReset (code how errored : Nat) (s : State) : State :=
  let c := (find s.chip.resets code).bind (·.cref)
  let s := putReset code { step := 4, cref := c, errored := errored } (endLimit (idleLimit false code) s)
  let s := store .rstBlockLog 0 (place code 56 8 ||| place how 48 8 ||| place errored 0 32) s
  blockClear code s

/-- Body of BLOCK.RESET (R395, R396). -/
def bodyBlockReset (d : Desc) (c : CRef) (s : State) : State :=
  let code := opf d 16 0 8
  let dom := blockDomain code
  if code = 0xFF then deviceReset cSoftware 0 s
  else if pdOff s dom then reject c stPowerOff s
  else if has s.chip.resets code || moving s dom || s.chip.sleepOp.isSome then reject c stResourceBusy s
  else
    let s := putReset code { step := 1, cref := some c, timeout := opf d 20 0 32 } s
    if (domain s dom).holds.isEmpty then askReset code s else defer [dom] s

/-- BLOCK.RESET (R395). -/
def execBlockReset (q : QId) (d : Desc) (s : State) : Res := fabricDo (runI q d { any := false } fieldsBlockReset (bodyBlockReset d)) s

/-- A port that trains in service: started, with a blob that does not hold it (R376, R378). -/
def portTrains (s : State) (p : Nat) : Bool := s.gaf.blobValid && (port s p).started && (port s p).trainMode != 2

/-- See `portTrains`. -/
def trayTrains (s : State) (m : Nat) : Bool := (tray s m).started && !(tray s m).hold

/-- The block is back in service: the command completes (R396). -/
def doneReset (code : Nat) (s : State) : State :=
  match find s.chip.resets code with
  | none => s
  | some b =>
    let s := endReset code s
    match b.cref with
    | some c => complete c stSuccess 0 b.errored s
    | none => s

/-- Step 5 (Table 17.7): ports and tray ports train again and are back later; the others are back at once. -/
def releaseReset (code : Nat) (b : BlockReset) (s : State) : State :=
  if code < 20 then
    let s := updPort code (fun x => { x with blocked := false }) s
    if portTrains s code then putReset code { b with step := 5 } (updPort code (fun x => { x with link := .training }) s)
    else doneReset code (updPort code (fun x => { x with link := if s.gaf.blobValid && x.trainMode != 2 then .detect else .held }) s)
  else if code < 0x28 then
    if trayTrains s (code - 0x20) then putReset code { b with step := 5 } (updTray (code - 0x20) (fun x => { x with link := .training }) s)
    else doneReset code (updTray (code - 0x20) (fun x => { x with link := if x.hold then .held else .detect }) s)
  else
    let s := if 0x30 ≤ code && code < 0x34 then updPll (9 + (code - 0x30)) (fun x => { x with locked := true }) s
      else if 0x40 ≤ code && code < 0x48 then updPll (1 + (code - 0x40)) (fun x => { x with locked := true }) s
      else s
    doneReset code (blockBack code s)

/-- RESET_HOLD_END: 64 cycles have passed (Table 17.5). -/
def execResetHoldEnd (code : Byte) (s : State) : Res :=
  fabricDo (fun s => match find s.chip.resets code.toNat with
    | some b => if b.step = 4 then releaseReset code.toNat b s else s
    | none => s) s

/-- A clock failure of a block: it is reset at once, and its work ends with an error (R395, R412). -/
def failBlock (code : Nat) (s : State) : State :=
  let b := find s.chip.resets code
  if b.any fun b => 4 ≤ b.step then s else
  let n := inFlight s code
  let s := if b.isSome then s else putReset code { step := 2, cref := none } s
  holdReset code 1 n (blockExpire code s)

/-! ### Domain transitions -/

/-- Field check of PWR.SET_DOMAIN (R404). -/
def fieldsSetDomain (d : Desc) : Option Nat :=
  let n := opf d 16 0 5
  if !onlyFields d [(16, 0, 5), (17, 0, 3), (20, 0, 32)] || n < 3 || 24 < n || !timeoutOk (opf d 20 0 32) || (n = 3 && opf d 17 0 2 = 2) then some stBadField else none

/-- Does a stack hold what bars its OFF (`off`) or its CLOCK_STOP (R404)? Which stack holds a coherence directory or a header chunk is not stated: a free choice while any exists (log entry 2). -/
def stackBusy (k : Nat) (off : Bool) (s : State) : Bool × State :=
  let holds (r : Region) : Bool := (stacksOf r.span r.stackSel).contains k && (has (regionCounts s r) 0 || r.writer.any (·.left != 0))
  if k = 0 || (off && s.pool.regions.any fun e => holds e.2) then (true, s)
  else if s.pool.regions.any fun e => e.2.coherent || e.2.coded then
    let (x, s) := drawNat s
    (x % 2 = 1, s)
  else (false, s)

/-- IDE ports in L0 take keys again once PD 24 serves (Table 17.13). -/
def rekeyPorts (s : State) : State := (idePorts s).foldl (fun s p => if (port s p).link = .l0 then startIde p s else s) s

/-- A domain has started up: its PLL runs at the reset frequency (Table 17.8); IDE ports take keys again with PD 24 (Table 17.13); a recovery period ends with the last domain (R388). -/
def startedUp (d : Nat) (s : State) : State :=
  let s := setPd d .on s
  let s := if 15 ≤ d && d ≤ 22 then
      { s with chip := { s.chip with plls := put s.chip.plls (d - 14) { ((find s.chip.plls (d - 14)).getD {}) with locked := true, freq := 1800 } } }
    else s
  let s := if d = 24 then rekeyPorts s else s
  if (List.range 25).any fun e => pdState s e = .starting then s else { s with chip := { s.chip with recovery := false } }

/-- Ask every block of a domain to go idle (Table 17.11). -/
def askDomain (d : Nat) (s : State) : State :=
  (domainBlocks d).foldl (fun s c => blockAsk stPowerOff c s) (startLimit (idleLimit true d) (idleNs s (domain s d).timeout) s)

/-- Body of PWR.SET_DOMAIN when no take is COMMITTING (R404, Table 17.11). -/
def setDomain (d : Desc) (c : CRef) (s : State) : State :=
  let n := opf d 16 0 5
  let act := opf d 17 0 2
  let st := pdState s n
  let removes := act = 0 || act = 2
  if act = 1 && n != 3 && st != .clockStopped && pdState s 3 != .on then reject c stPowerOrder s
  else if removes && n = 3 && (List.range 25).any fun e => 4 ≤ e && pdState s e != .off then reject c stPowerOrder s
  else if moving s n || s.chip.sleepOp.isSome || (domainBlocks n).any (has s.chip.resets) then reject c stResourceBusy s
  else
    let (busy, s) := if removes && 4 ≤ n && n ≤ 7 && st != .off then stackBusy (n - 4) (act = 0) s else (false, s)
    if busy then reject c stResourceBusy s
    else if opf d 17 2 1 = 1 && !(domain s n).holds.isEmpty && removes then reject c stResourceBusy (bump .pwrDeferStats 0 0 16 1 s)
    else match st with
      | .off =>
        if act = 1 then
          let s := setPd n .starting (updDomain n (fun x => { x with change := some (1, c, false, false) }) s)
          if n = 3 then { s with chip := { s.chip with recovery := true } } else s
        else reject c stSuccess s
      | .clockStopped =>
        if act = 0 then reject c stSuccess (setPd n .off (domainLoss n false s))
        else if act = 2 then reject c stSuccess s
        else reject c stSuccess (if n = 24 then rekeyPorts (setPd n .on s) else setPd n .on s)
      | _ =>
        if !removes then reject c stSuccess s
        else
          let held := !(domain s n).holds.isEmpty
          let s := setPd n .stopping (updDomain n (fun x => { x with change := some (act, c, held, false), deferred := held, timeout := opf d 20 0 32 }) s)
          if held then defer [n] s else askDomain n s

/-- Run PWR.SET_DOMAIN commands that a COMMITTING take held up, in order (R404). -/
def runPwrWait : Nat → State → State
  | 0, s => s
  | k + 1, s =>
    match s.gaf.commits, s.chip.pwrWait with
    | [], (d, c) :: rest => runPwrWait k (setDomain d c { s with chip := { s.chip with pwrWait := rest } })
    | _, _ => s

/-- What waited on the gaffer goes on: commits, then transitions (R45, R404). -/
def gafferWork (s : State) : State :=
  let s := commitAll s
  runPwrWait s.chip.pwrWait.length s

/-- Body of PWR.SET_DOMAIN (R404). -/
def bodySetDomain (d : Desc) (c : CRef) (s : State) : State :=
  if s.gaf.commits.isEmpty then gafferWork (setDomain d c s) else { s with chip := { s.chip with pwrWait := s.chip.pwrWait ++ [(d, c)] } }

/-- PWR.SET_DOMAIN (R404). -/
def execPwrSetDomain (q : QId) (d : Desc) (s : State) : Res := fabricDo (runI q d { any := false } fieldsSetDomain (bodySetDomain d)) s

/-- DOMAIN_STARTUP_DONE (Table 17.11, Table 17.13). -/
def execDomainStartupDone (d : BitVec 5) (s : State) : Res :=
  fabricDo (fun s =>
    let n := d.toNat
    if pdState s n != .starting then s else
    let c := (domain s n).change
    let s := startedUp n (updDomain n (fun x => { x with change := none }) s)
    gafferWork (match c with
      | some (_, c, _, _) => reject c stSuccess s
      | none => s)) s

/-- A domain that is idle, or whose timeout has passed, loses power or clock (Table 17.11). -/
def finishStop (n errored : Nat) (s : State) : State :=
  match (domain s n).change with
  | none => s
  | some (act, c, defd, forced) =>
    let s := domainLoss n (act = 2) (endLimit (idleLimit true n) s)
    let s := setPd n (if act = 2 then .clockStopped else .off) (updDomain n (fun x => { x with change := none }) s)
    gafferWork (complete c stSuccess 0 (place (bitOf forced) 33 1 ||| place (bitOf defd) 32 1 ||| place errored 0 32) s)

/-- A domain that has been asked to go idle. -/
def stopAsked (s : State) (n : Nat) : Bool := pdState s n = .stopping && (domain s n).change.isSome && !(domain s n).deferred

/-- Work in flight in a domain. -/
def domainWork (s : State) (n : Nat) : Nat := (domainBlocks n).foldl (fun a c => a + inFlight s c) 0

/-! ### Sleep -/

/-- Field check of PWR.SLEEP (Table 17.17). -/
def fieldsSleep (d : Desc) : Option Nat :=
  let st := opf d 16 0 2
  if !onlyFields d [(16, 0, 2), (20, 0, 32), (24, 0, 32)] || st = 0 || st = 3 || !timeoutOk (opf d 24 0 32) then some stBadField else none

/-- Steps 2 and 3 of R408: once no keeper operation holds a domain, every block is asked to go idle. -/
def sleepAsk (s : State) : State :=
  match s.chip.sleepOp with
  | none => s
  | some x =>
    if s.chip.domains.any fun e => !e.2.holds.isEmpty then s
    else blockCodes.foldl (fun s c => if pdState s (blockDomain c) = .on then blockAsk stPowerOff c s else s)
      (startLimit (idleLimit true 0xFF) (idleNs s x.timeout) { s with chip := { s.chip with sleepOp := some { x with keeper := false } } })

/-- Body of PWR.SLEEP (R408). -/
def bodySleep (d : Desc) (c : CRef) (s : State) : State :=
  if !s.gaf.commits.isEmpty || s.gaf.oldMap.isSome || !s.chip.resets.isEmpty || anyMoving s then reject c stResourceBusy s
  else
    let old := s
    let s := (List.range 20).foldl (fun s p => updPort p (fun x => { x with blocked := true }) s) s
    let s := holdDiff old { s with gaf := { s.gaf with takes := s.gaf.takes.filter fun e => e.2.state != .open } }
    let held := (keys s.chip.domains).filter fun d => !(domain s d).holds.isEmpty
    let s := { s with chip := { s.chip with sleepOp := some { state := opf d 16 0 2, wakeS := opf d 20 0 32, cref := c, keeper := !held.isEmpty, timeout := opf d 24 0 32 } } }
    if held.isEmpty then sleepAsk s else defer held s

/-- PWR.SLEEP (R408). -/
def execPwrSleep (q : QId) (d : Desc) (s : State) : Res := fabricDo (runI q d { any := false } fieldsSleep (bodySleep d)) s

/-- Domains that SLEEP1 turns off (Table 17.16). -/
def sleepOff : List Nat := (List.range 25).filter fun d => 8 ≤ d

/-- SLEEP1 (Table 17.16): open windows end with CAUSE POWER, ports, crews, engines and sessions are lost, stacks stay in self-refresh. -/
def enterSleep1 (s : State) : State :=
  let s := s.win.foldl (fun s e => if e.2.state = .open || e.2.state = .completing then winFailing e.1 2 s else s) s
  let s := (List.range 25).foldl (fun s d => if 3 ≤ d then updDomain d (fun x => { x with before := some (pdState s d) }) s else s) s
  let s := sleepOff.foldl (fun s d => if pdState s d = .off then s else setPd d .off (domainLoss d false s)) s
  let s := [4, 5, 6, 7].foldl (fun s d => if pdState s d = .off then s else setPd d .retain s) s
  let s := setPd 3 .clockStopped s
  { s with chip := { s.chip with sleep := 1 } }

/-- SLEEP2 (Table 17.16): what a device reset keeps is kept; every key is gone. -/
def enterSleep2 (s : State) : State :=
  let s := setPd 1 .on (baseReset s)
  { s with chip := { s.chip with sleep := 2, inReset := false } }

/-! ### Wake -/

/-- The state a domain takes at a wake from SLEEP1 (R409): what it was before; one that was ON and is OFF now starts up. -/
def wakeDomain (d : Nat) (s : State) : State :=
  match (domain s d).before with
  | none => s
  | some st =>
    let s := updDomain d (fun x => { x with before := none }) s
    if st = .on && pdState s d = .off then setPd d .starting s else setPd d st s

/-- A wake from SLEEP1 (R409). -/
def wakeUp (s : State) : State :=
  let s := (List.range 25).foldl (fun s d => wakeDomain d s) { s with chip := { s.chip with sleep := 0, wakeS := 0 } }
  { s with chip := { s.chip with recovery := (List.range 25).any fun d => pdState s d = .starting } }

/-- A wake source, coded as LAST_WAKE, acts (R409, Table 17.16): during entry it takes effect when entry ends. -/
def wakeBy (src : Nat) (s : State) : State :=
  match s.chip.sleepOp with
  | some x => { s with chip := { s.chip with sleepOp := some { x with wake := some (x.wake.getD src) } } }
  | none =>
    if s.chip.sleep = 1 then wakeUp { s with chip := { s.chip with lastWake := src } }
    else if s.chip.sleep = 2 then
      let s := deviceReset cWake 0 s
      { s with chip := { s.chip with lastWake := src } }
    else s

/-- Step 4 and 5 of R408: the completion is posted and the sleep state entered; a wake that came meanwhile takes effect. -/
def finishSleep (errored : Nat) (s : State) : State :=
  match s.chip.sleepOp with
  | none => s
  | some x =>
    let s := complete x.cref stSuccess 0 (place errored 0 32) (endLimit (idleLimit true 0xFF) { s with chip := { s.chip with sleepOp := none } })
    let s := if x.state = 1 then enterSleep1 s else enterSleep2 s
    let s := startLimit wakeLimit (x.wakeS * 1000000000) { s with chip := { s.chip with wakeS := x.wakeS } }
    match x.wake with
    | some src => wakeBy src s
    | none => s

/-- Work in flight in every domain that sleep turns off. -/
def sleepWork (s : State) : Nat := blockCodes.foldl (fun a c => a + inFlight s c) 0

/-- BLOCK_IDLE: a block being reset, a domain (`domain`) being stopped, or all of them for sleep (code 0xFF) is idle (Table 17.5, Table 17.11, R408). -/
def execBlockIdle (domain : Bool) (code : Byte) (s : State) : Res :=
  fabricDo (fun s =>
    let n := code.toNat
    if !domain then
      match find s.chip.resets n with
      | some b => if b.step = 2 && inFlight s n = 0 then holdReset n 0 0 s else s
      | none => s
    else if n = 0xFF then
      if s.chip.sleepOp.any (fun x => !x.keeper) && sleepWork s = 0 then finishSleep 0 s else s
    else if stopAsked s n && domainWork s n = 0 then finishStop n 0 s else s) s

/-- IDLE_TIMEOUT: the idle timeout of a block's reset, a domain's stop or sleep entry has passed (Table 17.5). -/
def execIdleTimeout (domain : Bool) (code : Byte) (s : State) : Res :=
  fabricDo (fun s =>
    let n := code.toNat
    if !domain then
      match find s.chip.resets n with
      | some b => if b.step = 2 then holdReset n 0 (inFlight s n) (blockExpire n (limitOver (idleLimit false n) s)) else s
      | none => s
    else if n = 0xFF then
      if s.chip.sleepOp.any fun x => !x.keeper then finishSleep (sleepWork s) (blockCodes.foldl (fun s c => blockExpire c s) (limitOver (idleLimit true n) s)) else s
    else if stopAsked s n then finishStop n (domainWork s n) ((domainBlocks n).foldl (fun s c => blockExpire c s) (limitOver (idleLimit true n) s)) else s) s

/-! ### Keeper deferral -/

/-- A domain that no keeper operation holds any longer lets what waited for it go on (R406). -/
def resumeDomain (d : Nat) (s : State) : State :=
  if !(domain s d).holds.isEmpty then s else
  let s := endLimit (keeperLimit d) s
  let s := if (domain s d).deferred then askDomain d (updDomain d (fun x => { x with deferred := false }) s) else s
  let s := ((keys s.chip.resets).filter fun c => blockDomain c = d && (find s.chip.resets c).any fun b => b.step = 1).foldl (fun s c => askReset c s) s
  if s.chip.sleepOp.any (·.keeper) then sleepAsk s else s

/-- Something waits for the keeper to release a domain (R406). -/
def removalWaits (s : State) (d : Nat) : Bool :=
  (domain s d).deferred || s.chip.sleepOp.any (·.keeper) || s.chip.resets.any fun e => blockDomain e.1 = d && e.2.step = 1

/-- The oldest keeper operation of a domain ends (R406, R332, R330). -/
def endHold (d : Nat) (h : KHold) (s : State) : State :=
  match h with
  | .slate _ => slateEnd s
  | .ide p => ideReady p (dropHold d h s)

/-- KEEPER_OP_END (R406). -/
def execKeeperOpEnd (d : BitVec 5) (s : State) : Res :=
  fabricDo (fun s => match (domain s d.toNat).holds with
    | [] => s
    | h :: _ => resumeDomain d.toNat (endHold d.toNat h s)) s

/-- Tents that the keeper operations holding a domain serve. -/
def heldTents (s : State) (d : Nat) : List Nat := (domain s d).holds.filterMap fun h => match h with | .slate t => some t | .ide _ => none

/-- The keeper gives up the operations that hold a domain (R406): output suppressed, keys zeroised, tents fenced, ports left without keys. -/
def abortHolds (d : Nat) (s : State) : State :=
  let ts := heldTents s d
  let hs := (domain s d).holds
  let s := if ts.isEmpty then s else abortSlates (fun _ => true) s
  let s := zeroiseTents ts s
  hs.foldl (fun s h => match h with | .ide p => ideFailed p s | .slate _ => s) s

/-- KEEPER_DEADLINE: 1 ms has passed with a removal waiting (R406). -/
def execKeeperDeadline (d : BitVec 5) (s : State) : Res :=
  fabricDo (fun s =>
    let n := d.toNat
    if !removalWaits s n || (domain s n).holds.isEmpty then s else
    let s := abortHolds n (limitOver (keeperLimit n) s)
    let s := bump .pwrDeferStats 0 16 16 1 s
    let s := updDomain n (fun x => { x with change := x.change.map fun y => (y.1, y.2.1, y.2.2.1, true) }) s
    resumeDomain n s) s

end Sys2Proof.Machine
end

