-- ==== Sys2Proof/Machine/Boot.lean ====
section
/-! DEFINITION. Reset sources (R387 to R390), the release of reset and start-up (R376, R378, R392, R394), the halts (R356), tamper responses (R334), and clock failures (R399 to R401). -/

namespace Sys2Proof.Machine

/-! ### Reset sources -/

/-- AUX_POR (Table 17.1): levels at the rails and the pins are the board's, not the device's to reset. -/
def execAuxPor (s : State) : Res :=
  .next (let t := auxReset s
    { t with chip := { t.chip with rails := s.chip.rails, pinHeld := s.chip.pinHeld } })

/-- POWER_ON: the main rails rise (Table 17.1). -/
def execPowerOn (s : State) : Res :=
  .next (if s.chip.rails then s else
    let s := deviceReset cPowerOn 0 s
    { s with chip := { s.chip with rails := true } })

/-- BROWN_OUT of a rail of Table 18.3; rail 7 is AUX_POR (R415). Rails removed after PWR.SLEEP to SLEEP2 or under RST_N are an orderly power-down (R411). -/
def execBrownOut (rail : BitVec 3) (s : State) : Res :=
  .next (if rail = 7 then
      let t := auxReset s
      { t with chip := { t.chip with rails := s.chip.rails, pinHeld := s.chip.pinHeld } }
    else if !s.chip.rails then s
    else
      let s := if s.chip.sleep = 2 || s.chip.pinHeld then s else deviceReset cBrownOut rail.toNat s
      { s with chip := { s.chip with rails := false } })

/-- RST_N asserted for 1 µs (R387). Without main rails the device is in POWER_ON reset whatever the pin's level (R410). -/
def execResetPin (s : State) : Res :=
  .next (if s.chip.pinHeld then s else
    let s := if s.chip.rails then deviceReset cPin 0 s else s
    { s with chip := { s.chip with pinHeld := true, pins := put s.chip.pins 100 { level := false } } })

/-- PERIOD_MS of RST_WDOG_CTL; 0 disables the watchdog (R390). -/
def wdogPeriod (s : State) : Nat := fld s .rstWdogCtl 0 0 16

/-- The watchdog's period starts again (R390). -/
def wdogRestart (s : State) : State :=
  let (now, s) := clock s
  { s with chip := { s.chip with wdog := now } }

/-- The watchdog runs: enabled, RST_N released, awake, and sleep is not being entered (R390, R412). -/
def wdogRuns (s : State) : Bool := wdogPeriod s != 0 && !s.chip.inReset && s.chip.sleep = 0 && s.chip.sleepOp.isNone

/-- WATCHDOG_EXPIRY (R390). -/
def execWatchdogExpiry (s : State) : Res :=
  .next (if wdogRuns s then deviceReset cWatchdog 0 (clockTo (s.chip.wdog + wdogPeriod s * 1000000) s) else s)

/-- DEBUG_DEVICE_RESET: always available (R387). -/
def execDebugDeviceReset (s : State) : Res := .next (deviceReset cDebug 0 s)

/-- LOCKUP of the gaffer or the keeper (R387). -/
def execLockup (keeper : Bool) (s : State) : Res := .next (if s.chip.inReset then s else deviceReset cLockup (bitOf keeper) s)

/-! ### Halts -/

/-- Error halt: data is refused, STATUS, CSR.READ and LOG.READ are served (R356). -/
def errorHaltNow (kind entry : Nat) (s : State) : State :=
  ras 0x07 3 none (selfNode s) kind entry { s with gaf := { s.gaf with errorHalt := true, stage := 15 } }

/-- Boot halts by tamper (R334, Table 14.12). -/
def bootHaltNow (s : State) : State := { s with gaf := { s.gaf with bootHalt := true, stage := 14 } }

/-- Start-up: from the release of reset until boot stage 7 (R388). -/
def startUp (s : State) : Bool := !s.chip.inReset && s.chip.sleep != 2 && (s.gaf.stage < 7 || s.gaf.bootHalt)

/-- A critical-state error in one of the periods of R388, or in service (R356, R389); `halt` enters error halt. -/
def critical (store : Nat) (halt : State → State) (s : State) : State :=
  if s.chip.inReset || s.chip.sleep = 2 || s.gaf.errorHalt then s
  else if startUp s then
    if 4 ≤ s.chip.critStreak then halt s else deviceReset cCrit store s
  else if s.chip.recovery then deviceReset cCrit store s
  else halt s

/-- CRIT_STATE: store 9 of Table 15.8 is the fuse shadow, the ROMs and keeper state, store 7 a routing-map entry (R387, R389). The log's table kind and entry are not given for it: free values (log entry 2). -/
def execCritState (st : BitVec 4) (s : State) : Res :=
  .next (if st = 7 || st = 9 then
      critical st.toNat (fun s =>
        let (k, s) := drawNat s
        let (e, s) := drawNat s
        errorHaltNow k (e % 2 ^ 64) s) s
    else s)

/-- MAP_UNCORRECTABLE: both copies of a routing-map entry (R356, R388). -/
def execMapUncorrectable (table : BitVec 16) (entry : BitVec 64) (s : State) : Res :=
  .next (critical 7 (errorHaltNow table.toNat entry.toNat) s)

/-! ### Tamper -/

/-- Latch of a hard source: 1 lid, 2 light, 3 mesh (Table 15.10). -/
def latched (s : State) (src : Nat) : Bool := if src = 1 then s.kpr.lid else if src = 2 then s.kpr.light else s.kpr.mesh

/-- Set a latch. -/
def setLatch (src : Nat) (s : State) : State :=
  if src = 1 then { s with kpr := { s.kpr with lid := true } }
  else if src = 2 then { s with kpr := { s.kpr with light := true } }
  else { s with kpr := { s.kpr with mesh := true } }

/-- Ports that are training are held (Table 16.16). -/
def holdTraining (s : State) : State :=
  { s with fab := { s.fab with
      ports := s.fab.ports.map fun e => (e.1, if e.2.link = .training then { e.2 with link := .held } else e.2)
      trays := s.fab.trays.map fun e => (e.1, if e.2.link = .training then { e.2 with link := .held } else e.2) } }

/-- Commits that wait end with TAMPER_LOCK and nothing applied (Table 14.13). -/
def dropCommits (s : State) : State :=
  let cs := s.gaf.commits
  let s := { s with gaf := { s.gaf with commits := [], takes := s.gaf.takes.filter fun e => e.2.state != .committing } }
  cs.foldl (fun s c => reject c.cref stTamperLock (unhold c s)) s

/-- Every keeper operation in progress aborts, its output suppressed; what waited for the keeper goes on without FORCED (Table 14.12, R412). -/
def abortKeyOps (s : State) : State :=
  let old := s
  let ds := (keys s.chip.domains).filter fun d => !(domain s d).holds.isEmpty
  let s := abortSlates (fun _ => true) s
  let s := ds.foldl (fun s d => (domain s d).holds.foldl (fun s h => match h with | .ide p => ideFailed p s | .slate _ => s) s) s
  ds.foldl (fun s d => resumeDomain d s) (holdDiff old s)

/-- The response to a hard alarm (Table 14.12), `detail` as in Table 15.10. -/
def hardResponse (detail : Nat) (s : State) : State :=
  let s := ras 0x0D 3 none (selfNode s) detail 0 s
  if !s.kpr.deviceKey && !s.kpr.lockdown && s.chip.sleep = 0 then bootHaltNow s
  else
    let old := s
    let s := holdDiff old (zeroiseAll (abortKeyOps s))
    let s := fenceTents (keys s.kpr.tents) s
    let s := holdTraining (dropCommits { s with kpr := { s.kpr with lockdown := true } })
    if s.chip.sleep = 1 || s.chip.sleepOp.any (·.state = 1) then wakeBy 4 s else s

/-- A hard alarm: a source that has latched does not alarm again (Table 18.6). -/
def hardAlarm (src : Nat) (s : State) : State :=
  if src = 0 || 3 < src || latched s src then s else hardResponse src (setLatch src s)

/-- TAMPER_HARD_ALARM: 1 lid, 2 light, 3 mesh (R334). -/
def execTamperHardAlarm (src : BitVec 2) (s : State) : Res := fabricDo (hardAlarm src.toNat) s

/-- Tents that key operations in progress serve. -/
def servedTents (s : State) : List Nat := ((keys s.chip.domains).map fun d => heldTents s d).flatten

/-- A soft alarm (Table 14.12): four within one second are a hard alarm. -/
def softAlarm (temp : Bool) (s : State) : State :=
  let (now, s) := clock s
  let recent := s.kpr.soft.filter (fun t => now < t + 1000000000) ++ [now]
  let s := bump .kprTamperStatus 0 48 8 1 { s with kpr := { s.kpr with soft := recent } }
  let s := attn 11 (setFld .kprTamperStatus 0 (if temp then 4 else 3) 1 1 s)
  let detail := if temp then 5 else 4
  if 4 ≤ recent.length then hardResponse detail s
  else
    let s := ras 0x0D 3 none (selfNode s) detail 0 s
    if s.chip.sleep != 0 then s
    else if !s.kpr.deviceKey && !s.kpr.lockdown then bootHaltNow s
    else
      let ts := servedTents s
      fenceTents ts (abortKeyOps s)

/-- TAMPER_SOFT_ALARM (R334). -/
def execTamperSoftAlarm (temp : Bool) (s : State) : Res := fabricDo (softAlarm temp) s

/-- MESH_SAMPLE: the input is compared with the driven level, bit 0 of the pattern; two mismatches in a row are a hard alarm (R420). The LFSR's polynomial is not given: each next pattern is free (log entry 2). -/
def execMeshSample (level : Bool) (s : State) : Res :=
  fabricDo (fun s =>
    let good := level = s.kpr.lfsr.getLsbD 0
    let (x, s) := drawNat s
    let s := { s with kpr := { s.kpr with lfsr := BitVec.ofNat 16 x, meshMiss := if good then 0 else s.kpr.meshMiss + 1 } }
    if 2 ≤ s.kpr.meshMiss then hardAlarm 3 s else s) s

/-- KEY_SLOT_ERROR: every tent that holds the slot is fenced (R355, Table 15.8). The RAS OFFSET of a key slot is not given: a free value (log entry 2). -/
def execKeySlotError (slot : BitVec 7) (s : State) : Res :=
  fabricDo (fun s =>
    if s.chip.inReset || s.chip.sleep = 2 then s else
    let (o, s) := drawNat s
    let s := ras 0x05 2 none (selfNode s) 8 (o % 2 ^ 64) s
    fenceTents ((s.kpr.tents.filter fun e => e.2.slot = slot.toNat).map Prod.fst) s) s

/-! ### The configuration blob (R378) -/

/-- Little-endian field of a blob. -/
def blobField (bs : List Byte) (o n : Nat) : Nat := fieldAt bs o n

/-- Bytes from 0 to the end of the records. -/
def blobLength (bs : List Byte) : Nat := 64 + 16 * blobField bs 6 2

/-- A valid copy (R378, Table 16.12). -/
def blobOk (floor : Nat) (bs : List Byte) : Bool :=
  let n := blobLength bs
  n + 96 ≤ bs.length && blobField bs 0 4 = 0x424C425A && blobField bs 4 2 = 1 && blobField bs 8 4 = n
    && ((bs.drop 16).take 48).all (· = 0)
    && (List.range (blobField bs 6 2)).all (fun i => let t := blobField bs (64 + 16 * i) 1; t = 1 || t = 2)
    && floor ≤ blobField bs 12 4 && Config.ecdsaOk Config.ownerKey (bs.take n) ((bs.drop n).take 96)

/-- One record applied (Table 16.13). -/
def blobRecord (r : List Byte) (s : State) : State :=
  let b (i : Nat) : Nat := fieldAt r i 1
  if b 0 = 1 then
    let p := bits (b 1) 0 5
    if bit (b 1) 5 then
      if p < 8 then updTray p (fun x => { x with hold := b 2 = 2, link := if b 2 = 2 then .held else .detect }) s else s
    else if p < 20 then
      updPort p (fun x => { x with trainMode := b 2, maxRate := min (b 3) 2, link := if b 2 = 2 then .held else .detect }) s
    else s
  else if b 1 < 14 then updPll (b 1) (fun x => { x with ref := bits (b 2) 0 1, sris := bit (b 3) 0 }) s else s

/-- The valid copy with the higher SEQ is applied and raises the minimum; without one every port is held (R378). -/
def applyBlob (b0 b1 : List Byte) (s : State) : State :=
  let ok0 := blobOk s.kpr.blobMin b0
  let ok1 := blobOk s.kpr.blobMin b1
  if !ok0 && !ok1 then
    let s := (List.range 20).foldl (fun s p => updPort p (fun x => { x with trainMode := 2, link := .held }) s) s
    attn 4 ((List.range 8).foldl (fun s m => updTray m (fun x => { x with hold := true, link := .held }) s) s)
  else
    let second := ok1 && (!ok0 || blobField b0 12 4 < blobField b1 12 4)
    let bs := if second then b1 else b0
    let seq := blobField bs 12 4
    let s := { s with
      gaf := { s.gaf with blobValid := true, blobCopy := second, blobSeq := seq }
      kpr := { s.kpr with blobMin := max s.kpr.blobMin seq } }
    let s := (List.range (blobField bs 6 2)).foldl (fun s i => blobRecord ((bs.drop (64 + 16 * i)).take 16) s) s
    if (List.range 20).any (fun p => (port s p).link = .held) || (List.range 8).any (fun m => (tray s m).link = .held) then attn 4 s else s

/-! ### Start-up -/

/-- Turn domains on, or let them start up. -/
def setPds (ds : List Nat) (st : PdState) (s : State) : State := ds.foldl (fun s d => setPd d st s) s

/-- A PLL locks at a frequency; where the spec gives none it is free (log entry 2). -/
def lockPll (i : Nat) (freq : Option Nat) (s : State) : State :=
  match freq with
  | some f => updPll i (fun x => { x with locked := true, freq := f }) s
  | none =>
    let (f, s) := drawNat s
    updPll i (fun x => { x with locked := true, freq := f % 4096 }) s

/-- One step of Table 16.11: the stage that follows, where its conditions hold (R376, R392, R394). -/
def bootStep (b0 b1 : List Byte) (s : State) : Option State :=
  match s.gaf.stage with
  | 0 => some (lockPll 14 none (setPd 2 .on { s with kpr := { s.kpr with deviceKey := !s.kpr.lockdown } }))
  | 1 => some (lockPll 0 (some 1600) (setPds [3, 23, 24] .on (applyBlob b0 b1 s)))
  | 2 =>
    let s := setPds [8, 9, 10, 11, 12, 13, 14] .on (setPds [4, 5, 6, 7] .starting s)
    let s := [9, 10, 11, 12, 13].foldl (fun s i => lockPll i none s) s
    some { s with pool := { s.pool with dirty0 := tier0Tiles } }
  | 3 => some s
  | 4 => if [4, 5, 6, 7].any fun d => pdState s d = .starting then none else some (setPds (List.range 8 |>.map (15 + ·)) .starting s)
  | 5 => if ((List.range 8).any fun g => pdState s (15 + g) = .starting) || !s.pool.reservedClear then none else some s
  | _ => none

/-- BOOT_STAGE_ADVANCE, with the two copies of the blob as SPI NOR holds them (R376, R378). The test strap holds stage 0 (Table 18.7). -/
def execBootStageAdvance (blob0 blob1 : List Byte) (s : State) : Res :=
  .next (if s.chip.inReset || s.chip.sleep != 0 || s.gaf.bootHalt || s.gaf.errorHalt || bit s.chip.straps 4 then s
    else match bootStep blob0 blob1 s with
      | some t => { t with gaf := { t.gaf with stage := s.gaf.stage + 1 } }
      | none => s)

/-- Accepted level of an input that idles at `idle` (R419). -/
def inLevel (s : State) (c : Nat) (idle : Bool) : Bool := match find s.chip.pins (100 + c) with
  | some x => x.level
  | none => idle

/-- A hard input that is active when reset is released latches and halts boot (R334, Table 18.6); a latch already set makes no second entry. -/
def sampleTamper (src : Nat) (s : State) : State :=
  if !inLevel s (src + 1) false then s
  else if latched s src then bootHaltNow s else hardAlarm src s

/-- RESET_RELEASE: the main rails are up and RST_N is released; straps and tamper inputs are sampled and PD 1 leaves reset (R394, R410, R421). -/
def execResetRelease (straps : BitVec 5) (s : State) : Res :=
  .next (if !s.chip.inReset || !s.chip.rails || s.chip.pinHeld then s
    else
      let s := setPd 1 .on { s with chip := { s.chip with inReset := false, straps := straps.toNat } }
      sampleTamper 2 (sampleTamper 1 s))

/-! ### Clocks (R400, R401) -/

/-- Domain that a PLL clocks. -/
def pllDomain (i : Nat) : Nat := if i = 0 then 3 else if i ≤ 8 then 14 + i else if i ≤ 12 then i - 5 else if i = 13 then 3 else 2

/-- Is the clock one that runs now, so that its loss is a failure (R400)? -/
def clockRuns (s : State) (n : Nat) : Bool :=
  if n = 18 then true
  else if s.chip.inReset || s.chip.sleep = 2 then false
  else if n < 15 then ((find s.chip.plls n).getD {}).locked && !pdOff s (pllDomain n) && pdState s (pllDomain n) != .starting
  else n < 18

/-- Every line of tier 0 that a stack held is poisoned (Table 17.9). -/
def poisonStack (k : Nat) (s : State) : State :=
  s.pool.regions.foldl (fun s e =>
    let r := e.2
    (liveViews r).foldl (fun s v => (List.range (granules r)).foldl (fun s g =>
      let t := tileOf r v g
      if placeOf s r t != .t0 then s else
      (List.range 1024).foldl (fun s l => if stackOf r (r.base + g * tileBytes + l * 64) = k then setPoison t l true s else s) s) s) s) s

/-- The stack's content is lost: its lines are poisoned; the operator window, which lies in stack 0, holds free bytes. -/
def loseStack (k : Nat) (s : State) : State :=
  let s := poisonStack k s
  if k != 0 then s else
  let (bs, s) := drawBytes windowBytes s
  windowWrite 0 bs s

/-- Note a PLL's failure (Table 17.27). -/
def notePll (i : Nat) (s : State) : State :=
  bump .clkPllStatus i 32 16 1 (setFld .clkPllStatus i 62 1 1 (updPll i (fun x => { x with locked := false, bad := 0 }) s))

/-- The response for one PLL (Table 17.9). -/
def failPll (i : Nat) (s : State) : State :=
  let s := notePll i s
  if i = 0 || i = 13 || i = 14 then deviceReset cClock i s
  else if i ≤ 8 then attn 8 (failBlock (0x3F + i) s)
  else attn 8 (failBlock (0x27 + i) (loseStack (i - 9) s))

/-- Several PLLs fail at once: one device reset where one of them calls for it (R412). -/
def failPlls (is : List Nat) (s : State) : State :=
  match is.find? fun i => i = 0 || i = 13 || i = 14 with
  | some i => deviceReset cClock i s
  | none => is.foldl (fun s i => failPll i s) s

/-- A clock fails (R401): PLL n below 15, reference 0 or 1 (15, 16), the management clock (17), the auxiliary clock (18). -/
def clockFails (n : Nat) (s : State) : State :=
  let s := if n < 15 then s else updPll n (fun x => { x with locked := false, bad := 0 }) s
  if n < 15 then failPll n s
  else if n < 17 then
    let s := bump .clkInputStatus 0 (if n = 15 then 16 else 32) 16 1 s
    failPlls ((List.range 14).filter fun i => clockRuns s i && ((find s.chip.plls i).getD {}).ref = n - 15) s
  else deviceReset cClock (if n = 17 then 14 else 0) s

/-- CLOCK_FAILURE: a lost lock or lost edges (R400). -/
def execClockFailure (clock : BitVec 5) (s : State) : Res :=
  fabricDo (fun s => if clockRuns s clock.toNat then clockFails clock.toNat s else s) s

/-- CLOCK_MONITOR_WINDOW: two windows in a row outside ±2 % are a failure, and one outside ±30 % for the auxiliary clock (R400). -/
def execClockMonitorWindow (clock : BitVec 5) (inRange : Bool) (s : State) : Res :=
  fabricDo (fun s =>
    let n := clock.toNat
    if !clockRuns s n then s
    else if inRange then updPll n (fun x => { x with bad := 0, locked := true }) s
    else if n = 18 || 1 ≤ ((find s.chip.plls n).getD {}).bad then clockFails n s
    else updPll n (fun x => { x with bad := x.bad + 1, locked := if n < 15 then x.locked else false }) s) s

end Sys2Proof.Machine
end

