-- ==== Sys2Proof/Machine/Takes.lean ====
section
/-! DEFINITION. Takes (R41 to R45), the end of leases and of the old map (R43, R48), and every command that applies at an epoch boundary, staged or as a take of one (R39). -/

namespace Sys2Proof.Machine

/-- A take command may be issued by anyone, for a sealed tent too (Table 14.6). -/
def takeRule : Rule := { any := true, takeCmd := true, sealedOk := true }

/-- Field check of TAKE.BEGIN (Table 2.13). -/
def fieldsTakeBegin (d : Desc) : Option Nat := if !onlyFields d [(16, 0, 32)] || 60000 < opf d 16 0 32 then some stBadField else none

/-- Body of TAKE.BEGIN (R41, R43): the identifier is a free choice, never 0 (log entry 3). -/
def bodyTakeBegin (q : QId) (d : Desc) (c : CRef) (s : State) : State :=
  if 16 ≤ s.gaf.takes.length then reject c stNoResource s
  else match drawFree (fun k => !has s.gaf.takes k) 1 (2 ^ 32 - 1) s with
    | none => reject c stNoResource s
    | some (k, s) =>
      let (now, s) := clock s
      let ms := if opf d 16 0 32 = 0 then 10000 else opf d 16 0 32
      complete c stSuccess 0 k { s with gaf := { s.gaf with takes := put s.gaf.takes k ⟨issuer q, .open, [], 0, now + ms * 1000000, 0⟩ } }

/-- TAKE.BEGIN (R41). -/
def execTakeBegin (q : QId) (d : Desc) (s : State) : Res := .next (runI q d takeRule fieldsTakeBegin (bodyTakeBegin q d) s)

/-- Lease left in ms, rounded up; a take that has not expired has some left (Table 2.10, R43). -/
def leaseLeft (k : Take) (now : Nat) : Nat := max 1 ((k.deadline - now + 999999) / 1000000)

/-- Body of TAKE.COMMIT (R44, R45, Table 2.14). -/
def bodyTakeCommit (q : QId) (d : Desc) (c : CRef) (s : State) : State :=
  let id := d.takeId.toNat
  match takeOf s q id with
  | none => reject c stNotFound s
  | some k =>
    match k.state with
    | .failed => complete c stTakeFailed k.failed 0 { s with gaf := { s.gaf with takes := del s.gaf.takes id } }
    | .committing => reject c stTakeState s
    | .open =>
      let (now, s) := clock s
      let s := updTake id (fun k => { k with state := .committing, frozen := leaseLeft k now }) s
      gafferWork (pushCommit (newCommit (some id) k.cmds c (clapName (opf d 16 0 32))) s)

/-- TAKE.COMMIT (R44). -/
def execTakeCommit (q : QId) (d : Desc) (s : State) : Res :=
  fabricDo (runI q d takeRule (fun d => if onlyFields d [(16, 0, 32)] then none else some stBadField) (bodyTakeCommit q d)) s

/-- Body of TAKE.ROLLBACK (R42, Table 2.14). -/
def bodyTakeRollback (q : QId) (d : Desc) (c : CRef) (s : State) : State :=
  let id := d.takeId.toNat
  match takeOf s q id with
  | none => reject c stNotFound s
  | some k =>
    if k.state = .committing then reject c stTakeState s
    else complete c stSuccess 0 (place k.cmds.length 0 16) { s with gaf := { s.gaf with takes := del s.gaf.takes id } }

/-- TAKE.ROLLBACK (R42). -/
def execTakeRollback (q : QId) (d : Desc) (s : State) : Res := .next (runI q d takeRule fieldsNone (bodyTakeRollback q d) s)

/-- STATE code of TAKE.QUERY. -/
def TakeState.code : TakeState → Nat
  | .open => 0
  | .failed => 1
  | .committing => 2

/-- Body of TAKE.QUERY (R43). -/
def bodyTakeQuery (q : QId) (d : Desc) (c : CRef) (s : State) : State :=
  match takeOf s q d.takeId.toNat with
  | none => reject c stNotFound s
  | some k =>
    let (now, s) := clock s
    let left := if k.state = .committing then k.frozen else leaseLeft k now
    complete c stSuccess 0 (place left 32 32 ||| place k.cmds.length 16 16 ||| k.state.code) s

/-- TAKE.QUERY (R43). -/
def execTakeQuery (q : QId) (d : Desc) (s : State) : Res := .next (runI q d takeRule fieldsNone (bodyTakeQuery q d) s)

/-- TAKE_LEASE_EXPIRY: an open or failed take is rolled back and logged (R43). -/
def execTakeLeaseExpiry (take : BitVec 32) (s : State) : Res :=
  .next (match find s.gaf.takes take.toNat with
    | none => s
    | some k =>
      if k.state = .committing then s else
      let s := clockTo k.deadline { s with gaf := { s.gaf with takes := del s.gaf.takes take.toNat } }
      attn 3 (ras 0x0E 0 k.owner (selfNode s) 0 take.toNat s))

/-- OLD_MAP_FREED: no request of the old epoch is left (R48). -/
def execOldMapFreed (s : State) : Res :=
  fabricDo (fun s => match s.gaf.oldMap with
    | none => s
    | some o => if (oldRequests s o).isEmpty then gafferWork (freeOldMap s) else s) s

/-- DRAIN_LIMIT_EXPIRY: 2 ms after the boundary, requests of the old epoch end with an error and the old map is freed (R48). -/
def execDrainLimitExpiry (s : State) : Res :=
  fabricDo (fun s => match s.gaf.oldMap with
    | none => s
    | some o =>
      let xs := oldRequests s o
      let s := xs.foldl (fun s x => expireTxn x s) (clockTo o.deadline s)
      gafferWork (freeOldMap (if xs.any (fun x => match x.stage with | .window _ => false | _ => true) then attn 2 s else s))) s

/-! ### Commands that apply at a boundary -/

/-- A command issued alone is a take of one command (R39). -/
def alone (x : Staged) (c : CRef) (s : State) : State := gafferWork (pushCommit (newCommit none [x] c none) s)

/-- TENT.CREATE (R317). -/
def execTentCreate (q : QId) (d : Desc) (s : State) : Res :=
  fabricDo (runE q d { any := false } true (fun s d => stageTentCreate s d) (copyTentCreate d) (.tentCreate q d) alone) s

/-- TENT.DESTROY (R318). -/
def execTentDestroy (q : QId) (d : Desc) (s : State) : Res :=
  fabricDo (runE q d { any := false } true (fun _ => fieldsNone) (fun _ => []) (.tentDestroy q d) alone) s

/-- RNG.ADD (R449). -/
def execRngAdd (q : QId) (d : Desc) (s : State) : Res :=
  fabricDo (runE q d { any := false } false (fun _ => stageRngAdd) (fun _ => []) (.rngAdd q d) alone) s

/-- RNG.REMOVE (R321). -/
def execRngRemove (q : QId) (d : Desc) (s : State) : Res :=
  fabricDo (runE q d { any := false } false (fun _ => stageRngRemove) (fun _ => []) (.rngRemove q d) alone) s

/-- RNG.MODIFY (R321). -/
def execRngModify (q : QId) (d : Desc) (s : State) : Res :=
  fabricDo (runE q d { any := false } false (fun _ => stageRngModify) (fun _ => []) (.rngModify q d) alone) s

/-- PORT.SET_ROLE (R362). -/
def execPortSetRole (q : QId) (d : Desc) (s : State) : Res :=
  fabricDo (runE q d { any := false } true (fun _ => stagePortSetRole) (fun _ => []) (.portSetRole q d) alone) s

/-- PORT.ENABLE (R363). -/
def execPortEnable (q : QId) (d : Desc) (s : State) : Res :=
  fabricDo (runE q d { any := false } false (fun _ => stagePortEnable) (fun _ => []) (.portEnable q d) alone) s

/-- ROUTE.SET (R63). -/
def execRouteSet (q : QId) (d : Desc) (s : State) : Res :=
  fabricDo (runE q d { any := false } false (fun _ => stageRouteSet) (fun _ => []) (.routeSet q d) alone) s

/-- ROUTE.CLEAR (R63). -/
def execRouteClear (q : QId) (d : Desc) (s : State) : Res :=
  fabricDo (runE q d { any := false } false (fun _ => stageRouteClear) (fun _ => []) (.routeClear q d) alone) s

/-- REGION.CREATE (R86). -/
def execRegionCreate (q : QId) (d : Desc) (s : State) : Res :=
  fabricDo (runE q d { any := false } false (fun _ => stageRegionCreate) (fun _ => []) (.regionCreate q d) alone) s

/-- REGION.RELEASE (R87). -/
def execRegionRelease (q : QId) (d : Desc) (s : State) : Res :=
  fabricDo (runE q d { any := true } false (fun _ => stageRegionRelease) (fun _ => []) (.regionRelease q d) alone) s

/-- REGION.SET_OWNER (R52, R84). -/
def execRegionSetOwner (q : QId) (d : Desc) (s : State) : Res :=
  fabricDo (runE q d { any := true } false (fun _ => stageRegionSetOwner) (fun _ => []) (.regionSetOwner q d) alone) s

/-- GUY.LINK (R339). -/
def execGuyLink (q : QId) (d : Desc) (s : State) : Res :=
  fabricDo (runE q d { any := false } true (fun _ => stageGuyLink) (fun _ => []) (.guyLink q d) alone) s

/-- GUY.UNLINK (R339, R347). -/
def execGuyUnlink (q : QId) (d : Desc) (s : State) : Res :=
  fabricDo (runE q d { any := false } true (fun _ => stageGuyUnlink) (fun _ => []) (.guyUnlink q d) alone) s

/-- CMP.SET_REGION (R153). -/
def execCmpSetRegion (q : QId) (d : Desc) (s : State) : Res :=
  fabricDo (runE q d { any := true } false (fun _ => stageCmpSetRegion) (fun _ => []) (.cmpSetRegion q d) alone) s

/-- QUEUE.CREATE (R306). -/
def execQueueCreate (q : QId) (d : Desc) (s : State) : Res :=
  fabricDo (runE q d { any := true } false (fun _ => stageQueueCreate) (fun _ => []) (.queueCreate q d) alone) s

/-- QUEUE.DESTROY (R307). -/
def execQueueDestroy (q : QId) (d : Desc) (s : State) : Res :=
  fabricDo (runE q d { any := true } false (fun _ => stageQueueDestroy) (fun _ => []) (.queueDestroy q d) alone) s

/-- CMDQ.CREATE (R314). -/
def execCmdqCreate (q : QId) (d : Desc) (s : State) : Res :=
  fabricDo (runE q d { any := false } false (fun _ => stageCmdqCreate) (fun _ => []) (.cmdqCreate q d) alone) s

/-- CMDQ.DESTROY (R314). -/
def execCmdqDestroy (q : QId) (d : Desc) (s : State) : Res :=
  fabricDo (runE q d { any := false } false (fun _ => stageCmdqDestroy) (fun _ => []) (.cmdqDestroy q d) alone) s

/-- SHAPER.SET (R301). -/
def execShaperSet (q : QId) (d : Desc) (s : State) : Res :=
  fabricDo (runE q d { any := false } false (fun _ => stageShaperSet) (fun _ => []) (.shaperSet q d) alone) s

/-- CREW.ASSIGN (R184). -/
def execCrewAssign (q : QId) (d : Desc) (s : State) : Res :=
  fabricDo (runE q d { any := false } true (fun _ => stageCrewAssign) (fun _ => []) (.crewAssign q d) alone) s

/-- EMB.DEFINE (R247). -/
def execEmbDefine (q : QId) (d : Desc) (s : State) : Res :=
  fabricDo (runE q d { any := true } false (fun _ => stageEmb) (fun _ => []) (.embDefine q d) alone) s

/-- KV.DEFINE (R259). -/
def execKvDefine (q : QId) (d : Desc) (s : State) : Res :=
  fabricDo (runE q d { any := true } false (fun _ => stageKv) (fun _ => []) (.kvDefine q d) alone) s

/-- PIN.SET_FUNCTION (R424). -/
def execPinSetFunction (q : QId) (d : Desc) (s : State) : Res :=
  fabricDo (runE q d { any := false } false (fun _ => stagePinSet) (fun _ => []) (.pinSetFunction q d) alone) s

/-- TIMER.CLAIM (R447). -/
def execTimerClaim (q : QId) (d : Desc) (s : State) : Res :=
  fabricDo (runE q d { any := false } false (fun _ => stageTimerClaim) (fun _ => []) (.timerClaim q d) alone) s

/-- BUFFER.CLAIM (R447). -/
def execBufferClaim (q : QId) (d : Desc) (s : State) : Res :=
  fabricDo (runE q d { any := false } false (fun _ => stageBufferClaim) (fun _ => []) (.bufferClaim q d) alone) s

/-- RES.RELEASE (R424). -/
def execResRelease (q : QId) (d : Desc) (s : State) : Res :=
  fabricDo (runE q d { any := false } false (fun _ => stageResRelease) (fun _ => []) (.resRelease q d) alone) s

/-- RUSHES.BEGIN (R351). -/
def execRushesBegin (q : QId) (d : Desc) (s : State) : Res :=
  fabricDo (runE q d { any := false } true (fun _ => stageRushesBegin) (fun _ => []) (.rushesBegin q d) alone) s

/-- RUSHES.END (R351). -/
def execRushesEnd (q : QId) (d : Desc) (s : State) : Res :=
  fabricDo (runE q d { any := false } true (fun _ => fieldsNone) (fun _ => []) (.rushesEnd q d) alone) s

/-- REPLICA.SET (R349). -/
def execReplicaSet (q : QId) (d : Desc) (s : State) : Res :=
  fabricDo (runE q d { any := false } false (fun _ => stageReplicaSet) (fun _ => []) (.replicaSet q d) alone) s

end Sys2Proof.Machine
end

