-- ==== Sys2Proof/Machine/Links.lean ====
section
/-! DEFINITION. Links: start, L0, retrain, failure (R364, R366, R367, R375, R376), IDE keys (R330), authentication of sealed sources (R325), tray modules and their sessions (R123, R276, R291, R380, R382). -/

namespace Sys2Proof.Machine

/-! ### Start and failure -/

/-- PORT_START: at its start time a port turns on its terminations and trains (R376); a held one does not (R378), nor any in lockdown or boot halt (Table 16.16). -/
def execPortStart (tray : Bool) (port : BitVec 5) (s : State) : Res :=
  .next (let p := port.toNat
    if s.gaf.stage < 3 || s.chip.sleep != 0 || s.kpr.lockdown || s.gaf.bootHalt then s
    else if tray then
      if 8 ≤ p || !pdOn s (pdTray p) || (Machine.tray s p).link != .detect || (Machine.tray s p).hold then s
      else updTray p (fun x => { x with started := true, link := .training }) s
    else if 20 ≤ p || !pdOn s (pdFabric p) || (Machine.port s p).link != .detect || !s.gaf.blobValid || (Machine.port s p).trainMode = 2 then s
    else updPort p (fun x => { x with started := true, link := .training }) s)

/-- A tray port fails (Table 15.12): LINK_DOWN is logged, its requests end, the running run is ABORTED. -/
def trayFail (m : Nat) (s : State) : State :=
  let s := attn 4 (ras 0x08 2 none (selfNode s) (0x8000 ||| m) 0 s)
  let s := if (tray s m).admitted then attn 5 s else s
  trayDrop m .down stAborted false s

/-- Is a link up, if only in a retrain? -/
def upOrRetrain (l : LinkState) : Bool := l = .l0 || l = .retrain

/-- LINK_DOWN: surprise down, viral, credit overflow or a protocol violation (R79, Table 16.10). -/
def execLinkDown (tray : Bool) (port : BitVec 5) (s : State) : Res :=
  fabricDo (fun s =>
    let p := port.toNat
    if tray then (if p < 8 && upOrRetrain (Machine.tray s p).link then trayFail p s else s)
    else if p < 20 && upOrRetrain (Machine.port s p).link then portFail p .down s else s) s

/-- A tray port starts to retrain (R367); see `noteRetrain`. -/
def noteTrayRetrain (m : Nat) (s : State) : State :=
  startLimit (retrainLimit true m) (fld s .tryLinkCtl m 8 8 * 1000000) (bump .tryLinkStatus m 16 16 1 s)

/-- CRC_REPLAY: a NAK and a replay; after four failed replays of one flit (`again`) the link retrains (R375). -/
def execCrcReplay (tray : Bool) (port : BitVec 5) (again : Bool) (s : State) : Res :=
  .next (let p := port.toNat
    if tray then
      if p < 8 && (Machine.tray s p).link = .l0 then
        let n := if again then (Machine.tray s p).replays + 1 else 1
        let s := emit (.nak (32 + p)) (bump .tryErrors p 48 16 1 (updTray p (fun x => { x with replays := n }) s))
        if n < 4 then s else noteTrayRetrain p (updTray p (fun x => { x with replays := 0, link := .retrain }) s)
      else s
    else if p < 20 && (Machine.port s p).link = .l0 then
      let n := if again then (Machine.port s p).replays + 1 else 1
      let s := linkNak p (bump .prtErrors p 48 16 1 (updPort p (fun x => { x with replays := n }) s))
      if n < 4 then s else noteRetrain p (updPort p (fun x => { x with replays := 0, link := .retrain }) s)
    else s)

/-- PORT.RETRAIN (R364). A MAX_RATE below the committed sum sets the port's OVER bit (R304, R366). -/
def execPortRetrain (q : QId) (d : Desc) (s : State) : Res :=
  .next (runI q d { any := false, sealedOk := true } fieldsPortRetrain (fun c s => noteOver s (bodyPortRetrain d c s)) s)

/-- PORT.RETRAIN commands of a port that did not reach L0 in time end with TIMEOUT (R364). -/
def retrainTimeout (p : Nat) (s : State) : State :=
  let cs := (port s p).retrain
  cs.foldl (fun s c => reject c stTimeout s) (updPort p (fun x => { x with retrain := [] }) s)

/-- RETRAIN_LIMIT_EXPIRY: a retrain beyond RETRAIN_LIMIT_MS makes the port unusable (R367). -/
def execRetrainLimitExpiry (tray : Bool) (port : BitVec 5) (s : State) : Res :=
  fabricDo (fun s =>
    let p := port.toNat
    if tray then
      if p < 8 && (Machine.tray s p).link = .retrain then trayFail p (bump .tryLinkStatus p 0 16 1 (limitOver (retrainLimit true p) s)) else s
    else if 20 ≤ p || (Machine.port s p).link = .l0 then s
    else
      let s := limitOver (retrainLimit false p) s
      let s := if (Machine.port s p).link = .retrain then portFail p .down (bump .prtLinkStatus p 0 16 1 s) else s
      retrainTimeout p s) s

/-! ### Fabric ports in L0 -/

/-- RATE code of PORT.RETRAIN for a rate code of Table 16.19: 128, 64 and 32 GT/s are 0, 1 and 2. -/
def rateCode (r : Nat) : Nat := 3 - r

/-- Sources of sealed tents on a port are authenticated anew at its link-up (R325); a source in MISMATCH stays refused. -/
def authSources (p : Nat) (s : State) : State :=
  (keys s.kpr.tents).foldl (fun s t => match tent s t with
    | some x =>
      if !x.isSealed || !x.sources.any (·.port = p) then s else
      emit (.spdmReq false p 0) (updTent t (fun x => { x with sources := x.sources.map fun y => if y.port = p && y.auth != .mismatch then { y with auth := .pending } else y }) s)
    | none => s) s

/-- INIT on a native link (R372): what this port grants its partner, on each channel. -/
def grantCredits (p : Nat) (s : State) : State :=
  if wireMode (port s p) != 1 then s else
  let gs := (List.range 8).map fun c => (Config.creditGrant c).toNat
  padFlits p (packBytes p (initBytes gs) (emit (.init p gs) (updPort p (fun x => { x with credits := { x.credits with recv := gs } }) s)))

/-- A fabric port reaches L0 (R364, R366). After a retrain its unacknowledged flits go out again (R370). Unless it only retrained, first credits are granted, IDE keys exchanged, and sealed sources authenticate (R372, R330, R325). -/
def fabricUp (p rate width : Nat) (s : State) : State :=
  let s := endLimit (retrainLimit false p) s
  let old := s
  let x := port s p
  let r := min rate (3 - x.maxRate)
  let s := updPort p (fun x => { x with link := .l0, rate := r, width := width, blocked := false, replays := 0, up := true, retrain := [] }) s
  let s := x.retrain.foldl (fun s c => complete c stSuccess 0 (place width 8 8 ||| rateCode r) s) s
  let s := if x.link = .retrain && x.up then replayAll p s else grantCredits p s
  let s := if x.link = .retrain && x.up && !x.blocked then s
    else authSources p (if x.ide then startIde p (updPort p (fun x => { x with ideUp := false }) s) else s)
  let s := noteOver old (holdDiff old s)
  if (find s.chip.resets p).any (·.step = 5) then doneReset p s else s

/-! ### Tray modules -/

/-- Figures of a Lumurn DVSEC (Table 16.14). -/
def dvD (v : Nat) : Nat := bits v 0 16
/-- See `dvD`. -/
def dvK (v : Nat) : Nat := bits v 16 16
/-- See `dvD`. -/
def dvF (v : Nat) : Nat := bits v 32 16
/-- See `dvD`. -/
def dvFlash (v : Nat) : Nat := bits v 48 16
/-- See `dvD`. -/
def dvUnits (v : Nat) : Nat := bits v 64 8

/-- Is a module admitted (R123, R379, R380)? -/
def moduleOk (v : Nat) : Bool :=
  bit v 72 && bits v 80 16 = 1 && dvD v ≤ 1024 && dvF v ≤ 8192 && dvK v ≤ dvD v

/-- The failing item of MODULE_REJECT has no code in the spec: a free value (log entry 2). -/
def rejectModule (m : Nat) (s : State) : State :=
  let (x, s) := drawNat s
  ras 0x09 2 none (selfNode s) x m s

/-- Tiles of regions and allotments on a module, by place. -/
def tilesOn (s : State) (p : Place → Bool) : Nat :=
  s.pool.regions.foldl (fun a e => a + ((regionTiles e.2).filter fun t => p (placeOf s e.2 t)).length) 0

/-- A module's free space after it reports its figures: at first all of it, uncleared in tier 1 (R392); at readmission what its tiles in use leave. -/
def moduleSpace (x : Tray) (v : Nat) : Tray :=
  let n1 := (dvD v - dvK v) * 16384
  let n2 := dvF v * 16384
  let used1 := if x.seen then (x.dGib - x.kGib) * 16384 - x.free1 - x.dirty1 else 0
  let used2 := if x.seen then x.fGib * 16384 - x.free2 else 0
  let f1 := if x.seen then min x.free1 (n1 - used1) else 0
  { x with
    dGib := dvD v, kGib := dvK v, fGib := dvF v, flash := min (dvFlash v) 255
    units := if dvUnits v ≤ 16 then dvUnits v else 0
    free1 := f1, dirty1 := n1 - used1 - f1, free2 := n2 - used2
    admitted := true, seen := true }

/-- A module that lost its power while its link was down (Table 15.12): tier-1 tiles read as poisoned, free ones are uncleared again, allotments too are lost. -/
def modulePowerLost (m : Nat) (s : State) : State :=
  let moved := (keys s.pool.places).filter fun t => find s.pool.places t = some (.t1 m)
  let s := { s with pool := { s.pool with
    lostRuns := s.pool.lostRuns ++ (s.pool.regions.filter fun e => e.2.runs.any fun r => r.tier = 1 && r.mods.contains m).map fun e => (e.2.ext, m)
    lostTiles := moved.foldl insNat s.pool.lostTiles } }
  let s := updTray m (fun x => { x with free1 := 0, dirty1 := x.dirty1 + x.free1 }) s
  (List.range 16).foldl (fun s n => match allotOf s m n with
    | some (_, tiles, base) => updNbu m (fun x => { x with marks := (List.range (tiles * 1024)).foldl (fun l i => insNat l (base * 1024 + i)) x.marks }) s
    | none => s) s

/-- A tray port reaches L0: the module is admitted or rejected (R123, R291, R380); the keeper asks for a session (R382). Whether a module that was down lost its power is a free choice (log entry 2). -/
def trayLinkUp (m rate width v : Nat) (s : State) : State :=
  let x := tray s m
  let was := upOrRetrain x.link
  let s := updTray m (fun x => { x with link := .l0, rate := rate, width := width, replays := 0 }) (endLimit (retrainLimit true m) s)
  if was then s
  else if !moduleOk v then
    attn 4 (attn 5 (rejectModule m (updTray m (fun x => { x with link := .down, admitted := false }) s)))
  else
    let (lost, s) := if x.seen then let (y, s) := drawNat s; (y % 2 = 1, s) else (false, s)
    let s := if lost then modulePowerLost m s else s
    let s := updTray m (fun x => moduleSpace x v) s
    let s := if 16 < dvUnits v then rejectModule m s else s
    emit (.spdmReq true m 0) (attn 5 s)

/-- LINK_UP with the rate code of Table 16.19, the width, and a tray module's DVSEC from offset 0x0C (R366, R380). Traffic runs at 32 GT/s and above (Table 16.3). -/
def execLinkUp (tray : Bool) (port : BitVec 5) (rate : BitVec 2) (width : BitVec 5) (dvsec : BitVec 128) (s : State) : Res :=
  fabricDo (fun s =>
    let p := port.toNat
    let w := width.toNat
    let trains (l : LinkState) : Bool := l = .training || l = .retrain || l = .down
    if rate = 0 || !(w = 4 || w = 8 || (w = 16 && !tray)) then s
    else if tray then
      if p < 8 && trains (Machine.tray s p).link && pdOn s (pdTray p) then trayLinkUp p rate.toNat w dvsec.toNat s else s
    else if p < 20 && trains (Machine.port s p).link && pdOn s (pdFabric p) then fabricUp p rate.toNat w s else s) s

/-- Tags of what a module holds are rewritten at a new session (R382, Table 15.12). -/
def retagModule (m : Nat) (s : State) : State :=
  let s := s.pool.regions.foldl (fun s e =>
    gateTags m (tagOf e.2.slot false) ((regionTiles e.2).filter fun t => placeOf s e.2 t = .t1 m || placeOf s e.2 t = .t2 m).length s) s
  (List.range 16).foldl (fun s n => match allotOf s m n with
    | some (t, tiles, _) => gateTags m (tagOf ((slotOfTent s t).getD 0) true) tiles s
    | none => s) s

/-- A session with a module is open: tags are rewritten, a module seen before resets its units, units are set up (R276, R288, R382, Table 12.12). -/
def sessionUp (m : Nat) (s : State) : State :=
  let again := (nbuOf s m).nextTag != 0
  let s := retagModule m (updTray m (fun x => { x with session := true }) s)
  let s := nearAdmit m (if again && (tray s m).units != 0 then moduleReset m s else s)
  if (find s.chip.resets (0x20 + m)).any (·.step = 5) then doneReset (0x20 + m) s else s

/-- MODULE_SESSION_END: the module counts as UNITS 0 and its tiles are refused; the keeper asks for a new session (R382). -/
def execModuleSessionEnd (tray : BitVec 3) (s : State) : Res :=
  fabricDo (fun s =>
    let m := tray.toNat
    if !(Machine.tray s m).session then s
    else emit (.spdmReq true m 0) (moduleGone m stAborted false (updTray m (fun x => { x with session := false }) s))) s

/-! ### SPDM with devices and modules, IDE -/

/-- An authentication result for the sources on a port (R325): the first digest is recorded, another one later is a MISMATCH for the rest of the tent's life. -/
def authResult (p : Nat) (ok : Bool) (digest : List Byte) (y : Source) : Source :=
  if y.port != p || y.auth != .pending then y
  else if !ok then { y with auth := .failed }
  else match y.digest with
    | none => { y with auth := .authenticated, digest := some digest }
    | some d => { y with auth := if d = digest then .authenticated else .mismatch }

/-- SPDM_RESPONSE: a module opens its session, or an attached device authenticates (R276, R325, R382); a refused exchange leaves an IDE port without keys (R330). -/
def execSpdmResponse (tray : Bool) (port : BitVec 5) (ok : Bool) (digest : List Byte) (s : State) : Res :=
  fabricDo (fun s =>
    let p := port.toNat
    if tray then
      if ok && p < 8 && (Machine.tray s p).admitted && upOrRetrain (Machine.tray s p).link && !(Machine.tray s p).session then sessionUp p s else s
    else if !ok && (domain s (pdFabric p)).holds.contains (.ide p) then resumeDomain (pdFabric p) (ideFailed p s)
    else if upOrRetrain (Machine.port s p).link then
      { s with kpr := { s.kpr with tents := s.kpr.tents.map fun e => (e.1, if e.2.isSealed then { e.2 with sources := e.2.sources.map (authResult p ok digest) } else e.2) } }
    else s) s

/-- IDE_KEYS_READY: the exchange ends, and the port accepts requests (R330, R406). -/
def execIdeKeysReady (port : BitVec 5) (s : State) : Res :=
  fabricDo (fun s =>
    let p := port.toNat
    if (domain s (pdFabric p)).holds.contains (.ide p) then resumeDomain (pdFabric p) (ideReady p s) else s) s

/-- IDE_INTEGRITY_FAILURE: the port fails; its keys are replaced at the next link-up (R375). -/
def execIdeIntegrityFailure (port : BitVec 5) (s : State) : Res :=
  fabricDo (fun s =>
    let p := port.toNat
    if p < 20 && upOrRetrain (Machine.port s p).link && (Machine.port s p).ide && (Machine.port s p).ideUp then portFail p .down s else s) s

end Sys2Proof.Machine
end

