-- ==== Sys2Proof/Machine/Pins.lean ====
section
/-! DEFINITION. Pins: filtered inputs and glitches (R419, R420), interrupt events, tachometers, the safe interval (R423, R425), wake pins and timers (R409), temperature (R428, R429). Inputs are numbered as PIN_SEL numbers them (Table 18.21). -/

namespace Sys2Proof.Machine

/-- Level taken for an input whose filter has accepted none yet: the inactive one (log entry 15). -/
def idleLevel (c : Nat) : Bool := !(c = 2 || c = 3)

/-- A filtered input below code 9. -/
def input (s : State) (c : Nat) : Pin := (find s.chip.pins (100 + c)).getD { level := idleLevel c }

/-- Change a filtered input. -/
def updInput (c : Nat) (f : Pin → Pin) (s : State) : State :=
  { s with chip := { s.chip with pins := put s.chip.pins (100 + c) (f (input s c)) } }

/-- The I/O bank works: main rails up, out of reset, not in SLEEP2 (R418, R426). -/
def ioBank (s : State) : Bool := s.chip.rails && !s.chip.inReset && s.chip.sleep != 2

/-- An input function is connected to a GPF pin (Table 18.8, R425). -/
def gpfInput (s : State) (n : Nat) : Bool := let f := (pin s n).func; !(pin s n).safe && (f = 1 || f = 3 || f = 5)

/-- What GPF pin n drives (R51, R423, R425, R426): its safe level in the safe interval, then what its function drives; an input and a pin that is OFF drive nothing. -/
def gpfDrive (s : State) (n : Nat) : PinDrive :=
  let x := pin s n
  if !ioBank s then .off
  else if x.safe then .level (safeLevel n)
  else if x.func = 2 then .level (fld s .pinGpfOut 0 n 1 = 1)
  else if x.func = 4 then .pwm (fld s (dutyReg n).1 0 (dutyReg n).2 8)
  else if x.func = 6 then .level x.epochOut
  else .off

/-- ALERT_N is asserted (R422). -/
def alertAsserted (s : State) : Bool := ioBank s && fld s .pinIrqStatus 0 20 1 = 1

/-- IRQ_OUT_N is asserted: an EVENT bit that PIN_IRQ_MASK lets through is 1 (R422). -/
def irqOutAsserted (s : State) : Bool := ioBank s && fld s .pinIrqStatus 0 0 20 &&& fld s .pinIrqMask 0 0 20 != 0

/-- One more discarded excursion of an input (R419). -/
def countGlitch (c : Nat) (s : State) : State :=
  { s with chip := { s.chip with glitches := put s.chip.glitches c (satAdd 16 ((find s.chip.glitches c).getD 0) 1) } }

/-- Set an EVENT bit of PIN_IRQ_STATUS (R420). -/
def irqEvent (i : Nat) (s : State) : State := setFld .pinIrqStatus 0 i 1 1 s

/-- A new accepted level on RST_N: a release; one that came before 1 µs had passed counts as a glitch (R419, R387). -/
def acceptReset (level : Bool) (s : State) : State :=
  let was := (input s 0).level
  let s := updInput 0 (fun x => { x with level := level }) s
  if !level then s
  else if s.chip.pinHeld then { s with chip := { s.chip with pinHeld := false } }
  else if was then s else countGlitch 0 s

/-- A new accepted level on WAKE_N: an assertion wakes the device once (Table 18.6). -/
def acceptWake (level : Bool) (s : State) : State :=
  let was := (input s 1).level
  let s := updInput 1 (fun x => { x with level := level }) s
  if was && !level then wakeBy 1 s else s

/-- A new accepted level on a tamper input: lid and light are active high (Table 18.5). -/
def acceptTamper (c : Nat) (level : Bool) (s : State) : State :=
  let was := (input s c).level
  let s := updInput c (fun x => { x with level := level }) s
  if level && !was && c != 4 then hardAlarm (c - 1) s else s

/-- A new accepted level on EXT_IRQ_N: active low (Table 18.5, R420). -/
def acceptIrq (c : Nat) (level : Bool) (s : State) : State :=
  if !ioBank s then s else
  let was := (input s c).level
  let s := updInput c (fun x => { x with level := level, stuck := if level then false else x.stuck }) s
  if was && !level then startLimit (stuckLimit c) 10000000 (irqEvent (c - 5) s) else s

/-- A new accepted level on a GPF pin with an input function (Table 18.8). -/
def acceptGpf (n : Nat) (level : Bool) (s : State) : State :=
  if !ioBank s || !gpfInput s n then s else
  let x := pin s n
  let s := updPin n (fun x => { x with
    level := level
    stuck := if x.func = 3 && level = x.polarity then x.stuck else false
    edges := if x.func = 5 && x.level && !level then x.edges + 1 else x.edges }) s
  if x.func = 3 && level = x.polarity && x.level != x.polarity then startLimit (stuckLimit (16 + n)) 10000000 (irqEvent (4 + n) s) else s

/-- INPUT_ACCEPTED: an input has held a level for 200 ns (R419). -/
def execInputAccepted (pin : BitVec 5) (level : Bool) (s : State) : Res :=
  fabricDo (fun s =>
    let c := pin.toNat
    if c = 0 then acceptReset level s
    else if c = 1 then acceptWake level s
    else if c ≤ 4 then acceptTamper c level s
    else if c ≤ 8 then acceptIrq c level s
    else if 16 ≤ c then acceptGpf (c - 16) level s
    else s) s

/-- INPUT_GLITCH: an excursion shorter than the filter is discarded and counted (R419). -/
def execInputGlitch (pin : BitVec 5) (s : State) : Res :=
  .next (let c := pin.toNat
    if c ≤ 4 || (c ≤ 8 && ioBank s) || (16 ≤ c && ioBank s && gpfInput s (c - 16)) then countGlitch c s else s)

/-- STUCK_TIMER: an interrupt input still active 10 ms after it was accepted (Table 18.6). -/
def execStuckTimer (pin : BitVec 5) (s : State) : Res :=
  .next (let c := pin.toNat
    if !ioBank s then s
    else if 5 ≤ c && c ≤ 8 then if (input s c).level then s else updInput c (fun x => { x with stuck := true }) (limitOver (stuckLimit c) s)
    else if 16 ≤ c then
      let x := Machine.pin s (c - 16)
      if x.func = 3 && !x.safe && x.level = x.polarity then updPin (c - 16) (fun x => { x with stuck := true }) (limitOver (stuckLimit c) s) else s
    else s)

/-- TACH_UPDATE: each second the count of falling edges is published (Table 18.8). -/
def execTachUpdate (pin : BitVec 4) (s : State) : Res :=
  .next (if (Machine.pin s pin.toNat).func = 5 then updPin pin.toNat (fun x => { x with tach := min x.edges 65535, edges := 0 }) s else s)

/-- SAFE_INTERVAL_END: the new function is connected, its filter starting afresh (R425). -/
def execSafeIntervalEnd (pin : BitVec 4) (s : State) : Res :=
  .next (if (Machine.pin s pin.toNat).safe then
      updPin pin.toNat (fun x => { x with safe := false, level := x.func = 3 && !x.polarity, edges := 0, tach := 0, stuck := false }) s
    else s)

/-- WAKE_N: an assertion of the wake pin is accepted (R409). -/
def execWakeN (s : State) : Res := fabricDo (acceptWake false) s

/-- WAKE_TIMER: the wake timer expires (R407). -/
def execWakeTimer (s : State) : Res :=
  fabricDo (fun s => if s.chip.sleep != 0 && s.chip.wakeS != 0 then wakeBy 3 (limitOver wakeLimit s) else s) s

/-- A temperature in 1/16 °C, two's complement. -/
def degrees (v : Nat) : Int := (BitVec.ofNat 16 v).toInt

/-- TEMP_SAMPLE: the highest sensor reading, in 1/16 °C. It moves TEMP, PEAK and THERM_N (R429); outside −10 to 115 °C it is a soft alarm (R428). -/
def execTempSample (reading : BitVec 16) (s : State) : Res :=
  fabricDo (fun s =>
    let t := reading.toInt
    let c : Int := fld s .pinTherm 0 48 8
    let s := { s with chip := { s.chip with therm := if c * 16 ≤ t then true else if t < (c - 5) * 16 then false else s.chip.therm } }
    if !ioBank s then s else
    let s := setFld .pinTherm 0 0 16 reading.toNat s
    let s := if degrees (fld s .pinTherm 0 32 16) < t then setFld .pinTherm 0 32 16 reading.toNat s else s
    if t < -160 || 1840 < t then softAlarm true s else s) s

end Sys2Proof.Machine
end

