-- ==== Sys2Proof/Machine/RegRead.lean ====
section
/-! DEFINITION. Reading registers: the value of every field that reports machine state (the register tables of chapters 2 to 19), and what a read clears (R440, R441). -/

namespace Sys2Proof.Machine

/-- Registers outside the five that tamper lockdown leaves readable read as 0 (R439). -/
def Reg.inLockdown : Reg → Bool
  | .gafId | .gafBootStatus | .kprTamperStatus | .rstCount | .rstCauseLog => true
  | _ => false

/-! ### Codes -/

/-- STATE of PWR_DOMAIN_STATUS (Table 17.29). -/
def PdState.code : PdState → Nat
  | .off => 0
  | .starting => 1
  | .on => 2
  | .stopping => 3
  | .clockStopped => 4
  | .retain => 5

/-- STATE of a link status register (Table 16.19). -/
def LinkState.code : LinkState → Nat
  | .detect => 0
  | .training => 1
  | .l0 => 2
  | .retrain => 3
  | .down => 4
  | .held => 5

/-- Bits of a set, one per index below `n` that passes a test. -/
def bitsWhere (n : Nat) (p : Nat → Bool) : Nat := (List.range n).foldl (fun a i => a ||| place (bitOf (p i)) i 1) 0

/-- Fields of a report: value, least bit, width. -/
abbrev Live := List (Nat × Nat × Nat)

/-! ### Reports, block by block -/

/-- GAF and KPR reports. -/
def liveGaf (s : State) (r : Reg) (i : Nat) : Live :=
  match r with
  | .gafId => [(0x1D9A, 48, 16), (0x2820, 32, 16), (0xB0, 24, 8), (1, 16, 8), (0, 8, 8), (1, 0, 8)]
  | .gafBootStatus => [(s.gaf.blobSeq, 32, 32), (bitOf s.gaf.blobCopy, 9, 1), (bitOf s.gaf.blobValid, 8, 1), (s.chip.straps / 16, 7, 1),
      (bitOf s.gaf.errorHalt, 6, 1), (bitOf (s.kpr.lockdown || s.gaf.bootHalt), 5, 1), (s.gaf.stage, 0, 4)]
  | .gafCmdqStatus => [(bitOf s.gaf.opq.error, 32, 1), (s.gaf.opq.cqTail, 16, 16), (s.gaf.opq.head, 0, 16)]
  | .gafCmdqCqHead => [(s.gaf.opq.cqHead, 0, 16)]
  | .gafEpochStatus => [(bitOf s.gaf.oldMap.isSome, 56, 1), (s.gaf.epoch.toNat, 0, 32),
      (min ((s.gaf.oldMap.map fun o => (s.fab.txns.filter fun x => x.epoch = o.epoch).length).getD 0) (2 ^ 24 - 1), 32, 24)]
  | .gafRushesStatus => [(s.gaf.rushes.state, 61, 3), (bitOf s.gaf.rushes.candidate, 60, 1), (s.gaf.rushes.peer, 46, 14), ((shadowBytes s + 1023) / 1024, 0, 17)]
  | .gafRushesCounts => [(min s.gaf.rushes.compared (2 ^ 32 - 1), 32, 32), (min s.gaf.rushes.mismatch 65535, 16, 16), (min s.gaf.rushes.missing 65535, 0, 16)]
  | .kprFuseFeatures => [(Config.fuseFeatures.toNat, 0, 16)]
  | .kprFuseDebug => [(Config.fuseDebug.toNat, 0, 3)]
  | .kprDeviceDigest => [(leNat (Config.deviceDigest.take 8), 0, 64)]
  | .kprKeyStatus => [(128 - s.kpr.slots.length, 48, 8), ((s.kpr.slots.filter fun e => !s.kpr.tents.any fun t => t.2.slot = e.1).length, 40, 8),
      (bitsWhere 20 fun p => (port s p).ideUp, 0, 20)]
  | .kprTamperStatus => [(bitOf s.kpr.lockdown, 63, 1), (bitOf s.gaf.bootHalt, 7, 1), (bitOf s.kpr.mesh, 2, 1), (bitOf s.kpr.light, 1, 1), (bitOf s.kpr.lid, 0, 1)]
  | .kprTentInfo =>
    match tent s i with
    | none => []
    | some t => [(1, 63, 1), (t.state.code, 61, 2), (bitOf t.isSealed, 60, 1), (bitOf t.consent.isSome, 59, 1),
        ((t.consent.map fun c => c.2.1).getD 0, 57, 2), (t.slot, 50, 7), (t.sources.length, 43, 7),
        ((t.sources.filter fun x => x.auth = .authenticated).length, 36, 7), ((t.sources.filter fun x => x.auth = .mismatch).length, 29, 7),
        (t.images.length, 22, 7), (t.weights.length, 15, 7)]
  | .kprRasStatus => [(s.kpr.rasNext, 32, 32), (bitOf s.gaf.errorHalt, 15, 1), (s.kpr.ras.length, 0, 13)]
  | _ => []

/-- LOCKED of a PLL or monitored input. -/
def pllLocked (s : State) (n : Nat) : Bool := ((find s.chip.plls n).getD {}).locked

/-- HOLD and STATE of a domain. -/
def dom (s : State) (d : Nat) : Domain := (find s.chip.domains d).getD {}

/-- Bit of RST_BLOCK_STATUS for a block code (Tables 17.4 and 17.25). -/
def blockBit (code : Nat) : Nat :=
  if code < 0x20 then code else if code < 0x30 then code - 0x20 + 20 else if code < 0x40 then code - 0x30 + 28
  else if code < 0x50 then code - 0x40 + 32 else code - 0x50 + 40

/-- RST, CLK and PWR reports. -/
def livePower (s : State) (r : Reg) (i : Nat) : Live :=
  match r with
  | .rstCount => [(s.chip.lastDetail, 56, 8), (s.chip.critStreak, 52, 4), (s.chip.count, 0, 32)]
  | .rstCauseLog => (List.range 8).map fun k => (s.chip.causes.getD k 0, 8 * k, 8)
  | .rstBlockStatus => (keys s.chip.resets).map fun c => (1, blockBit c, 1)
  | .clkPllStatus =>
    let x := (find s.chip.plls i).getD {}
    [(bitOf x.locked, 63, 1), (x.ref, 61, 1), (bitOf x.sris, 60, 1), (if pdState s (pllDomain i) = .off then 0 else x.freq, 0, 12)]
  | .clkInputStatus => [(bitOf (pllLocked s 15), 63, 1), (bitOf (pllLocked s 16), 62, 1), (bitOf (pllLocked s 17), 61, 1), (bitOf (pllLocked s 18), 60, 1)]
  | .clkSummary => [(bitsWhere 15 fun k => fld s .clkPllStatus k 62 1 = 1, 32, 15), (bitsWhere 4 fun k => pllLocked s (15 + k), 15, 4), (bitsWhere 15 (pllLocked s), 0, 15)]
  | .pwrDomainStatus => [((pdState s i).code, 61, 3), (bitOf (!(dom s i).holds.isEmpty), 60, 1), (bitOf (dom s i).deferred, 59, 1)]
  | .pwrSleepCtl => [(s.chip.lastWake, 56, 4), (s.chip.sleep, 32, 2)]
  | .pwrSummary => [(bitsWhere 25 fun d => !(dom s d).holds.isEmpty, 32, 25), (bitsWhere 25 fun d => pdState s d = .on, 0, 25)]
  | _ => []

/-- The input that a PIN_SEL code names (Table 18.21). -/
def pinOf (s : State) (c : Nat) : Option Pin :=
  if c ≤ 8 then some (input s c) else if 16 ≤ c then some (pin s (c - 16)) else none

/-- PIN reports. -/
def livePin (s : State) (r : Reg) : Live :=
  match r with
  | .pinStraps => [(s.chip.straps, 0, 5)]
  | .pinGpfFunc => (List.range 16).map fun n => ((pin s n).func, 4 * n, 4)
  | .pinGpfIn => [(bitsWhere 16 fun n => gpfInput s n && (pin s n).level, 0, 16)]
  | .pinIrqStatus => [(bitsWhere 4 fun n => (input s (5 + n)).stuck, 24, 4), (bitsWhere 16 fun n => (pin s n).stuck, 28, 16)]
  | .pinInfo =>
    let c := fld s .pinSel 0 0 5
    match pinOf s c with
    | none => []
    | some x => [((find s.chip.glitches c).getD 0, 48, 16), (x.tach, 32, 16), (bitOf x.stuck, 1, 1), (bitOf (x.level && (c < 16 || gpfInput s (c - 16))), 0, 1)]
  | _ => []

/-- Range-gate entry that RNG_ENTRY_SEL names. -/
def selGate (s : State) : Option RngEntry := find s.fab.gate (fld s .rngEntrySel 0 0 14)

/-- RNG, QMG, SNP and COH reports. -/
def liveCore (s : State) (r : Reg) (i : Nat) : Live :=
  match r with
  | .rngSelfNode => [(bitOf s.fab.self.isSome, 14, 1), (selfNode s, 0, 14)]
  | .rngTentHash =>
    match tent s i with
    | none => []
    | some t => [(1, 15, 1), (t.span, 10, 2), (t.stackSel, 8, 2), (t.seed, 0, 7)]
  | .rngEntryInfo =>
    match selGate s with
    | none => []
    | some e => [(1, 63, 1), (e.tent, 56, 7), (if e.edge then e.target else 0, 20, 14), (bitOf e.edge, 19, 1), (bitOf e.eng, 18, 1), (bitOf e.wr, 17, 1), (bitOf e.rd, 16, 1), (e.source, 0, 14)]
  | .rngEntryBase => [(((selGate s).map (·.base)).getD 0, 0, 48)]
  | .rngEntrySize => [(((selGate s).map (·.size)).getD 0, 0, 49)]
  | .qmgStatus => [(s.qm.shapers.length, 45, 13), (s.qm.hot.length, 28, 17), (s.qm.queues.length, 0, 21)]
  | .qmgQueueInfo =>
    let k := fld s .qmgQueueSel 0 0 20
    match find s.qm.queues k with
    | none => []
    | some x => [(1, 63, 1), (bitOf x.error, 62, 1), (bitOf (s.qm.hot.contains k), 61, 1), (x.tent, 54, 7), (x.cls, 51, 3), ((x.tail - x.head).toNat, 0, 21)]
  | .qmgShaperInfo =>
    match find s.qm.shapers (fld s .qmgShaperSel 0 0 12) with
    | none => []
    | some x => [(1, 63, 1), (bitOf x.reserved, 62, 1), (bitOf x.wide, 61, 1), (x.tent, 54, 7), (if x.wide then 0 else x.cls, 51, 3), (x.kind, 49, 2), (x.index, 44, 5), (x.cir, 0, 32)]
  | .qmgShaperTokens =>
    match find s.qm.shapers (fld s .qmgShaperSel 0 0 12) with
    | none => []
    | some x => [(x.peak / 1000, 32, 32), (x.committed / 1000, 0, 32)]
  | .qmgAdmit =>
    let c := fld s .qmgAdmitSel 0 0 16
    if admitCodes.contains c then
      [(min (admitSum s c).1 (2 ^ 32 - 1), 32, 32), (bitOf (overCommitted s c), 31, 1), (min (admitSum s c).2 (2 ^ 31 - 1), 0, 31)]
    else []
  | .qmgServed => [((find s.qm.served (fld s .qmgServedSel 0 0 16 * 256 + fld s .qmgServedSel 0 16 8)).getD 0, 0, 64)]
  | .snpStatus => [(s.pool.handles.length, 32, 17), (s.pool.regions.length, 0, 19)]
  | .snpPool => [(s.pool.regions.foldl (fun a e => a + ((e.2.writer.map (·.left)).getD 0) + ((e.2.waiting.map (·.reserve)).getD 0)) 0, 32, 23), (s.pool.free0, 0, 23)]
  | .snpCopyStats => [(s.pool.copies.length, 0, 9)]
  | .snpRegionInfo =>
    match region s (fld s .snpRegionSel 0 0 18) with
    | none => []
    | some x => [(1, 63, 1), (bitOf x.writer.isSome, 62, 1), (bitOf (x.waiting.isSome || x.writer.any fun w => w.commitWait.isSome), 61, 1),
        (liveCount x, 57, 4), (x.owner, 50, 7), ((x.writer.map (·.left)).getD 0, 32, 18), (x.current, 0, 32)]
  | .snpGuyInfo =>
    match find s.kpr.guys (fld s .snpGuySel 0 0 18) with
    | none => []
    | some x => [(x.state.code, 61, 3), (bitOf x.secondary, 60, 1), (x.reason, 57, 3), (x.partner, 43, 14), (x.partnerRegion, 25, 18), (x.dirty.length, 0, 25)]
  | .snpReplicaStats => [(s.kpr.replicas.length, 0, 9)]
  | .cohStatus => [(bitOf (!s.coh.flushes.isEmpty), 48, 1), (((List.range 32).filter fun a => agValid (mapVal s .cohAgent a)).length, 32, 6), (s.coh.failed, 0, 32)]
  | _ => []

/-- Tiles that a tier offers to regions, and those free (Table 6.10). -/
def tierSpace (s : State) (k : Nat) : Nat × Nat :=
  let sum (f : Nat → Nat) := (List.range 8).foldl (fun a m => a + f m) 0
  let pools (f : Nat → Nat × Nat × Nat → Nat) := (List.range 16).foldl (fun a p => a + ((t3Pool s p).map (f p)).getD 0) 0
  match k with
  | 0 => ((List.range 4).foldl (fun a j => if pdState s (pdStack j) = .on then a + stackTiles j else a) 0, s.pool.free0)
  | 1 => (sum fun m => if (tray s m).admitted then moduleTiles s m - allotted s m else 0, sum (modFree s 1))
  | 2 => (sum fun m => if (tray s m).admitted then (tray s m).fGib * 16384 else 0, sum (modFree s 2))
  | _ => (pools fun _ x => x.2.2, pools fun p x => x.2.2 - poolUsed s p)

/-- Tiles of a region still to convert (R154). -/
def toConvert (r : Region) : Nat := (r.conv.map fun c => granules r - c.2.1.length).getD 0

/-- Pseudo-channel of stack k with the most corrected errors in the last second (Table 15.24); the lowest of equals. -/
def hotChannel (s : State) (k : Nat) : Nat :=
  (List.range 32).foldl (fun b c => if ((find s.pool.ceLast (32 * k + b)).getD 0) < ((find s.pool.ceLast (32 * k + c)).getD 0) then c else b) 0

/-- HBC and CMP reports. -/
def liveMemory (s : State) (r : Reg) (i : Nat) : Live :=
  match r with
  | .hbcTierFree => [((tierSpace s i).1, 32, 32), ((tierSpace s i).2, 0, 32)]
  | .hbcMigStatus => [(s.pool.hints.foldl (fun a h => a + h.2.moves.length) 0, 32, 32), (s.pool.hints.length, 23, 9)]
  | .hbcScrubStatus => [(s.pool.lastPass, 32, 17), (s.pool.passes % 256, 24, 8), (scrubbed s % scrubGranules, 0, 23)]
  | .hbcTelReads => [((find s.pool.tel (fld s .hbcTelSel 0 0 7 * 4 + i)).getD 0, 0, 64)]
  | .hbcT3PoolHi => [(poolHolds s i, 32, 32)]
  | .hbcEccStatus => [(hotChannel s i, 0, 5)]
  | .cmpStatus => [(s.pool.regions.foldl (fun a e => a + toConvert e.2) 0, 32, 25), (s.pool.blockBufs.length, 16, 9), ((s.pool.regions.filter fun e => e.2.conv.isSome).length, 0, 5)]
  | .cmpLanes => [((s.fab.txns.foldl (fun (l : List (Nat × Nat)) x => match x.stage with | .encoding t b => if l.contains (t, b) then l else (t, b) :: l | _ => l) []).length, 24, 8)]
  | .cmpRegionInfo =>
    match region s (fld s .cmpRegionSel 0 0 18) with
    | none => []
    | some x => [(bitOf x.gsb.isSome, 63, 1), (bitOf x.conv.isSome, 62, 1), ((x.gsb.map (·.size)).getD 0, 60, 2), ((x.gsb.map (·.elem)).getD 0, 58, 2), (toConvert x, 0, 25)]
  | _ => []

/-- STATE of TRY_NBU_STATUS (Table 12.15). -/
def nbuState (s : State) (m : Nat) : Nat :=
  if !trayUp s m then 0 else if (nbuOf s m).resetting then 3 else if (nbuOf s m).running.isSome then 2 else 1

/-- PRT and TRY reports. -/
def livePort (s : State) (r : Reg) (i : Nat) : Live :=
  match r with
  | .prtLinkStatus =>
    let x := port s i
    [(x.role, 61, 3), (x.mode, 59, 2), (bitOf x.ideUp, 58, 1), (bitOf x.enable, 57, 1), (x.link.code, 54, 3), (x.rate, 52, 2), (x.width, 47, 5)]
  | .tryLinkStatus =>
    let x := tray s i
    [(x.link.code, 54, 3), (x.rate, 52, 2), (x.width, 47, 5), (bitOf x.admitted, 46, 1)]
  | .tryModuleInfo =>
    let x := tray s i
    [(x.fGib, 50, 14), (x.dGib, 39, 11), (x.kGib, 28, 11), (x.flash, 20, 8), (x.units, 15, 5)]
  | .tryNbuStatus =>
    let x := nbuOf s i
    [(bitOf (tray s i).admitted, 63, 1), (nbuUnits s i, 58, 5), (nbuState s i, 56, 2), (x.unitGbps, 48, 8), (x.busGbps, 40, 8), (x.keys.length, 35, 5), (x.queue.length, 16, 16)]
  | _ => []

/-- Cells that are active, of a crew. -/
def activeCells (s : State) (k : Nat) : Nat := bitsWhere 32 fun c => (cellOf s (32 * k + c)).state.active

/-- CRW and XSU reports. -/
def liveCrew (s : State) (r : Reg) (i : Nat) : Live :=
  match r with
  | .crwCrewStatus =>
    let x := crewOf s i
    let held := assigned s i
    [(bitOf held.isSome, 63, 1), (bitOf x.loaded, 62, 1), (bitOf (zeroing s i), 61, 1), (held.getD 0, 50, 7), (if x.loaded then x.image else 0, 42, 6), (activeCells s i, 0, 32)]
  | .crwCrewCells =>
    [(bitsWhere 32 fun c => (cellOf s (32 * i + c)).state = .halted, 32, 32), (bitsWhere 32 fun c => (cellOf s (32 * i + c)).state = .faulted, 0, 32)]
  | .crwCellFault =>
    let k := fld s .crwCellSel 0 5 7
    let open_ := (crewOf s k).tent.any (debugOpen s)
    match (cellOf s (32 * k + fld s .crwCellSel 0 0 5)).fault with
    | none => [(bitOf open_, 55, 1)]
    | some f => [(f.cause, 56, 8), (bitOf open_, 55, 1)] ++ (if open_ then [((f.pc - 0x100000).toNat, 32, 21), (f.instr, 0, 32)] else [])
  | .crwSummary => [((s.crw.cells.filter fun e => e.2.state.active).length, 0, 13)]
  | .xsuUnitStatus =>
    match (crewOf s i).area with
    | none => []
    | some a => [(1, 63, 1), (a.records, 32, 16), (a.base / 64, 0, 15)]
  | .xsuUnitCounts => [(min ((crewOf s i).addends / 1024) (2 ^ 32 - 1), 32, 32)]
  | .xsuSummary => [((s.crw.crews.filter fun e => e.2.area.isSome).length, 0, 8)]
  | _ => []

/-- GTH reports. -/
def liveGather (s : State) (r : Reg) : Live :=
  match r with
  | .gthStatus => [(s.gth.tables.length, 44, 9), (s.gth.caches.length, 39, 5), (s.gth.views.length, 30, 9), (s.gth.decodes.length, 17, 13), ((bufBytes s + 1023) / 1024, 0, 17)]
  | .gthTableInfo =>
    match find s.gth.tables (fld s .gthTableSel 0 0 8) with
    | none => []
    | some x => [(1, 63, 1), (x.tent, 56, 7), (x.code, 54, 2), (x.outFmt, 52, 2), (bitsWhere 4 (has x.sets), 48, 4), (x.dim, 32, 13), (x.stride, 0, 32)]
  | .gthKvInfo =>
    match find s.gth.caches (fld s .gthKvSel 0 0 4) with
    | none => []
    | some x => [(1, 63, 1), (x.tent, 56, 7), (x.fmt, 54, 2), (x.hkv, 47, 7), (x.dh, 37, 10), (x.seqs, 24, 13), (x.pages, 0, 24)]
  | _ => []

/-- Fields of a register that report machine state. -/
def live (s : State) (r : Reg) (i : Nat) : Live :=
  match r.place.1 with
  | 0 | 1 => liveGaf s r i
  | 2 | 3 | 4 => livePower s r i
  | 5 => livePin s r
  | 6 | 7 | 8 | 9 => liveCore s r i
  | 10 | 16 => liveMemory s r i
  | 11 | 12 => livePort s r i
  | 13 | 14 => liveCrew s r i
  | 15 => liveGather s r
  | _ => []

/-- Fields that report timing, which the model leaves free (log entry 16): least bit, width, number of values. -/
def timed (s : State) : Reg → List (Nat × Nat × Nat)
  | .crwRingLoad => [(0, 32, 2 ^ 32)]
  | .pwrSleepCtl => if s.chip.sleep = 0 || s.chip.wakeS = 0 then [] else [(0, 32, s.chip.wakeS + 1)]
  | _ => []

/-! ### Reads -/

/-- Put report fields into a value. -/
def putLive (v : Nat) (fs : Live) : Nat := fs.foldl (fun v f => setBitsOf v f.2.1 f.2.2 f.1) v

/-- Draw the timing fields of a register. -/
def drawTimed : List (Nat × Nat × Nat) → Nat → State → Nat × State
  | [], v, s => (v, s)
  | (lo, w, n) :: fs, v, s =>
    let (x, s) := drawNat s
    drawTimed fs (setBitsOf v lo w (x % n)) s

/-- A register as of one instant (R23): stored or map fields, reports, timing. -/
def valueOf (r : Reg) (i : Nat) (s : State) : Nat × State :=
  let s := if r = .qmgShaperTokens then
      match find s.qm.shapers (fld s .qmgShaperSel 0 0 12) with
      | some x => refill x.kind x.index s
      | none => s
    else s
  drawTimed (timed s r) (putLive (if r.isMap then mapVal s r i else stored s r i) (live s r i)) s

/-- RC fields that lie wholly under a mask. -/
def rcMask (r : Reg) (mask : Nat) : Nat :=
  r.fields.foldl (fun a f => if f.acc = .rch && (mask ||| maskOf f.lo f.w) = mask then a ||| maskOf f.lo f.w else a) 0

/-- Clear the RC fields under a mask (R441, R435); a field that the register reports from elsewhere is cleared there. -/
def clearRc (r : Reg) (i mask : Nat) (s : State) : State :=
  let m := rcMask r mask
  if m = 0 then s else
  let s := store r i ((stored s r i ||| m) ^^^ m) s
  match r with
  | .hbcTelReads => { s with pool := { s.pool with tel := del s.pool.tel (fld s .hbcTelSel 0 0 7 * 4 + i) } }
  | .qmgServed => { s with qm := { s.qm with served := del s.qm.served (fld s .qmgServedSel 0 0 16 * 256 + fld s .qmgServedSel 0 16 8) } }
  | .pinInfo => { s with chip := { s.chip with glitches := del s.chip.glitches (fld s .pinSel 0 0 5) } }
  | .xsuUnitCounts => if bit m 32 && 1024 ≤ (crewOf s i).addends then updCrew i (fun x => { x with addends := x.addends % 1024 }) s else s
  | _ => s

/-- A read of the bits under a mask: the whole value, and the state with the RC fields under the mask cleared. -/
def readReg (r : Reg) (i mask : Nat) (s : State) : Nat × State :=
  let (v, s) := valueOf r i s
  (v, clearRc r i mask s)

/-- The management endpoint works: PD 2 out of reset from boot stage 1, not in SLEEP2 (Table 16.11, R407). -/
def endpointUp (s : State) : Bool := !s.chip.inReset && s.chip.sleep != 2 && 1 ≤ s.gaf.stage

/-- What an endpoint read of the register at `a` returns and clears (R434, R435, R439). -/
def endpointRead (a mask : Nat) (s : State) : Nat × State :=
  match regAt a with
  | none => (0, s)
  | some (r, i) =>
    if (s.kpr.lockdown && !r.inLockdown) || regOff s r i then (0, s) else readReg r i mask s

/-- REGISTER_READ_CLEAR: an endpoint read of 4 or 8 bytes, naturally aligned (R435, R441); other lengths are not accepted. -/
def execRegisterReadClear (addr : BitVec 24) (len : BitVec 4) (s : State) : Res :=
  .next (let a := addr.toNat
    if !endpointUp s then s
    else if len = 8 && a % 8 = 0 then
      let (v, s) := endpointRead a (2 ^ 64 - 1) s
      emit (.read a (leBytes 8 v)) s
    else if len = 4 && a % 4 = 0 then
      let lo := 8 * (a % 8)
      let (v, s) := endpointRead (a - a % 8) (maskOf lo 32) s
      emit (.read a (leBytes 4 (bits v lo 32))) s
    else s)

/-- Field checks of CSR.READ (R437, R445). -/
def fieldsCsrRead (s : State) (d : Desc) : Option Nat :=
  let a := opf d 16 0 24
  if !onlyFields d [(16, 0, 24)] || a % 8 != 0 then some stBadField
  else match regAt a with
  | none => some stNotFound
  | some (r, i) => if regAbsent r then some stFeatureDisabled else if regOff s r i then some stPowerOff else none

/-- Body of CSR.READ (Table 19.2). -/
def bodyCsrRead (d : Desc) (c : CRef) (s : State) : State :=
  match fieldsCsrRead s d with
  | some st => reject c st s
  | none =>
    match regAt (opf d 16 0 24) with
    | none => reject c stNotFound s
    | some (r, i) =>
      let (v, s) := readReg r i (2 ^ 64 - 1) s
      complete c stSuccess 0 v s

/-- CSR.READ (R437). -/
def execCsrRead (q : QId) (d : Desc) (s : State) : Res :=
  .next (runI q d { any := false, inHalt := true, sealedOk := true } (fun _ => none) (bodyCsrRead d) s)

end Sys2Proof.Machine
end

