-- ==== Sys2Proof/Machine/RegWrite.lean ====
section
/-! DEFINITION. Writing registers: by the management endpoint and by CSR.WRITE (R434 to R440), with the actions that a write takes; and the two events of the shapers (R298, R300). -/

namespace Sys2Proof.Machine

/-- Clamp a field: what `f` makes of it. -/
def clampFld (v lo w : Nat) (f : Nat → Nat) : Nat := setBitsOf v lo w (f (bits v lo w))

/-- RW fields with a stated range store what they read back as (R440). -/
def clampReg (r : Reg) (v : Nat) : Nat :=
  match r with
  | .gafCmdqCtl => clampFld v 16 5 fun x => if x < 6 || 16 < x then 6 else x
  | .gafAttnCtl => clampFld v 32 8 fun x => min x 63
  | .hbcScrubCtl => clampFld v 0 16 fun x => max 100 (min x 10000)
  | .hbcEccCtl => clampFld v 0 16 fun x => if x = 0 then 1000 else x
  | .cmpWireCtl =>
    let v := clampFld v 1 2 fun x => if x = 3 then 1 else x
    if fused 2 then setBitsOf v 0 1 0 else v
  | .gthBufCtl => clampFld v 0 16 (max 10)
  | .tryNbuCtl => clampFld (clampFld v 16 16 (max 1)) 0 4 fun x => if x = 0 then 8 else x
  | .snpGuyCtl => clampFld v 0 16 (max 20)
  | .prtLinkCtl | .tryLinkCtl => clampFld v 8 8 (max 4)
  | .rstCtl => clampFld v 16 16 (max 10)
  | .pinTherm => clampFld v 48 8 (min 110)
  | _ => v

/-- W1C fields of a register. -/
def Reg.w1c (r : Reg) : Nat := r.maskBy (· = .w1ch)

/-- The stored fields take a masked write by access code: RW fields the masked bits, W1C bits written with 1 clear (R438). -/
def writeStored (r : Reg) (i v mask : Nat) (s : State) : State :=
  let clr := v &&& mask &&& r.w1c
  store r i (clampReg r ((maskedWrite r (stored s r i) v mask ||| clr) ^^^ clr)) s

/-- MASK covers the whole of a WO field (R438). -/
def coversFld (mask lo w : Nat) : Bool := (mask ||| maskOf lo w) = mask

/-- A write to GAF_CMDQ_CTL: VECTOR and SIZE_LOG2 are stored, and a change of ENABLE takes effect (R33, R451). -/
def writeCmdqCtl (v mask : Nat) (s : State) : State :=
  let was := fld s .gafCmdqCtl 0 0 1
  let s := writeStored .gafCmdqCtl 0 v (mask - mask % 2) s
  if mask % 2 = 0 || v % 2 = was then s
  else if v % 2 = 1 then enableQueue .operator s else disableQueue .operator s

/-- The action of a write to RST_WDOG_CTL: a new PERIOD_MS, or 0x5A in KICK while enabled, starts the period (R390). -/
def writeWdog (v mask : Nat) (s : State) : State :=
  let s := writeStored .rstWdogCtl 0 v mask s
  if bits mask 0 16 != 0 || (coversFld mask 56 8 && bits v 56 8 = 0x5A && wdogPeriod s != 0) then wdogRestart s else s

/-- WAKE acts in SLEEP1, and during entry when entry ends (R409). -/
def wakeWrite (s : State) : State := if s.chip.sleep = 1 || s.chip.sleepOp.isSome then drain (wakeBy 2 s) else s

/-- A masked write to a direct register, with its action (R438). -/
def writeReg (r : Reg) (i v mask : Nat) (s : State) : State :=
  match r with
  | .gafCmdqCtl => writeCmdqCtl v mask s
  | .gafCmdqDoorbell => if coversFld mask 0 16 then doorbell .operator (bits v 0 16) s else s
  | .gafCmdqStatus => if bit (v &&& mask) 32 then updQ .operator (fun x => { x with error := false }) s else s
  | .gafCmdqCqHead =>
    let m := bits mask 0 16
    if m = 0 then s else cqHeadWrite .operator (((s.gaf.opq.cqHead ||| m) ^^^ m) ||| (v &&& m)) s
  | .rstCtl =>
    let s := writeStored .rstCtl 0 v mask s
    if coversFld mask 0 8 && bits v 0 8 = 0xA5 then deviceReset cSoftware 0 s else s
  | .rstWdogCtl => writeWdog v mask s
  | .pwrSleepCtl => if bit (v &&& mask) 63 then wakeWrite s else s
  | .tryNbuCtl =>
    let was := stored s .tryNbuCtl 0
    let s := writeStored .tryNbuCtl 0 v mask s
    if stored s .tryNbuCtl 0 = was then s else (List.range 8).foldl (fun s m => if (tray s m).admitted then sendShare m s else s) s
  | _ => writeStored r i v mask s

/-! ### The management endpoint -/

/-- A register of the operator queue (Table 2.1). -/
def Reg.ofQueue : Reg → Bool
  | .gafCmdqBase | .gafCmdqCtl | .gafCmdqDoorbell | .gafCmdqStatus | .gafCmdqCqHead => true
  | _ => false

/-- Neither lockdown nor a halt, in which endpoint writes are ignored (R439). -/
def writesServed (s : State) : Bool := !s.kpr.lockdown && !s.gaf.bootHalt && !s.gaf.errorHalt

/-- Full mask of a register write. -/
def allMask : Nat := 2 ^ 64 - 1

/-- An endpoint write of 8 bytes to an assigned register outside the halts (R434, R436). -/
def endpointWrite (r : Reg) (i v : Nat) (s : State) : State :=
  if r.isMap || r.place.1 = 1 then bump .gafCsrStatus 0 48 16 1 s
  else if regOff s r i then bump .gafCsrStatus 0 16 16 1 s
  else writeReg r i v allMask s

/-- An endpoint write in lockdown or a halt (R439). The operator queue's own registers stay written, since the commands that remain served come through them (log entry 17). -/
def haltedWrite (r : Reg) (i v : Nat) (s : State) : State :=
  if r.ofQueue then (if regOff s r i then s else writeReg r i v allMask s)
  else if r = .rstCtl && !s.kpr.lockdown && bits v 0 8 = 0xA5 then deviceReset cSoftware 0 s
  else s

/-- REGISTER_WRITE: an endpoint write of `len` bytes; any but 8 aligned bytes is discarded and counted (R435). -/
def execRegisterWrite (addr : BitVec 24) (len : BitVec 4) (v : U64) (s : State) : Res :=
  .next (let a := addr.toNat
    if !endpointUp s then s
    else if len != 8 || a % 8 != 0 then (if writesServed s then bump .gafCsrStatus 0 32 16 1 s else s)
    else match regAt a with
    | none => s
    | some (r, i) => if writesServed s then endpointWrite r i v.toNat s else haltedWrite r i v.toNat s)

/-- WATCHDOG_KICK: 0x5A to KICK restarts the period while the watchdog is enabled (R390). -/
def execWatchdogKick (s : State) : Res :=
  .next (if endpointUp s && writesServed s && wdogPeriod s != 0 then wdogRestart s else s)

/-- SOFTWARE_DEVICE_RESET: 0xA5 to DEVICE_RESET, served in the halts and ignored in lockdown (R387, R439). -/
def execSoftwareDeviceReset (s : State) : Res :=
  .next (if endpointUp s && !s.kpr.lockdown then deviceReset cSoftware 0 s else s)

/-- WAKE_BIT: 1 to PWR_SLEEP_CTL.WAKE, through the endpoint or I3C (R409). -/
def execWakeBit (s : State) : Res := .next (if endpointUp s && writesServed s then wakeWrite s else s)

/-! ### CSR.WRITE -/

/-- CSR.WRITE to a direct register, applied when the gaffer executes it: RESULT is the register read after the write, nothing cleared (Table 19.2). A device reset takes the queue with it. -/
def writeDirect (r : Reg) (i : Nat) (d : Desc) (c : CRef) (s : State) : State :=
  let s := if opf d 32 0 64 = 0 then s else writeReg r i (opf d 24 0 64) (opf d 32 0 64) s
  if s.chip.inReset then s else
  let (v, s) := valueOf r i s
  complete c stSuccess 0 v s

/-- CSR.WRITE not staged: a map register is a take of one command, a direct register is written at once (R437). -/
def csrAlone (d : Desc) (x : Staged) (c : CRef) (s : State) : State :=
  match regAt (opf d 16 0 24) with
  | none => reject c stNotFound s
  | some (r, i) => if r.isMap then alone x c s else writeDirect r i d c s

/-- CSR.WRITE (R437). -/
def execCsrWrite (q : QId) (d : Desc) (s : State) : Res :=
  fabricDo (runE q d { any := false, sealedOk := true } false fieldsCsrWrite (fun _ => []) (.csrWrite q d) (csrAlone d)) s

/-! ### Shapers -/

/-- One slot of a reserved shaper: at its time, only its tent is served, up to CBS bytes, and what it leaves is idle (R300). -/
def runSlot (k : Nat) (s : State) : State :=
  match find s.qm.shapers k with
  | none => s
  | some x =>
    let s := clockTo x.due (updShaper k (fun x => { x with slotLeft := x.cbs, slots := x.slots + 1 }) s)
    let s := if x.kind = 0 then pumpPort x.index (some x.tent) s else servePoint (256 * x.kind + x.index) (some x.tent) s
    updShaper k (fun x => { x with slotLeft := 0 }) s

/-- The reserved shaper of a point whose slot is due first, by time and then by tent, among those due no later than `last` (R300). -/
def firstSlot (s : State) (kind ix : Nat) (last : Nat × Nat) : Option Nat :=
  (s.qm.shapers.foldl (fun (best : Option (Nat × Shaper)) e =>
    if e.2.reserved && e.2.kind = kind && e.2.index = ix && keyLe (e.2.due, e.2.tent) last
      && best.all fun b => !keyLe (b.2.due, b.2.tent) (e.2.due, e.2.tent) then some e else best) none).map Prod.fst

/-- The slots of a point up to `last`, in their order. -/
def slotLoop (kind ix : Nat) (last : Nat × Nat) : Nat → State → State
  | 0, s => s
  | n + 1, s =>
    match firstSlot s kind ix last with
    | some k => slotLoop kind ix last n (runSlot k s)
    | none => s

/-- RESERVED_SLOT_DUE: the slot of a reserved shaper begins, after those of its point that fall due before it (R300). -/
def execReservedSlotDue (entry : BitVec 12) (s : State) : Res :=
  .next (match find s.qm.shapers entry.toNat with
    | none => s
    | some x => if !x.reserved then s else drain (slotLoop x.kind x.index (x.due, x.tent) (2 ^ 16) s))

/-- SHAPER_BUCKET_REFILL: the buckets have gained tokens, and units that waited for them may pass (R298). -/
def execShaperBucketRefill (entry : BitVec 12) (s : State) : Res :=
  match find s.qm.shapers entry.toNat with
  | none => .next s
  | some x => fabricDo (fun s => refill x.kind x.index s) s

end Sys2Proof.Machine
end

