-- ==== Sys2Proof/Machine/Scalar.lean ====
section
/-! DEFINITION. Scalar Burpor instructions: arithmetic, logic, predicates, long format, branches, loads and stores (R169 to R173, Tables 8.5 to 8.10). -/

namespace Sys2Proof.Machine

/-- High 64 bits of a product. -/
def mulHigh (a b : Int) : U64 := BitVec.ofInt 64 (a * b / 2 ^ 64)

/-- Number of leading zeros, 64 for zero (Table 8.5). -/
def clz64 (v : U64) : U64 := BitVec.ofNat 64 (if v = 0 then 64 else 63 - Nat.log2 v.toNat)

/-- Number of trailing zeros, 64 for zero (Table 8.5). -/
def ctz64 (v : U64) : U64 := BitVec.ofNat 64 (((List.range 64).find? fun i => v.getLsbD i).getD 64)

/-- Number of 1 bits (Table 8.5). -/
def popc64 (v : U64) : U64 := BitVec.ofNat 64 (popCount 64 v.toNat)

/-- Signed quotient: -1 for a zero divisor, -2^63 for -2^63 / -1 (Table 8.5). -/
def divS (a b : U64) : U64 := if b = 0 then BitVec.allOnes 64 else a.sdiv b

/-- Unsigned quotient: 2^64 - 1 for a zero divisor (Table 8.5). -/
def divU (a b : U64) : U64 := if b = 0 then BitVec.allOnes 64 else a / b

/-- Signed remainder with the dividend's sign; the dividend for a zero divisor (Table 8.5). -/
def remS (a b : U64) : U64 := if b = 0 then a else a.srem b

/-- Unsigned remainder; the dividend for a zero divisor (Table 8.5). -/
def remU (a b : U64) : U64 := if b = 0 then a else a % b

/-- A register-register operation on the values of gs1 and gs2. -/
def runRR (c : CellId) (i : Instr) (d s1 s2 : BitVec 5) (f : U64 → U64 → U64) (s : State) : State :=
  runG c i d (fun x => f (x.rg s1) (x.rg s2)) s

/-- A branch (R170): taken to its own address plus sext(off12) * 4. -/
def runBranch (c : CellId) (i : Instr) (off : BitVec 12) (taken : Cell → Bool) (s : State) : State :=
  runPure c i (fun x => if taken x then .jump x (x.pc + sx12 off * 4) else .done x) s

/-- Scalar add. (R169, Table 8.5) -/
def execAdd (c : CellId) (d s1 s2 : BitVec 5) (s : State) : Res :=
  .next (runRR c (.add c d s1 s2) d s1 s2 (fun a b => a + b) s)

/-- Scalar subtract. (R169, Table 8.5) -/
def execSub (c : CellId) (d s1 s2 : BitVec 5) (s : State) : Res :=
  .next (runRR c (.sub c d s1 s2) d s1 s2 (fun a b => a - b) s)

/-- Bitwise AND. (R169, Table 8.5) -/
def execAnd (c : CellId) (d s1 s2 : BitVec 5) (s : State) : Res :=
  .next (runRR c (.and c d s1 s2) d s1 s2 (fun a b => a &&& b) s)

/-- Bitwise OR. (R169, Table 8.5) -/
def execOr (c : CellId) (d s1 s2 : BitVec 5) (s : State) : Res :=
  .next (runRR c (.or c d s1 s2) d s1 s2 (fun a b => a ||| b) s)

/-- Bitwise XOR. (R169, Table 8.5) -/
def execXor (c : CellId) (d s1 s2 : BitVec 5) (s : State) : Res :=
  .next (runRR c (.xor c d s1 s2) d s1 s2 (fun a b => a ^^^ b) s)

/-- Left shift by gs2[5:0]. (R169, Table 8.5) -/
def execShl (c : CellId) (d s1 s2 : BitVec 5) (s : State) : Res :=
  .next (runRR c (.shl c d s1 s2) d s1 s2 (fun a b => a <<< (b.toNat % 64)) s)

/-- Zero-fill right shift by gs2[5:0]. (R169, Table 8.5) -/
def execShr (c : CellId) (d s1 s2 : BitVec 5) (s : State) : Res :=
  .next (runRR c (.shr c d s1 s2) d s1 s2 (fun a b => a >>> (b.toNat % 64)) s)

/-- Sign-fill right shift by gs2[5:0]. (R169, Table 8.5) -/
def execSra (c : CellId) (d s1 s2 : BitVec 5) (s : State) : Res :=
  .next (runRR c (.sra c d s1 s2) d s1 s2 (fun a b => a.sshiftRight (b.toNat % 64)) s)

/-- Signed set-less-than. (R169, Table 8.5) -/
def execSlt (c : CellId) (d s1 s2 : BitVec 5) (s : State) : Res :=
  .next (runRR c (.slt c d s1 s2) d s1 s2 (fun a b => if a.slt b then 1 else 0) s)

/-- Unsigned set-less-than. (R169, Table 8.5) -/
def execSltu (c : CellId) (d s1 s2 : BitVec 5) (s : State) : Res :=
  .next (runRR c (.sltu c d s1 s2) d s1 s2 (fun a b => if a.ult b then 1 else 0) s)

/-- Signed minimum. (R169, Table 8.5) -/
def execMin (c : CellId) (d s1 s2 : BitVec 5) (s : State) : Res :=
  .next (runRR c (.min c d s1 s2) d s1 s2 (fun a b => if a.slt b then a else b) s)

/-- Signed maximum. (R169, Table 8.5) -/
def execMax (c : CellId) (d s1 s2 : BitVec 5) (s : State) : Res :=
  .next (runRR c (.max c d s1 s2) d s1 s2 (fun a b => if a.slt b then b else a) s)

/-- Unsigned minimum. (R169, Table 8.5) -/
def execMinu (c : CellId) (d s1 s2 : BitVec 5) (s : State) : Res :=
  .next (runRR c (.minu c d s1 s2) d s1 s2 (fun a b => if a.ult b then a else b) s)

/-- Unsigned maximum. (R169, Table 8.5) -/
def execMaxu (c : CellId) (d s1 s2 : BitVec 5) (s : State) : Res :=
  .next (runRR c (.maxu c d s1 s2) d s1 s2 (fun a b => if a.ult b then b else a) s)

/-- Low 64 bits of the product. (R169, Table 8.5) -/
def execMul (c : CellId) (d s1 s2 : BitVec 5) (s : State) : Res :=
  .next (runRR c (.mul c d s1 s2) d s1 s2 (fun a b => a * b) s)

/-- High 64 bits of the signed product. (R169, Table 8.5) -/
def execMulh (c : CellId) (d s1 s2 : BitVec 5) (s : State) : Res :=
  .next (runRR c (.mulh c d s1 s2) d s1 s2 (fun a b => mulHigh a.toInt b.toInt) s)

/-- High 64 bits of the unsigned product. (R169, Table 8.5) -/
def execMulhu (c : CellId) (d s1 s2 : BitVec 5) (s : State) : Res :=
  .next (runRR c (.mulhu c d s1 s2) d s1 s2 (fun a b => mulHigh a.toNat b.toNat) s)

/-- Signed divide. (R169, Table 8.5) -/
def execDiv (c : CellId) (d s1 s2 : BitVec 5) (s : State) : Res :=
  .next (runRR c (.div c d s1 s2) d s1 s2 (fun a b => divS a b) s)

/-- Unsigned divide. (R169, Table 8.5) -/
def execDivu (c : CellId) (d s1 s2 : BitVec 5) (s : State) : Res :=
  .next (runRR c (.divu c d s1 s2) d s1 s2 (fun a b => divU a b) s)

/-- Signed remainder. (R169, Table 8.5) -/
def execRem (c : CellId) (d s1 s2 : BitVec 5) (s : State) : Res :=
  .next (runRR c (.rem c d s1 s2) d s1 s2 (fun a b => remS a b) s)

/-- Unsigned remainder. (R169, Table 8.5) -/
def execRemu (c : CellId) (d s1 s2 : BitVec 5) (s : State) : Res :=
  .next (runRR c (.remu c d s1 s2) d s1 s2 (fun a b => remU a b) s)

/-- Population count. (R169, Table 8.5) -/
def execPopc (c : CellId) (d s1 : BitVec 5) (s : State) : Res :=
  .next (runG c (.popc c d s1) d (fun x => popc64 (x.rg s1)) s)

/-- Count leading zeros. (R169, Table 8.5) -/
def execClz (c : CellId) (d s1 : BitVec 5) (s : State) : Res :=
  .next (runG c (.clz c d s1) d (fun x => clz64 (x.rg s1)) s)

/-- Count trailing zeros. (R169, Table 8.5) -/
def execCtz (c : CellId) (d s1 : BitVec 5) (s : State) : Res :=
  .next (runG c (.ctz c d s1) d (fun x => ctz64 (x.rg s1)) s)

/-- Add an immediate. (R169, Table 8.6) -/
def execAddi (c : CellId) (d s1 : BitVec 5) (imm : BitVec 12) (s : State) : Res :=
  .next (runG c (.addi c d s1 imm) d (fun x => x.rg s1 + sx12 imm) s)

/-- AND with an immediate. (R169, Table 8.6) -/
def execAndi (c : CellId) (d s1 : BitVec 5) (imm : BitVec 12) (s : State) : Res :=
  .next (runG c (.andi c d s1 imm) d (fun x => x.rg s1 &&& sx12 imm) s)

/-- OR with an immediate. (R169, Table 8.6) -/
def execOri (c : CellId) (d s1 : BitVec 5) (imm : BitVec 12) (s : State) : Res :=
  .next (runG c (.ori c d s1 imm) d (fun x => x.rg s1 ||| sx12 imm) s)

/-- XOR with an immediate. (R169, Table 8.6) -/
def execXori (c : CellId) (d s1 : BitVec 5) (imm : BitVec 12) (s : State) : Res :=
  .next (runG c (.xori c d s1 imm) d (fun x => x.rg s1 ^^^ sx12 imm) s)

/-- Left shift by an immediate. (R169, Table 8.6) -/
def execShli (c : CellId) (d s1 : BitVec 5) (imm : BitVec 6) (s : State) : Res :=
  .next (runG c (.shli c d s1 imm) d (fun x => x.rg s1 <<< imm.toNat) s)

/-- Zero-fill right shift by an immediate. (R169, Table 8.6) -/
def execShri (c : CellId) (d s1 : BitVec 5) (imm : BitVec 6) (s : State) : Res :=
  .next (runG c (.shri c d s1 imm) d (fun x => x.rg s1 >>> imm.toNat) s)

/-- Sign-fill right shift by an immediate. (R169, Table 8.6) -/
def execSrai (c : CellId) (d s1 : BitVec 5) (imm : BitVec 6) (s : State) : Res :=
  .next (runG c (.srai c d s1 imm) d (fun x => (x.rg s1).sshiftRight imm.toNat) s)

/-- Compare registers into a predicate. (R169, Table 8.7) -/
def execCmp (c : CellId) (cc : CC) (pd : BitVec 3) (s1 s2 : BitVec 5) (s : State) : Res :=
  .next (runP c (.cmp c cc pd s1 s2) pd (fun x => predAll (ccHolds cc (x.rg s1) (x.rg s2))) s)

/-- Compare with an immediate into a predicate. (R169, Table 8.7) -/
def execCmpi (c : CellId) (cc : CC) (pd : BitVec 3) (s1 : BitVec 5) (imm : BitVec 12) (s : State) : Res :=
  .next (runP c (.cmpi c cc pd s1 imm) pd (fun x => predAll (ccHolds cc (x.rg s1) (sx12 imm))) s)

/-- Predicate AND. (R169, Table 8.7) -/
def execPand (c : CellId) (pd p1 p2 : BitVec 3) (s : State) : Res :=
  .next (runP c (.pand c pd p1 p2) pd (fun x => x.rp p1 &&& x.rp p2) s)

/-- Predicate OR. (R169, Table 8.7) -/
def execPor (c : CellId) (pd p1 p2 : BitVec 3) (s : State) : Res :=
  .next (runP c (.por c pd p1 p2) pd (fun x => x.rp p1 ||| x.rp p2) s)

/-- Predicate XOR. (R169, Table 8.7) -/
def execPxor (c : CellId) (pd p1 p2 : BitVec 3) (s : State) : Res :=
  .next (runP c (.pxor c pd p1 p2) pd (fun x => x.rp p1 ^^^ x.rp p2) s)

/-- Predicate AND-NOT. (R169, Table 8.7) -/
def execPandn (c : CellId) (pd p1 p2 : BitVec 3) (s : State) : Res :=
  .next (runP c (.pandn c pd p1 p2) pd (fun x => x.rp p1 &&& ~~~(x.rp p2)) s)

/-- Select between registers by bit 0 of a predicate. (R169, Table 8.7) -/
def execSel (c : CellId) (d s1 s2 : BitVec 5) (p : BitVec 3) (s : State) : Res :=
  .next (runG c (.sel c d s1 s2 p) d (fun x => if (x.rp p).getLsbD 0 then x.rg s1 else x.rg s2) s)

/-- Move a predicate into a register. (R169, Table 8.7) -/
def execPmov (c : CellId) (d : BitVec 5) (p1 : BitVec 3) (s : State) : Res :=
  .next (runG c (.pmov c d p1) d (fun x => (x.rp p1).setWidth 64) s)

/-- Set a predicate from the low 32 bits of a register. (R169, Table 8.7) -/
def execPset (c : CellId) (pd : BitVec 3) (s1 : BitVec 5) (s : State) : Res :=
  .next (runP c (.pset c pd s1) pd (fun x => (x.rg s1).setWidth 32) s)

/-- Load an upper immediate. (R169, Table 8.8) -/
def execLui (c : CellId) (d : BitVec 5) (imm : BitVec 20) (s : State) : Res :=
  .next (runG c (.lui c d imm) d (fun _ => sx20 imm <<< 12) s)

/-- Shift in 20 immediate bits. (R169, Table 8.8) -/
def execLsh (c : CellId) (d : BitVec 5) (imm : BitVec 20) (s : State) : Res :=
  .next (runG c (.lsh c d imm) d (fun x => (x.rg d <<< 20) ||| imm.setWidth 64) s)

/-- Jump and link. (R170, Table 8.8) -/
def execJal (c : CellId) (d : BitVec 5) (imm : BitVec 20) (s : State) : Res :=
  .next (runPure c (.jal c d imm) (fun x => .jump (x.wg d (x.pc + 4)) (x.pc + sx20 imm * 4)) s)

/-- PC-relative address. (R169, Table 8.8) -/
def execLpc (c : CellId) (d : BitVec 5) (imm : BitVec 20) (s : State) : Res :=
  .next (runG c (.lpc c d imm) d (fun x => x.pc + sx20 imm * 4) s)

/-- Branch if equal. (R170, Table 8.9) -/
def execBeq (c : CellId) (s1 s2 : BitVec 5) (off : BitVec 12) (s : State) : Res :=
  .next (runBranch c (.beq c s1 s2 off) off (fun x => ccHolds .eq (x.rg s1) (x.rg s2)) s)

/-- Branch if not equal. (R170, Table 8.9) -/
def execBne (c : CellId) (s1 s2 : BitVec 5) (off : BitVec 12) (s : State) : Res :=
  .next (runBranch c (.bne c s1 s2 off) off (fun x => ccHolds .ne (x.rg s1) (x.rg s2)) s)

/-- Branch if signed less. (R170, Table 8.9) -/
def execBlt (c : CellId) (s1 s2 : BitVec 5) (off : BitVec 12) (s : State) : Res :=
  .next (runBranch c (.blt c s1 s2 off) off (fun x => ccHolds .lt (x.rg s1) (x.rg s2)) s)

/-- Branch if signed greater or equal. (R170, Table 8.9) -/
def execBge (c : CellId) (s1 s2 : BitVec 5) (off : BitVec 12) (s : State) : Res :=
  .next (runBranch c (.bge c s1 s2 off) off (fun x => ccHolds .ge (x.rg s1) (x.rg s2)) s)

/-- Branch if unsigned less. (R170, Table 8.9) -/
def execBltu (c : CellId) (s1 s2 : BitVec 5) (off : BitVec 12) (s : State) : Res :=
  .next (runBranch c (.bltu c s1 s2 off) off (fun x => ccHolds .ltu (x.rg s1) (x.rg s2)) s)

/-- Branch if unsigned greater or equal. (R170, Table 8.9) -/
def execBgeu (c : CellId) (s1 s2 : BitVec 5) (off : BitVec 12) (s : State) : Res :=
  .next (runBranch c (.bgeu c s1 s2 off) off (fun x => ccHolds .geu (x.rg s1) (x.rg s2)) s)

/-- Branch if bit 0 of a predicate is set. (R170, Table 8.9) -/
def execBp (c : CellId) (p : BitVec 3) (off : BitVec 12) (s : State) : Res :=
  .next (runBranch c (.bp c p off) off (fun x => (x.rp p).getLsbD 0) s)

/-- Branch if bit 0 of a predicate is clear. (R170, Table 8.9) -/
def execBnp (c : CellId) (p : BitVec 3) (off : BitVec 12) (s : State) : Res :=
  .next (runBranch c (.bnp c p off) off (fun x => !(x.rp p).getLsbD 0) s)

/-- Jump to a register target and link; a target that is not a multiple of 4 raises MISALIGNED. (R170, Table 8.9) -/
def execJalr (c : CellId) (d s1 : BitVec 5) (imm : BitVec 12) (s : State) : Res :=
  .next (runPure c (.jalr c d s1 imm) (fun x =>
    let t := x.rg s1 + sx12 imm
    if t.toNat % 4 != 0 then .raise cMisaligned t.toNat 0 else .jump (x.wg d (x.pc + 4)) t) s)

/-- Load a byte, sign-extended. (R171, Table 8.10) -/
def execLb (c : CellId) (r b : BitVec 5) (off : BitVec 12) (s : State) : Res :=
  .next (runLoad c (.lb c r b off) r b off 1 true s)

/-- Load a half, sign-extended. (R171, Table 8.10) -/
def execLh (c : CellId) (r b : BitVec 5) (off : BitVec 12) (s : State) : Res :=
  .next (runLoad c (.lh c r b off) r b off 2 true s)

/-- Load a word, sign-extended. (R171, Table 8.10) -/
def execLw (c : CellId) (r b : BitVec 5) (off : BitVec 12) (s : State) : Res :=
  .next (runLoad c (.lw c r b off) r b off 4 true s)

/-- Load a doubleword. (R171, Table 8.10) -/
def execLd (c : CellId) (r b : BitVec 5) (off : BitVec 12) (s : State) : Res :=
  .next (runLoad c (.ld c r b off) r b off 8 true s)

/-- Load a byte, zero-extended. (R171, Table 8.10) -/
def execLbu (c : CellId) (r b : BitVec 5) (off : BitVec 12) (s : State) : Res :=
  .next (runLoad c (.lbu c r b off) r b off 1 false s)

/-- Load a half, zero-extended. (R171, Table 8.10) -/
def execLhu (c : CellId) (r b : BitVec 5) (off : BitVec 12) (s : State) : Res :=
  .next (runLoad c (.lhu c r b off) r b off 2 false s)

/-- Load a word, zero-extended. (R171, Table 8.10) -/
def execLwu (c : CellId) (r b : BitVec 5) (off : BitVec 12) (s : State) : Res :=
  .next (runLoad c (.lwu c r b off) r b off 4 false s)

/-- Store a byte. (R171, Table 8.10) -/
def execSb (c : CellId) (r b : BitVec 5) (off : BitVec 12) (s : State) : Res :=
  .next (runStore c (.sb c r b off) r b off 1 s)

/-- Store a half. (R171, Table 8.10) -/
def execSh (c : CellId) (r b : BitVec 5) (off : BitVec 12) (s : State) : Res :=
  .next (runStore c (.sh c r b off) r b off 2 s)

/-- Store a word. (R171, Table 8.10) -/
def execSw (c : CellId) (r b : BitVec 5) (off : BitVec 12) (s : State) : Res :=
  .next (runStore c (.sw c r b off) r b off 4 s)

/-- Store a doubleword. (R171, Table 8.10) -/
def execSt (c : CellId) (r b : BitVec 5) (off : BitVec 12) (s : State) : Res :=
  .next (runStore c (.st c r b off) r b off 8 s)

/-- Zero a local line and clear its poison mark. (R173, Table 8.10) -/
def execZline (c : CellId) (b : BitVec 5) (off : BitVec 12) (s : State) : Res :=
  .next (runCell c (.zline c b off) (fun x s =>
    let a := memAddr x b off
    match storeCheck s (cellNum c) a 64 64 with
    | .error e => accessFault (cellNum c) e a s
    | .ok l =>
      let s := locMark (cellNum c) l false (locWrite (cellNum c) l (List.replicate 64 0) s)
      (.done { x with scratch := (cellOf s (cellNum c)).scratch, marks := (cellOf s (cellNum c)).marks }, s)) s)

/-- An unassigned or malformed instruction raises ILLEGAL; a word that spells an instruction is not this command's, and changes nothing. (R168) -/
def execIllegalInstruction (c : CellId) (w : BitVec 32) (s : State) : Res :=
  .next (if (decodeBurpor c w).isSome || (cellOf s (cellNum c)).state != .running then s
    else
      let x := cellOf s (cellNum c)
      if !fetchable? s (cellNum c) x.pc.toNat then raiseCell (cellNum c) cFetch w.toNat x.pc.toNat 0 s
      else if inArea (crewOf s (cellNum c / 32)) (x.pc.toNat - crewBase) 4 then raiseCell (cellNum c) cXlock w.toNat x.pc.toNat 0 (countXlock (cellNum c / 32) s)
      else raiseCell (cellNum c) cIllegal w.toNat 0 0 s)

/-- Raise TRAP with a value. (R180, Table 8.13) -/
def execTrap (c : CellId) (s1 : BitVec 5) (s : State) : Res :=
  .next (runPure c (.trap c s1) (fun x => .raise cTrap 0 (x.rg s1).toNat) s)

/-- Raise BREAK. (R180, Table 8.13) -/
def execBrk (c : CellId) (s : State) : Res :=
  .next (runPure c (.brk c) (fun _ => .raise cBreak 0 0) s)

end Sys2Proof.Machine
end

