-- ==== Sys2Proof/Machine/Vector.lean ====
section
/-! DEFINITION. Vector instructions and the exact accumulators of a cell (R191 to R212, Tables 9.6 to 9.9). -/

namespace Sys2Proof.Machine

/-- A vector instruction: ILLEGAL unless its tag and predicate fields are accepted (R168, R193, R198). -/
def runV (c : CellId) (i : Instr) (ok : Bool) (f : Cell → CellOut) (s : State) : State :=
  runPure c i (fun x => if ok then f x else .raise cIllegal 0 0) s

/-- Two elements through an operation on values, or on integers, rounded or wrapped (R194). -/
def numOp (t : BitVec 4) (g : FV → FV → FV) (h : Int → Int → Int) (a b : Nat) : Nat :=
  match tagFF t with
  | some f => f.round (g (f.decode a) (f.decode b))
  | none => wrap (tagBits t) (h (sext (tagBits t) a) (sext (tagBits t) b))

/-- One element through an operation. -/
def numOp1 (t : BitVec 4) (g : FV → FV) (h : Int → Int) (a : Nat) : Nat :=
  match tagFF t with
  | some f => f.round (g (f.decode a))
  | none => wrap (tagBits t) (h (sext (tagBits t) a))

/-- An element-wise instruction of two sources: `f a b d` on the elements of vs1, vs2 and vd (Table 9.6). -/
def runElem (c : CellId) (i : Instr) (ok : Bool) (vd vs1 vs2 t : BitVec 4) (p : BitVec 3) (f : Nat → Nat → Nat → Nat) (s : State) : State :=
  runV c i ok (fun x =>
    let w := tagBits t
    .done (x.wv vd (mapElems (x.rp p) w (tagCount t) (x.rv vd) fun k => f (elem (x.rv vs1) w k) (elem (x.rv vs2) w k) (elem (x.rv vd) w k)))) s

/-- A vector comparison into a predicate (R199). -/
def runCompare (c : CellId) (i : Instr) (pd : BitVec 3) (vs1 vs2 t : BitVec 4) (p : BitVec 3) (g : FV → FV → Bool) (h : Int → Int → Bool) (s : State) : State :=
  runV c i (tagF t || tagI t) (fun x =>
    let w := tagBits t
    .done (x.wp pd (predElems (x.rp p) w (tagCount t) fun k =>
      let a := elem (x.rv vs1) w k
      let b := elem (x.rv vs2) w k
      match tagFF t with
      | some f => g (f.decode a) (f.decode b)
      | none => h (sext w a) (sext w b)))) s

/-- A function of R200 on every governed element. -/
def runFn (c : CellId) (i : Instr) (vd vs1 t : BitVec 4) (p : BitVec 3) (g : FV → FV) (s : State) : State :=
  runElem c i (tagFn t) vd vs1 vs1 t p (fun a _ _ => numOp1 t g id a) s

/-- The predicate field of a dot product is acceptable: a scale predicate other than p0 for MX tags, none for .i4 (R192, R196, R201). -/
def dotOk (t : BitVec 4) (p : BitVec 3) : Bool :=
  tagDot t && (if tagMX t then p != 0 else t != 0x6 || p = 0)

/-- Lane `i` of a dot product (R201). -/
def dotLane (t : BitVec 4) (p : BitVec 32) (a b : BitVec 256) (old i : Nat) : Nat :=
  let n := tagCount t / 8
  let ks := (List.range n).map (n * i + ·)
  if t = 0x5 || t = 0x6 then
    wrap 32 (ks.foldl (fun v k => v + sext (tagBits t) (elem a (tagBits t) k) * sext (tagBits t) (elem b (tagBits t) k)) (sext 32 old))
  else
    FF.f32.round (sumFV (FF.f32.decode old :: ks.map fun k => mulFV (elemValue t p 0 a k) (elemValue t p 1 b k)))

/-- The result of a dot product: governed by lane except for MX tags (R201). -/
def dotResult (t : BitVec 4) (p : BitVec 32) (a b old : BitVec 256) : BitVec 256 :=
  mapElems (if tagMX t then BitVec.allOnes 32 else p) 32 8 old fun i => dotLane t p a b (elem old 32 i) i

/-- vdotm and vdotm+: the first operand from local memory (R202). -/
def runDotM (c : CellId) (i : Instr) (vd n vs2 t : BitVec 4) (p : BitVec 3) (inc : Bool) (s : State) : State :=
  runCell c i (fun x s =>
    if !dotOk t p then (.raise cIllegal 0 0, s) else
    let gn : BitVec 5 := n.setWidth 5
    loadThen (cellNum c) (x.rg gn).toNat 32 32 (fun bs =>
      let y := x.wv vd (dotResult t (x.rp p) (BitVec.ofNat 256 (leNat bs)) (x.rv vs2) (x.rv vd))
      .done (if inc then y.wg gn (x.rg gn + 32) else y)) s) s

/-- A reduction into element 0, the other elements 0 (Table 9.8). -/
def runReduce (c : CellId) (i : Instr) (ok : Bool) (vd vs1 t : BitVec 4) (p : BitVec 3) (f : List (Option Nat) → Nat) (s : State) : State :=
  runV c i ok (fun x =>
    let w := tagBits t
    .done (x.wv vd (vecOf w [f ((List.range (tagCount t)).map fun k => if governed (x.rp p) w k then some (elem (x.rv vs1) w k) else none)]))) s

/-- Sum of the governed elements: the ordered tree for floating tags, wrapping for integers (R205, R206). -/
def redSum (t : BitVec 4) (ls : List (Option Nat)) : Nat :=
  match tagFF t with
  | some f => match treeSum (fun a b => f.round (sumFV [f.decode a, f.decode b])) 40 ls with
    | some v => f.round (f.decode v)
    | none => 0
  | none => wrap (tagBits t) (ls.foldl (fun v l => v + sext (tagBits t) (l.getD 0)) 0)

/-- Extremum of the governed elements, or the value for none (R205). -/
def redExt (t : BitVec 4) (big : Bool) (ls : List (Option Nat)) : Nat :=
  let es := ls.filterMap id
  match es with
  | [] => match tagFF t with
    | some f => f.nan
    | none => if big then 2 ^ (tagBits t - 1) else 2 ^ (tagBits t - 1) - 1
  | e :: es => es.foldl (fun a b => numOp t (if big then maxFV else minFV) (fun x y => if big then Max.max x y else Min.min x y) a b)
      (numOp1 t id id e)

/-- The pair of tags that vcvt accepts, and its part k (R204). -/
def cvtOk (t d : BitVec 4) (p : BitVec 3) (op : BitVec 6) : Bool :=
  let ns := tagCount t
  let nd := tagCount d
  let i4Bad (a b : BitVec 4) : Bool := a = 0x6 && (tagFF b).isSome && b != 0x0 && b != 0x1
  op.toNat < Max.max ns nd / Min.min ns nd && op.toNat < 8
    && !(tagMX t && tagMX d) && !i4Bad t d && !i4Bad d t
    && (if tagMX t || tagMX d then p != 0 else p = 0)

/-- One converted element: source element `i` of vs1 to element `j` of the destination. -/
def cvtElem (t d : BitVec 4) (p : BitVec 32) (v : BitVec 256) (i j : Nat) : Nat :=
  toElem d (scaleOf p 0 (j / 32)) (elemValue t p 0 v i)

/-- The destination register of vcvt (R204). -/
def cvtResult (t d : BitVec 4) (p : BitVec 32) (k : Nat) (v old : BitVec 256) : BitVec 256 :=
  let ns := tagCount t
  let nd := tagCount d
  vecOf (tagBits d) ((List.range nd).map fun j =>
    if nd ≤ ns then cvtElem t d p v (k * nd + j) j
    else if k * ns ≤ j && j < k * ns + ns then cvtElem t d p v (j - k * ns) j
    else elem old (tagBits d) j)

/-- EMAX of an MX tag (Table 9.4). -/
def emax (t : BitVec 4) : Int :=
  match t.toNat with
  | 0x8 => 8
  | 0x9 => 15
  | 0xA => 2
  | 0xB => 4
  | 0xC => 2
  | _ => 0

/-- floor(log2) of a finite value that is not 0. -/
def floorLog2 : FV → Option Int
  | .fin _ m e => if m = 0 then none else some ((Nat.log2 m : Int) + e)
  | _ => none

/-- A candidate MX scale of eight fp32 elements (R197). -/
def mxScale (t : BitVec 4) (v : BitVec 256) : Nat :=
  let xs := (elems v 32 8).map FF.f32.decode
  if xs.any fun x => match x with | .fin _ _ _ => false | _ => true then 0xFF
  else match xs.filterMap floorLog2 with
    | [] => 0
    | e :: es => (Min.min (254 : Int) (Max.max 0 (es.foldl Max.max e - emax t + 127))).toNat

/-- Add the governed elements of a register to an accumulator (R210). -/
def accAddAll (t : BitVec 4) (p : BitVec 32) (neg : Bool) (v : BitVec 256) (a : Accum) : Accum :=
  (List.range (tagCount t)).foldl (fun a k =>
    if governed p (tagBits t) k then
      let y := elemValue t p 0 v k
      accAdd a (if neg then negFV y else y)
    else a) a

/-- Vector add. (R198, Table 9.6) -/
def execVadd (c : CellId) (vd vs1 vs2 t : BitVec 4) (p : BitVec 3) (s : State) : Res :=
  .next (runElem c (.vadd c vd vs1 vs2 t p) (tagF t || tagI t) vd vs1 vs2 t p (fun a b _ => numOp t (fun x y => sumFV [x, y]) (· + ·) a b) s)

/-- Vector subtract. (R198, Table 9.6) -/
def execVsub (c : CellId) (vd vs1 vs2 t : BitVec 4) (p : BitVec 3) (s : State) : Res :=
  .next (runElem c (.vsub c vd vs1 vs2 t p) (tagF t || tagI t) vd vs1 vs2 t p (fun a b _ => numOp t (fun x y => sumFV [x, negFV y]) (· - ·) a b) s)

/-- Vector multiply; integers keep the low half. (R198, Table 9.6) -/
def execVmul (c : CellId) (vd vs1 vs2 t : BitVec 4) (p : BitVec 3) (s : State) : Res :=
  .next (runElem c (.vmul c vd vs1 vs2 t p) (tagF t || tagI t) vd vs1 vs2 t p (fun a b _ => numOp t mulFV (· * ·) a b) s)

/-- Vector fused multiply-add, one rounding. (R198, R199, Table 9.6) -/
def execVfma (c : CellId) (vd vs1 vs2 t : BitVec 4) (p : BitVec 3) (s : State) : Res :=
  .next (runElem c (.vfma c vd vs1 vs2 t p) (tagF t || tagI t) vd vs1 vs2 t p (fun a b d =>
    match tagFF t with
    | some f => f.round (sumFV [f.decode d, mulFV (f.decode a) (f.decode b)])
    | none => wrap (tagBits t) (sext (tagBits t) d + sext (tagBits t) a * sext (tagBits t) b)) s)

/-- Vector minimum. (R198, Table 9.6) -/
def execVmin (c : CellId) (vd vs1 vs2 t : BitVec 4) (p : BitVec 3) (s : State) : Res :=
  .next (runElem c (.vmin c vd vs1 vs2 t p) (tagF t || tagI t) vd vs1 vs2 t p (fun a b _ => numOp t minFV Min.min a b) s)

/-- Vector maximum. (R198, Table 9.6) -/
def execVmax (c : CellId) (vd vs1 vs2 t : BitVec 4) (p : BitVec 3) (s : State) : Res :=
  .next (runElem c (.vmax c vd vs1 vs2 t p) (tagF t || tagI t) vd vs1 vs2 t p (fun a b _ => numOp t maxFV Max.max a b) s)

/-- Vector absolute value. (R198, Table 9.6) -/
def execVabs (c : CellId) (vd vs1 t : BitVec 4) (p : BitVec 3) (s : State) : Res :=
  .next (runElem c (.vabs c vd vs1 t p) (tagF t || tagI t) vd vs1 vs1 t p (fun a _ _ => numOp1 t absFV (fun v => if v < 0 then -v else v) a) s)

/-- Vector negate. (R198, Table 9.6) -/
def execVneg (c : CellId) (vd vs1 t : BitVec 4) (p : BitVec 3) (s : State) : Res :=
  .next (runElem c (.vneg c vd vs1 t p) (tagF t || tagI t) vd vs1 vs1 t p (fun a _ _ => numOp1 t negFV (fun v => -v) a) s)

/-- Vector bitwise AND. (R198, Table 9.6) -/
def execVand (c : CellId) (vd vs1 vs2 t : BitVec 4) (p : BitVec 3) (s : State) : Res :=
  .next (runElem c (.vand c vd vs1 vs2 t p) (tagI t) vd vs1 vs2 t p (fun a b _ => a &&& b) s)

/-- Vector bitwise OR. (R198, Table 9.6) -/
def execVor (c : CellId) (vd vs1 vs2 t : BitVec 4) (p : BitVec 3) (s : State) : Res :=
  .next (runElem c (.vor c vd vs1 vs2 t p) (tagI t) vd vs1 vs2 t p (fun a b _ => a ||| b) s)

/-- Vector bitwise XOR. (R198, Table 9.6) -/
def execVxor (c : CellId) (vd vs1 vs2 t : BitVec 4) (p : BitVec 3) (s : State) : Res :=
  .next (runElem c (.vxor c vd vs1 vs2 t p) (tagI t) vd vs1 vs2 t p (fun a b _ => a ^^^ b) s)

/-- Vector left shift by s2 mod the element width. (R198, Table 9.6) -/
def execVshl (c : CellId) (vd vs1 vs2 t : BitVec 4) (p : BitVec 3) (s : State) : Res :=
  .next (runElem c (.vshl c vd vs1 vs2 t p) (tagI t) vd vs1 vs2 t p (fun a b _ => a <<< (b % tagBits t)) s)

/-- Vector zero-fill right shift by s2 mod the element width. (R198, Table 9.6) -/
def execVshr (c : CellId) (vd vs1 vs2 t : BitVec 4) (p : BitVec 3) (s : State) : Res :=
  .next (runElem c (.vshr c vd vs1 vs2 t p) (tagI t) vd vs1 vs2 t p (fun a b _ => a >>> (b % tagBits t)) s)

/-- Vector sign-fill right shift by s2 mod the element width. (R198, Table 9.6) -/
def execVsra (c : CellId) (vd vs1 vs2 t : BitVec 4) (p : BitVec 3) (s : State) : Res :=
  .next (runElem c (.vsra c vd vs1 vs2 t p) (tagI t) vd vs1 vs2 t p (fun a b _ => wrap (tagBits t) (sext (tagBits t) a >>> (b % tagBits t))) s)

/-- Vector compare equal into a predicate. (R199, Table 9.6) -/
def execVceq (c : CellId) (pd : BitVec 3) (vs1 vs2 t : BitVec 4) (p : BitVec 3) (s : State) : Res :=
  .next (runCompare c (.vceq c pd vs1 vs2 t p) pd vs1 vs2 t p eqFV (fun a b => a == b) s)

/-- Vector compare less-than into a predicate. (R199, Table 9.6) -/
def execVclt (c : CellId) (pd : BitVec 3) (vs1 vs2 t : BitVec 4) (p : BitVec 3) (s : State) : Res :=
  .next (runCompare c (.vclt c pd vs1 vs2 t p) pd vs1 vs2 t p ltFV (fun a b => a < b) s)

/-- Vector compare less-or-equal into a predicate. (R199, Table 9.6) -/
def execVcle (c : CellId) (pd : BitVec 3) (vs1 vs2 t : BitVec 4) (p : BitVec 3) (s : State) : Res :=
  .next (runCompare c (.vcle c pd vs1 vs2 t p) pd vs1 vs2 t p (fun a b => ltFV a b || eqFV a b) (fun a b => a ≤ b) s)

/-- Vector select by a predicate; every element is written. (R198, Table 9.6) -/
def execVsel (c : CellId) (vd vs1 vs2 t : BitVec 4) (p : BitVec 3) (s : State) : Res :=
  .next (runV c (.vsel c vd vs1 vs2 t p) (tagF t || tagI t) (fun x =>
    .done (x.wv vd (mapElems (x.rp p) (tagBits t) (tagCount t) (x.rv vs2) fun k => elem (x.rv vs1) (tagBits t) k))) s)

/-- Vector base-2 exponential. (R200) -/
def execVexp2 (c : CellId) (vd vs1 t : BitVec 4) (p : BitVec 3) (s : State) : Res :=
  .next (runFn c (.vexp2 c vd vs1 t p) vd vs1 t p exp2FV s)

/-- Vector base-2 logarithm. (R200) -/
def execVlog2 (c : CellId) (vd vs1 t : BitVec 4) (p : BitVec 3) (s : State) : Res :=
  .next (runFn c (.vlog2 c vd vs1 t p) vd vs1 t p log2FV s)

/-- Vector reciprocal. (R200) -/
def execVrcp (c : CellId) (vd vs1 t : BitVec 4) (p : BitVec 3) (s : State) : Res :=
  .next (runFn c (.vrcp c vd vs1 t p) vd vs1 t p rcpFV s)

/-- Vector reciprocal square root. (R200) -/
def execVrsqrt (c : CellId) (vd vs1 t : BitVec 4) (p : BitVec 3) (s : State) : Res :=
  .next (runFn c (.vrsqrt c vd vs1 t p) vd vs1 t p rsqrtFV s)

/-- Vector square root. (R200) -/
def execVsqrt (c : CellId) (vd vs1 t : BitVec 4) (p : BitVec 3) (s : State) : Res :=
  .next (runFn c (.vsqrt c vd vs1 t p) vd vs1 t p sqrtFV s)

/-- Vector move, bitwise; tag 0, so governed by 32-bit elements. (R198, Table 9.6) -/
def execVmov (c : CellId) (vd vs1 : BitVec 4) (p : BitVec 3) (s : State) : Res :=
  .next (runElem c (.vmov c vd vs1 p) true vd vs1 vs1 0 p (fun a _ _ => a) s)

/-- Dot product into fp32 or int32 lanes. (R201) -/
def execVdot (c : CellId) (vd vs1 vs2 t : BitVec 4) (p : BitVec 3) (s : State) : Res :=
  .next (runV c (.vdot c vd vs1 vs2 t p) (dotOk t p) (fun x =>
    .done (x.wv vd (dotResult t (x.rp p) (x.rv vs1) (x.rv vs2) (x.rv vd)))) s)

/-- Dot product with the first operand taken from local memory. (R202) -/
def execVdotm (c : CellId) (vd n vs2 t : BitVec 4) (p : BitVec 3) (s : State) : Res :=
  .next (runDotM c (.vdotm c vd n vs2 t p) vd n vs2 t p false s)

/-- vdotm with a post-increment of the address. (R202) -/
def execVdotmPlus (c : CellId) (vd n vs2 t : BitVec 4) (p : BitVec 3) (s : State) : Res :=
  .next (runDotM c (.vdotmPlus c vd n vs2 t p) vd n vs2 t p true s)

/-- Vector format conversion: tag t to tag x, part op. (R204) -/
def execVcvt (c : CellId) (vd vs1 x t : BitVec 4) (p : BitVec 3) (op : BitVec 6) (s : State) : Res :=
  .next (runV c (.vcvt c vd vs1 x t p op) (cvtOk t x p op) (fun y =>
    .done (y.wv vd (cvtResult t x (y.rp p) op.toNat (y.rv vs1) (y.rv vd)))) s)

/-- Ordered-tree sum reduction. (R205) -/
def execVredsum (c : CellId) (vd vs1 t : BitVec 4) (p : BitVec 3) (s : State) : Res :=
  .next (runReduce c (.vredsum c vd vs1 t p) (tagF t || tagI t) vd vs1 t p (redSum t) s)

/-- Maximum reduction. (R205) -/
def execVredmax (c : CellId) (vd vs1 t : BitVec 4) (p : BitVec 3) (s : State) : Res :=
  .next (runReduce c (.vredmax c vd vs1 t p) (tagF t || tagI t) vd vs1 t p (redExt t true) s)

/-- Minimum reduction. (R205) -/
def execVredmin (c : CellId) (vd vs1 t : BitVec 4) (p : BitVec 3) (s : State) : Res :=
  .next (runReduce c (.vredmin c vd vs1 t p) (tagF t || tagI t) vd vs1 t p (redExt t false) s)

/-- Bitwise OR reduction. (R205) -/
def execVredor (c : CellId) (vd vs1 t : BitVec 4) (p : BitVec 3) (s : State) : Res :=
  .next (runReduce c (.vredor c vd vs1 t p) (tagI t) vd vs1 t p (fun ls => ls.foldl (fun a l => a ||| l.getD 0) 0) s)

/-- Byte permute. (R198, Table 9.8) -/
def execVperm (c : CellId) (vd vs1 vs2 : BitVec 4) (p : BitVec 3) (s : State) : Res :=
  .next (runV c (.vperm c vd vs1 vs2 p) (p = 0) (fun x =>
    .done (x.wv vd (vecOf 8 ((List.range 32).map fun j => elem (x.rv vs1) 8 (elem (x.rv vs2) 8 j % 32))))) s)

/-- Vector load. (R207) -/
def execVld (c : CellId) (v : BitVec 4) (b : BitVec 5) (off : BitVec 12) (s : State) : Res :=
  .next (runCell c (.vld c v b off) (fun x s =>
    loadThen (cellNum c) (vecAddr x b off 32) 32 32 (fun bs => .done (x.wv v (BitVec.ofNat 256 (leNat bs)))) s) s)

/-- Vector store. (R207) -/
def execVst (c : CellId) (v : BitVec 4) (b : BitVec 5) (off : BitVec 12) (s : State) : Res :=
  .next (runCell c (.vst c v b off) (fun x s =>
    storeThen (cellNum c) (vecAddr x b off 32) 32 (leBytes 32 (x.rv v).toNat) x s) s)

/-- Load an accumulator record. (R207) -/
def execXld (c : CellId) (a : BitVec 2) (b : BitVec 5) (off : BitVec 12) (s : State) : Res :=
  .next (runCell c (.xld c a b off) (fun x s =>
    loadThen (cellNum c) (vecAddr x b off 64) 64 64 (fun bs => .done (x.wx a (accOf bs))) s) s)

/-- Store an accumulator record with KIND 0 and every reserved byte 0. (R207) -/
def execXst (c : CellId) (a : BitVec 2) (b : BitVec 5) (off : BitVec 12) (s : State) : Res :=
  .next (runCell c (.xst c a b off) (fun x s =>
    storeThen (cellNum c) (vecAddr x b off 64) 64 (accBytes (x.rx a) 0) x s) s)

/-- Insert a 64-bit element into a vector. (R198, Table 9.9) -/
def execVins (c : CellId) (vd : BitVec 4) (s1 s2 : BitVec 5) (s : State) : Res :=
  .next (runPure c (.vins c vd s1 s2) (fun x =>
    let j := (x.rg s2).toNat % 4
    .done (x.wv vd (vecOf 64 ((List.range 4).map fun k => if k = j then (x.rg s1).toNat else elem (x.rv vd) 64 k)))) s)

/-- Extract a 64-bit element from a vector. (R198, Table 9.9) -/
def execVext (c : CellId) (d : BitVec 5) (vs1 : BitVec 4) (s2 : BitVec 5) (s : State) : Res :=
  .next (runG c (.vext c d vs1 s2) d (fun x => BitVec.ofNat 64 (elem (x.rv vs1) 64 ((x.rg s2).toNat % 4))) s)

/-- Broadcast the low bits of a scalar into every element. (R198, Table 9.9) -/
def execVsplat (c : CellId) (vd : BitVec 4) (s1 : BitVec 5) (t : BitVec 4) (s : State) : Res :=
  .next (runV c (.vsplat c vd s1 t) (tagSplat t) (fun x =>
    .done (x.wv vd (vecOf (tagBits t) (List.replicate (tagCount t) (x.rg s1).toNat)))) s)

/-- Read out an exact accumulator with one rounding; POISON raises POISON, whose ADDR the spec does not state (log entry 2). (R212) -/
def execXrd (c : CellId) (d : BitVec 5) (xs : BitVec 2) (t : BitVec 4) (s : State) : Res :=
  .next (runCell c (.xrd c d xs t) (fun x s =>
    match tagXrd t, tagFF t with
    | true, some f =>
      if (x.rx xs).has flPoison then
        let (a, s) := drawNat s
        (.raise cPoison (a % 2 ^ 64) 0, s)
      else (.done (x.wg d (BitVec.ofNat 64 (accRead (x.rx xs) f))), s)
    | _, _ => (.raise cIllegal 0 0, s)) s)

/-- Read an accumulator's COUNT and FLAGS. (R209, Table 9.9) -/
def execXflg (c : CellId) (d : BitVec 5) (xs : BitVec 2) (s : State) : Res :=
  .next (runG c (.xflg c d xs) d (fun x => BitVec.ofNat 64 ((x.rx xs).count.toNat + (x.rx xs).flags.toNat * 2 ^ 32)) s)

/-- Compute a candidate MX block scale. (R197) -/
def execVmxexp (c : CellId) (d : BitVec 5) (vs1 : BitVec 4) (t : BitVec 4) (s : State) : Res :=
  .next (runV c (.vmxexp c d vs1 t) (tagMX t) (fun x => .done (x.wg d (BitVec.ofNat 64 (mxScale t (x.rv vs1))))) s)

/-- Empty an exact accumulator. (R209, Table 9.9) -/
def execXclr (c : CellId) (xd : BitVec 2) (s : State) : Res :=
  .next (runPure c (.xclr c xd) (fun x => .done (x.wx xd {})) s)

/-- Add the governed elements exactly into an accumulator. (R210) -/
def execXadd (c : CellId) (xd : BitVec 2) (vs1 t : BitVec 4) (p : BitVec 3) (s : State) : Res :=
  .next (runV c (.xadd c xd vs1 t p) (tagX t) (fun x => .done (x.wx xd (accAddAll t (x.rp p) false (x.rv vs1) (x.rx xd)))) s)

/-- Subtract the governed elements exactly from an accumulator. (R210) -/
def execXsub (c : CellId) (xd : BitVec 2) (vs1 t : BitVec 4) (p : BitVec 3) (s : State) : Res :=
  .next (runV c (.xsub c xd vs1 t p) (tagX t) (fun x => .done (x.wx xd (accAddAll t (x.rp p) true (x.rv vs1) (x.rx xd)))) s)

/-- Merge one accumulator into another. (R211) -/
def execXmrg (c : CellId) (xd xs : BitVec 2) (s : State) : Res :=
  .next (runPure c (.xmrg c xd xs) (fun x => .done (x.wx xd (accMerge (x.rx xd) (x.rx xs)))) s)

end Sys2Proof.Machine
end

