-- ==== Sys2Proof/Machine/Dispatch.lean ====
section
/-! DEFINITION. One arm per command: the direct call of its meaning. -/

namespace Sys2Proof.Machine

def exec (i : Instr) (s : State) : Host.Outcome State Fault Refusal :=
  match i with
  | .badOpcode opcode q d => Sys2Proof.Machine.execBadOpcode opcode q d s
  | .status q d => Sys2Proof.Machine.execStatus q d s
  | .identify q d => Sys2Proof.Machine.execIdentify q d s
  | .featureQuery q d => Sys2Proof.Machine.execFeatureQuery q d s
  | .csrRead q d => Sys2Proof.Machine.execCsrRead q d s
  | .csrWrite q d => Sys2Proof.Machine.execCsrWrite q d s
  | .logRead q d => Sys2Proof.Machine.execLogRead q d s
  | .takeBegin q d => Sys2Proof.Machine.execTakeBegin q d s
  | .takeCommit q d => Sys2Proof.Machine.execTakeCommit q d s
  | .takeRollback q d => Sys2Proof.Machine.execTakeRollback q d s
  | .takeQuery q d => Sys2Proof.Machine.execTakeQuery q d s
  | .tentCreate q d => Sys2Proof.Machine.execTentCreate q d s
  | .tentDestroy q d => Sys2Proof.Machine.execTentDestroy q d s
  | .rngAdd q d => Sys2Proof.Machine.execRngAdd q d s
  | .rngRemove q d => Sys2Proof.Machine.execRngRemove q d s
  | .rngModify q d => Sys2Proof.Machine.execRngModify q d s
  | .portSetRole q d => Sys2Proof.Machine.execPortSetRole q d s
  | .portEnable q d => Sys2Proof.Machine.execPortEnable q d s
  | .portRetrain q d => Sys2Proof.Machine.execPortRetrain q d s
  | .routeSet q d => Sys2Proof.Machine.execRouteSet q d s
  | .routeClear q d => Sys2Proof.Machine.execRouteClear q d s
  | .regionCreate q d => Sys2Proof.Machine.execRegionCreate q d s
  | .regionRelease q d => Sys2Proof.Machine.execRegionRelease q d s
  | .regionSetOwner q d => Sys2Proof.Machine.execRegionSetOwner q d s
  | .reelOpen q d => Sys2Proof.Machine.execReelOpen q d s
  | .reelCommit q d => Sys2Proof.Machine.execReelCommit q d s
  | .reelClose q d => Sys2Proof.Machine.execReelClose q d s
  | .guyLink q d => Sys2Proof.Machine.execGuyLink q d s
  | .guyUnlink q d => Sys2Proof.Machine.execGuyUnlink q d s
  | .placeHint q d => Sys2Proof.Machine.execPlaceHint q d s
  | .memClear q d => Sys2Proof.Machine.execMemClear q d s
  | .tierQuery q d => Sys2Proof.Machine.execTierQuery q d s
  | .cmpSetRegion q d => Sys2Proof.Machine.execCmpSetRegion q d s
  | .queueCreate q d => Sys2Proof.Machine.execQueueCreate q d s
  | .queueDestroy q d => Sys2Proof.Machine.execQueueDestroy q d s
  | .cmdqCreate q d => Sys2Proof.Machine.execCmdqCreate q d s
  | .cmdqDestroy q d => Sys2Proof.Machine.execCmdqDestroy q d s
  | .shaperSet q d => Sys2Proof.Machine.execShaperSet q d s
  | .clapAlloc q d => Sys2Proof.Machine.execClapAlloc q d s
  | .clapFree q d => Sys2Proof.Machine.execClapFree q d s
  | .clapSet q d => Sys2Proof.Machine.execClapSet q d s
  | .clapAdd q d => Sys2Proof.Machine.execClapAdd q d s
  | .clapWait q d => Sys2Proof.Machine.execClapWait q d s
  | .clapRead q d => Sys2Proof.Machine.execClapRead q d s
  | .crewAssign q d => Sys2Proof.Machine.execCrewAssign q d s
  | .imageLoad q d => Sys2Proof.Machine.execImageLoad q d s
  | .crewStart q d => Sys2Proof.Machine.execCrewStart q d s
  | .crewStop q d => Sys2Proof.Machine.execCrewStop q d s
  | .crewSetFreq q d => Sys2Proof.Machine.execCrewSetFreq q d s
  | .collOpen q d => Sys2Proof.Machine.execCollOpen q d s
  | .collClose q d => Sys2Proof.Machine.execCollClose q d s
  | .collReport q d => Sys2Proof.Machine.execCollReport q d s
  | .embDefine q d => Sys2Proof.Machine.execEmbDefine q d s
  | .embRowReplace q d => Sys2Proof.Machine.execEmbRowReplace q d s
  | .embBagSet q d => Sys2Proof.Machine.execEmbBagSet q d s
  | .kvDefine q d => Sys2Proof.Machine.execKvDefine q d s
  | .kvPageMap q d => Sys2Proof.Machine.execKvPageMap q d s
  | .attnDecode q d => Sys2Proof.Machine.execAttnDecode q d s
  | .nbuProgram q d => Sys2Proof.Machine.execNbuProgram q d s
  | .nbuRun q d => Sys2Proof.Machine.execNbuRun q d s
  | .nbuReset q d => Sys2Proof.Machine.execNbuReset q d s
  | .pwrSetDomain q d => Sys2Proof.Machine.execPwrSetDomain q d s
  | .blockReset q d => Sys2Proof.Machine.execBlockReset q d s
  | .pwrSleep q d => Sys2Proof.Machine.execPwrSleep q d s
  | .pinSetFunction q d => Sys2Proof.Machine.execPinSetFunction q d s
  | .timerClaim q d => Sys2Proof.Machine.execTimerClaim q d s
  | .bufferClaim q d => Sys2Proof.Machine.execBufferClaim q d s
  | .resRelease q d => Sys2Proof.Machine.execResRelease q d s
  | .slateGet q d => Sys2Proof.Machine.execSlateGet q d s
  | .debugConsent q d => Sys2Proof.Machine.execDebugConsent q d s
  | .debugRevoke q d => Sys2Proof.Machine.execDebugRevoke q d s
  | .rushesBegin q d => Sys2Proof.Machine.execRushesBegin q d s
  | .rushesEnd q d => Sys2Proof.Machine.execRushesEnd q d s
  | .replicaSet q d => Sys2Proof.Machine.execReplicaSet q d s
  | .takeLeaseExpiry take => Sys2Proof.Machine.execTakeLeaseExpiry take s
  | .oldMapFreed => Sys2Proof.Machine.execOldMapFreed s
  | .drainLimitExpiry => Sys2Proof.Machine.execDrainLimitExpiry s
  | .cmdqDoorbell q v => Sys2Proof.Machine.execCmdqDoorbell q v s
  | .cqHeadWrite q v => Sys2Proof.Machine.execCqHeadWrite q v s
  | .cmdqEnable q => Sys2Proof.Machine.execCmdqEnable q s
  | .cmdqDisable q => Sys2Proof.Machine.execCmdqDisable q s
  | .queueTailWrite queue v => Sys2Proof.Machine.execQueueTailWrite queue v s
  | .queueHeadWrite queue v => Sys2Proof.Machine.execQueueHeadWrite queue v s
  | .queueHeadReset queue v => Sys2Proof.Machine.execQueueHeadReset queue v s
  | .read port m => Sys2Proof.Machine.execRead port m s
  | .write port m => Sys2Proof.Machine.execWrite port m s
  | .writePartial port m => Sys2Proof.Machine.execWritePartial port m s
  | .fenceRequest port m => Sys2Proof.Machine.execFenceRequest port m s
  | .credit port ret => Sys2Proof.Machine.execCredit port ret s
  | .init port ret => Sys2Proof.Machine.execInit port ret s
  | .completion port m => Sys2Proof.Machine.execCompletion port m s
  | .completionData port m => Sys2Proof.Machine.execCompletionData port m s
  | .configRequest port tag write reg => Sys2Proof.Machine.execConfigRequest port tag write reg s
  | .trayResponse tray tag status poison => Sys2Proof.Machine.execTrayResponse tray tag status poison s
  | .mirror port m => Sys2Proof.Machine.execMirror port m s
  | .mirrorCommit port m => Sys2Proof.Machine.execMirrorCommit port m s
  | .mirrorAck port m => Sys2Proof.Machine.execMirrorAck port m s
  | .link port m => Sys2Proof.Machine.execLink port m s
  | .keepalive port m => Sys2Proof.Machine.execKeepalive port m s
  | .notLinked port m => Sys2Proof.Machine.execNotLinked port m s
  | .shadowCopy port m => Sys2Proof.Machine.execShadowCopy port m s
  | .shadowResult port m => Sys2Proof.Machine.execShadowResult port m s
  | .rdShared port cacheId m => Sys2Proof.Machine.execRdShared port cacheId m s
  | .rdOwn port cacheId m => Sys2Proof.Machine.execRdOwn port cacheId m s
  | .ownNodata port cacheId m => Sys2Proof.Machine.execOwnNodata port cacheId m s
  | .evictClean port cacheId m => Sys2Proof.Machine.execEvictClean port cacheId m s
  | .evictDirty port cacheId m => Sys2Proof.Machine.execEvictDirty port cacheId m s
  | .ackI port cacheId m => Sys2Proof.Machine.execAckI port cacheId m s
  | .ackS port cacheId m => Sys2Proof.Machine.execAckS port cacheId m s
  | .hintAccept port cacheId m => Sys2Proof.Machine.execHintAccept port cacheId m s
  | .hintDecline port cacheId m => Sys2Proof.Machine.execHintDecline port cacheId m s
  | .clean port cacheId m => Sys2Proof.Machine.execClean port cacheId m s
  | .dirty port cacheId m => Sys2Proof.Machine.execDirty port cacheId m s
  | .snoopTimeout line agent => Sys2Proof.Machine.execSnoopTimeout line agent s
  | .flushEnd ofAgent n => Sys2Proof.Machine.execFlushEnd ofAgent n s
  | .ack tray body => Sys2Proof.Machine.execAck tray body s
  | .regData tray body => Sys2Proof.Machine.execRegData tray body s
  | .stepDone tray body => Sys2Proof.Machine.execStepDone tray body s
  | .resetDone tray body => Sys2Proof.Machine.execResetDone tray body s
  | .cal tray body => Sys2Proof.Machine.execCal tray body s
  | .nbuAckTimeout tray tag => Sys2Proof.Machine.execNbuAckTimeout tray tag s
  | .runDequeue tray => Sys2Proof.Machine.execRunDequeue tray s
  | .stepTimeout tray => Sys2Proof.Machine.execStepTimeout tray s
  | .getVersion params => Sys2Proof.Machine.execGetVersion params s
  | .getCapabilities params => Sys2Proof.Machine.execGetCapabilities params s
  | .negotiateAlgorithms params => Sys2Proof.Machine.execNegotiateAlgorithms params s
  | .getDigests params => Sys2Proof.Machine.execGetDigests params s
  | .getCertificate params => Sys2Proof.Machine.execGetCertificate params s
  | .challenge params => Sys2Proof.Machine.execChallenge params s
  | .getMeasurements params => Sys2Proof.Machine.execGetMeasurements params s
  | .keyExchange params => Sys2Proof.Machine.execKeyExchange params s
  | .finish params => Sys2Proof.Machine.execFinish params s
  | .endSession params => Sys2Proof.Machine.execEndSession params s
  | .clapWaitFired slot => Sys2Proof.Machine.execClapWaitFired slot s
  | .clapWaitTimeout slot => Sys2Proof.Machine.execClapWaitTimeout slot s
  | .reelOpenWaitEnd region => Sys2Proof.Machine.execReelOpenWaitEnd region s
  | .reelOpenTimeout region => Sys2Proof.Machine.execReelOpenTimeout region s
  | .reelCommitWaitEnd region => Sys2Proof.Machine.execReelCommitWaitEnd region s
  | .reelCommitTimeout region => Sys2Proof.Machine.execReelCommitTimeout region s
  | .copyComplete region granule => Sys2Proof.Machine.execCopyComplete region granule s
  | .promotionComplete region granule => Sys2Proof.Machine.execPromotionComplete region granule s
  | .tileSwitchOver hint tile => Sys2Proof.Machine.execTileSwitchOver hint tile s
  | .wholeTensorSwitchOver hint => Sys2Proof.Machine.execWholeTensorSwitchOver hint s
  | .conversionSwitchOver region granule => Sys2Proof.Machine.execConversionSwitchOver region granule s
  | .reencodeStart tile block => Sys2Proof.Machine.execReencodeStart tile block s
  | .reencodeComplete tile block => Sys2Proof.Machine.execReencodeComplete tile block s
  | .hbmRefresh channel => Sys2Proof.Machine.execHbmRefresh channel s
  | .scrubRead channel corrected lines => Sys2Proof.Machine.execScrubRead channel corrected lines s
  | .telemetrySample addr => Sys2Proof.Machine.execTelemetrySample addr s
  | .ceAlertInterval channel => Sys2Proof.Machine.execCeAlertInterval channel s
  | .clearEngineTile store => Sys2Proof.Machine.execClearEngineTile store s
  | .windowTimeout slot => Sys2Proof.Machine.execWindowTimeout slot s
  | .f64TreeDone slot => Sys2Proof.Machine.execF64TreeDone slot s
  | .filterScanDone slot => Sys2Proof.Machine.execFilterScanDone slot s
  | .bufHoldExpiry entry => Sys2Proof.Machine.execBufHoldExpiry entry s
  | .attnDecodeDone op => Sys2Proof.Machine.execAttnDecodeDone op s
  | .guyLinkTick region => Sys2Proof.Machine.execGuyLinkTick region s
  | .keepaliveTick region => Sys2Proof.Machine.execKeepaliveTick region s
  | .mirrorTimeout region seq => Sys2Proof.Machine.execMirrorTimeout region seq s
  | .secondarySilence region => Sys2Proof.Machine.execSecondarySilence region s
  | .shadowResponseLate seq => Sys2Proof.Machine.execShadowResponseLate seq s
  | .dollyRequestIssue c => Sys2Proof.Machine.execDollyRequestIssue c s
  | .dollyRetire c ticket => Sys2Proof.Machine.execDollyRetire c ticket s
  | .faultRecordWrite c => Sys2Proof.Machine.execFaultRecordWrite c s
  | .cellStopComplete c => Sys2Proof.Machine.execCellStopComplete c s
  | .crewClearDone crew => Sys2Proof.Machine.execCrewClearDone crew s
  | .pllRelockDone group => Sys2Proof.Machine.execPllRelockDone group s
  | .illegalInstruction c w => Sys2Proof.Machine.execIllegalInstruction c w s
  | .add c d s1 s2 => Sys2Proof.Machine.execAdd c d s1 s2 s
  | .sub c d s1 s2 => Sys2Proof.Machine.execSub c d s1 s2 s
  | .and c d s1 s2 => Sys2Proof.Machine.execAnd c d s1 s2 s
  | .or c d s1 s2 => Sys2Proof.Machine.execOr c d s1 s2 s
  | .xor c d s1 s2 => Sys2Proof.Machine.execXor c d s1 s2 s
  | .shl c d s1 s2 => Sys2Proof.Machine.execShl c d s1 s2 s
  | .shr c d s1 s2 => Sys2Proof.Machine.execShr c d s1 s2 s
  | .sra c d s1 s2 => Sys2Proof.Machine.execSra c d s1 s2 s
  | .slt c d s1 s2 => Sys2Proof.Machine.execSlt c d s1 s2 s
  | .sltu c d s1 s2 => Sys2Proof.Machine.execSltu c d s1 s2 s
  | .min c d s1 s2 => Sys2Proof.Machine.execMin c d s1 s2 s
  | .max c d s1 s2 => Sys2Proof.Machine.execMax c d s1 s2 s
  | .minu c d s1 s2 => Sys2Proof.Machine.execMinu c d s1 s2 s
  | .maxu c d s1 s2 => Sys2Proof.Machine.execMaxu c d s1 s2 s
  | .mul c d s1 s2 => Sys2Proof.Machine.execMul c d s1 s2 s
  | .mulh c d s1 s2 => Sys2Proof.Machine.execMulh c d s1 s2 s
  | .mulhu c d s1 s2 => Sys2Proof.Machine.execMulhu c d s1 s2 s
  | .div c d s1 s2 => Sys2Proof.Machine.execDiv c d s1 s2 s
  | .divu c d s1 s2 => Sys2Proof.Machine.execDivu c d s1 s2 s
  | .rem c d s1 s2 => Sys2Proof.Machine.execRem c d s1 s2 s
  | .remu c d s1 s2 => Sys2Proof.Machine.execRemu c d s1 s2 s
  | .popc c d s1 => Sys2Proof.Machine.execPopc c d s1 s
  | .clz c d s1 => Sys2Proof.Machine.execClz c d s1 s
  | .ctz c d s1 => Sys2Proof.Machine.execCtz c d s1 s
  | .addi c d s1 imm => Sys2Proof.Machine.execAddi c d s1 imm s
  | .andi c d s1 imm => Sys2Proof.Machine.execAndi c d s1 imm s
  | .ori c d s1 imm => Sys2Proof.Machine.execOri c d s1 imm s
  | .xori c d s1 imm => Sys2Proof.Machine.execXori c d s1 imm s
  | .shli c d s1 imm => Sys2Proof.Machine.execShli c d s1 imm s
  | .shri c d s1 imm => Sys2Proof.Machine.execShri c d s1 imm s
  | .srai c d s1 imm => Sys2Proof.Machine.execSrai c d s1 imm s
  | .cmp c cc pd s1 s2 => Sys2Proof.Machine.execCmp c cc pd s1 s2 s
  | .cmpi c cc pd s1 imm => Sys2Proof.Machine.execCmpi c cc pd s1 imm s
  | .pand c pd p1 p2 => Sys2Proof.Machine.execPand c pd p1 p2 s
  | .por c pd p1 p2 => Sys2Proof.Machine.execPor c pd p1 p2 s
  | .pxor c pd p1 p2 => Sys2Proof.Machine.execPxor c pd p1 p2 s
  | .pandn c pd p1 p2 => Sys2Proof.Machine.execPandn c pd p1 p2 s
  | .sel c d s1 s2 p => Sys2Proof.Machine.execSel c d s1 s2 p s
  | .pmov c d p1 => Sys2Proof.Machine.execPmov c d p1 s
  | .pset c pd s1 => Sys2Proof.Machine.execPset c pd s1 s
  | .lui c d imm => Sys2Proof.Machine.execLui c d imm s
  | .lsh c d imm => Sys2Proof.Machine.execLsh c d imm s
  | .jal c d imm => Sys2Proof.Machine.execJal c d imm s
  | .lpc c d imm => Sys2Proof.Machine.execLpc c d imm s
  | .beq c s1 s2 off => Sys2Proof.Machine.execBeq c s1 s2 off s
  | .bne c s1 s2 off => Sys2Proof.Machine.execBne c s1 s2 off s
  | .blt c s1 s2 off => Sys2Proof.Machine.execBlt c s1 s2 off s
  | .bge c s1 s2 off => Sys2Proof.Machine.execBge c s1 s2 off s
  | .bltu c s1 s2 off => Sys2Proof.Machine.execBltu c s1 s2 off s
  | .bgeu c s1 s2 off => Sys2Proof.Machine.execBgeu c s1 s2 off s
  | .bp c p off => Sys2Proof.Machine.execBp c p off s
  | .bnp c p off => Sys2Proof.Machine.execBnp c p off s
  | .jalr c d s1 imm => Sys2Proof.Machine.execJalr c d s1 imm s
  | .lb c r b off => Sys2Proof.Machine.execLb c r b off s
  | .lh c r b off => Sys2Proof.Machine.execLh c r b off s
  | .lw c r b off => Sys2Proof.Machine.execLw c r b off s
  | .ld c r b off => Sys2Proof.Machine.execLd c r b off s
  | .lbu c r b off => Sys2Proof.Machine.execLbu c r b off s
  | .lhu c r b off => Sys2Proof.Machine.execLhu c r b off s
  | .lwu c r b off => Sys2Proof.Machine.execLwu c r b off s
  | .sb c r b off => Sys2Proof.Machine.execSb c r b off s
  | .sh c r b off => Sys2Proof.Machine.execSh c r b off s
  | .sw c r b off => Sys2Proof.Machine.execSw c r b off s
  | .st c r b off => Sys2Proof.Machine.execSt c r b off s
  | .zline c b off => Sys2Proof.Machine.execZline c b off s
  | .dsub c d s1 => Sys2Proof.Machine.execDsub c d s1 s
  | .dwait c s1 => Sys2Proof.Machine.execDwait c s1 s
  | .dpoll c d => Sys2Proof.Machine.execDpoll c d s
  | .cadd c d s1 s2 => Sys2Proof.Machine.execCadd c d s1 s2 s
  | .cld c d s1 => Sys2Proof.Machine.execCld c d s1 s
  | .cwait c d s1 s2 => Sys2Proof.Machine.execCwait c d s1 s2 s
  | .qput c d s1 s2 => Sys2Proof.Machine.execQput c d s1 s2 s
  | .qget c d s1 s2 => Sys2Proof.Machine.execQget c d s1 s2 s
  | .fence c => Sys2Proof.Machine.execFence c s
  | .bar c => Sys2Proof.Machine.execBar c s
  | .halt c => Sys2Proof.Machine.execHalt c s
  | .trap c s1 => Sys2Proof.Machine.execTrap c s1 s
  | .brk c => Sys2Proof.Machine.execBrk c s
  | .vadd c vd vs1 vs2 t p => Sys2Proof.Machine.execVadd c vd vs1 vs2 t p s
  | .vsub c vd vs1 vs2 t p => Sys2Proof.Machine.execVsub c vd vs1 vs2 t p s
  | .vmul c vd vs1 vs2 t p => Sys2Proof.Machine.execVmul c vd vs1 vs2 t p s
  | .vfma c vd vs1 vs2 t p => Sys2Proof.Machine.execVfma c vd vs1 vs2 t p s
  | .vmin c vd vs1 vs2 t p => Sys2Proof.Machine.execVmin c vd vs1 vs2 t p s
  | .vmax c vd vs1 vs2 t p => Sys2Proof.Machine.execVmax c vd vs1 vs2 t p s
  | .vabs c vd vs1 t p => Sys2Proof.Machine.execVabs c vd vs1 t p s
  | .vneg c vd vs1 t p => Sys2Proof.Machine.execVneg c vd vs1 t p s
  | .vand c vd vs1 vs2 t p => Sys2Proof.Machine.execVand c vd vs1 vs2 t p s
  | .vor c vd vs1 vs2 t p => Sys2Proof.Machine.execVor c vd vs1 vs2 t p s
  | .vxor c vd vs1 vs2 t p => Sys2Proof.Machine.execVxor c vd vs1 vs2 t p s
  | .vshl c vd vs1 vs2 t p => Sys2Proof.Machine.execVshl c vd vs1 vs2 t p s
  | .vshr c vd vs1 vs2 t p => Sys2Proof.Machine.execVshr c vd vs1 vs2 t p s
  | .vsra c vd vs1 vs2 t p => Sys2Proof.Machine.execVsra c vd vs1 vs2 t p s
  | .vceq c pd vs1 vs2 t p => Sys2Proof.Machine.execVceq c pd vs1 vs2 t p s
  | .vclt c pd vs1 vs2 t p => Sys2Proof.Machine.execVclt c pd vs1 vs2 t p s
  | .vcle c pd vs1 vs2 t p => Sys2Proof.Machine.execVcle c pd vs1 vs2 t p s
  | .vsel c vd vs1 vs2 t p => Sys2Proof.Machine.execVsel c vd vs1 vs2 t p s
  | .vexp2 c vd vs1 t p => Sys2Proof.Machine.execVexp2 c vd vs1 t p s
  | .vlog2 c vd vs1 t p => Sys2Proof.Machine.execVlog2 c vd vs1 t p s
  | .vrcp c vd vs1 t p => Sys2Proof.Machine.execVrcp c vd vs1 t p s
  | .vrsqrt c vd vs1 t p => Sys2Proof.Machine.execVrsqrt c vd vs1 t p s
  | .vsqrt c vd vs1 t p => Sys2Proof.Machine.execVsqrt c vd vs1 t p s
  | .vmov c vd vs1 p => Sys2Proof.Machine.execVmov c vd vs1 p s
  | .vdot c vd vs1 vs2 t p => Sys2Proof.Machine.execVdot c vd vs1 vs2 t p s
  | .vdotm c vd n vs2 t p => Sys2Proof.Machine.execVdotm c vd n vs2 t p s
  | .vdotmPlus c vd n vs2 t p => Sys2Proof.Machine.execVdotmPlus c vd n vs2 t p s
  | .vcvt c vd vs1 x t p op => Sys2Proof.Machine.execVcvt c vd vs1 x t p op s
  | .vredsum c vd vs1 t p => Sys2Proof.Machine.execVredsum c vd vs1 t p s
  | .vredmax c vd vs1 t p => Sys2Proof.Machine.execVredmax c vd vs1 t p s
  | .vredmin c vd vs1 t p => Sys2Proof.Machine.execVredmin c vd vs1 t p s
  | .vredor c vd vs1 t p => Sys2Proof.Machine.execVredor c vd vs1 t p s
  | .vperm c vd vs1 vs2 p => Sys2Proof.Machine.execVperm c vd vs1 vs2 p s
  | .vld c v b off => Sys2Proof.Machine.execVld c v b off s
  | .vst c v b off => Sys2Proof.Machine.execVst c v b off s
  | .xld c x b off => Sys2Proof.Machine.execXld c x b off s
  | .xst c x b off => Sys2Proof.Machine.execXst c x b off s
  | .vins c vd s1 s2 => Sys2Proof.Machine.execVins c vd s1 s2 s
  | .vext c d vs1 s2 => Sys2Proof.Machine.execVext c d vs1 s2 s
  | .vsplat c vd s1 t => Sys2Proof.Machine.execVsplat c vd s1 t s
  | .xrd c d xs t => Sys2Proof.Machine.execXrd c d xs t s
  | .xflg c d xs => Sys2Proof.Machine.execXflg c d xs s
  | .vmxexp c d vs1 t => Sys2Proof.Machine.execVmxexp c d vs1 t s
  | .xclr c xd => Sys2Proof.Machine.execXclr c xd s
  | .xadd c xd vs1 t p => Sys2Proof.Machine.execXadd c xd vs1 t p s
  | .xsub c xd vs1 t p => Sys2Proof.Machine.execXsub c xd vs1 t p s
  | .xmrg c xd xs => Sys2Proof.Machine.execXmrg c xd xs s
  | .transitAgeExpiry txn => Sys2Proof.Machine.execTransitAgeExpiry txn s
  | .failoverQuietEnd ports => Sys2Proof.Machine.execFailoverQuietEnd ports s
  | .linkUp tray port rate width dvsec => Sys2Proof.Machine.execLinkUp tray port rate width dvsec s
  | .linkDown tray port => Sys2Proof.Machine.execLinkDown tray port s
  | .crcReplay tray port again => Sys2Proof.Machine.execCrcReplay tray port again s
  | .retrainLimitExpiry tray port => Sys2Proof.Machine.execRetrainLimitExpiry tray port s
  | .ideKeysReady port => Sys2Proof.Machine.execIdeKeysReady port s
  | .ideIntegrityFailure port => Sys2Proof.Machine.execIdeIntegrityFailure port s
  | .moduleSessionEnd tray => Sys2Proof.Machine.execModuleSessionEnd tray s
  | .portStart tray port => Sys2Proof.Machine.execPortStart tray port s
  | .bootStageAdvance blob0 blob1 => Sys2Proof.Machine.execBootStageAdvance blob0 blob1 s
  | .auxPor => Sys2Proof.Machine.execAuxPor s
  | .powerOn => Sys2Proof.Machine.execPowerOn s
  | .brownOut rail => Sys2Proof.Machine.execBrownOut rail s
  | .resetPin => Sys2Proof.Machine.execResetPin s
  | .resetRelease straps => Sys2Proof.Machine.execResetRelease straps s
  | .watchdogExpiry => Sys2Proof.Machine.execWatchdogExpiry s
  | .watchdogKick => Sys2Proof.Machine.execWatchdogKick s
  | .softwareDeviceReset => Sys2Proof.Machine.execSoftwareDeviceReset s
  | .debugDeviceReset => Sys2Proof.Machine.execDebugDeviceReset s
  | .lockup keeper => Sys2Proof.Machine.execLockup keeper s
  | .critState store => Sys2Proof.Machine.execCritState store s
  | .mapUncorrectable table entry => Sys2Proof.Machine.execMapUncorrectable table entry s
  | .keySlotError slot => Sys2Proof.Machine.execKeySlotError slot s
  | .clockMonitorWindow clock inRange => Sys2Proof.Machine.execClockMonitorWindow clock inRange s
  | .clockFailure clock => Sys2Proof.Machine.execClockFailure clock s
  | .blockIdle domain code => Sys2Proof.Machine.execBlockIdle domain code s
  | .idleTimeout domain code => Sys2Proof.Machine.execIdleTimeout domain code s
  | .resetHoldEnd code => Sys2Proof.Machine.execResetHoldEnd code s
  | .domainStartupDone d => Sys2Proof.Machine.execDomainStartupDone d s
  | .keeperOpEnd d => Sys2Proof.Machine.execKeeperOpEnd d s
  | .keeperDeadline d => Sys2Proof.Machine.execKeeperDeadline d s
  | .wakeN => Sys2Proof.Machine.execWakeN s
  | .wakeBit => Sys2Proof.Machine.execWakeBit s
  | .wakeTimer => Sys2Proof.Machine.execWakeTimer s
  | .tamperHardAlarm src => Sys2Proof.Machine.execTamperHardAlarm src s
  | .tamperSoftAlarm temp => Sys2Proof.Machine.execTamperSoftAlarm temp s
  | .meshSample level => Sys2Proof.Machine.execMeshSample level s
  | .tempSample reading => Sys2Proof.Machine.execTempSample reading s
  | .inputAccepted pin level => Sys2Proof.Machine.execInputAccepted pin level s
  | .inputGlitch pin => Sys2Proof.Machine.execInputGlitch pin s
  | .stuckTimer pin => Sys2Proof.Machine.execStuckTimer pin s
  | .tachUpdate pin => Sys2Proof.Machine.execTachUpdate pin s
  | .safeIntervalEnd pin => Sys2Proof.Machine.execSafeIntervalEnd pin s
  | .consentExpiry tent => Sys2Proof.Machine.execConsentExpiry tent s
  | .registerWrite addr len v => Sys2Proof.Machine.execRegisterWrite addr len v s
  | .registerReadClear addr len => Sys2Proof.Machine.execRegisterReadClear addr len s
  | .spdmResponse tray port ok digest => Sys2Proof.Machine.execSpdmResponse tray port ok digest s
  | .reservedSlotDue entry => Sys2Proof.Machine.execReservedSlotDue entry s
  | .shaperBucketRefill entry => Sys2Proof.Machine.execShaperBucketRefill entry s
  | .jtagAccess op => Sys2Proof.Machine.execJtagAccess op s
  | .operatorWindowAccess write off len data => Sys2Proof.Machine.execOperatorWindowAccess write off len data s

end Sys2Proof.Machine
end

