-- ==== Sys2Proof/Safety.lean ====
section
/-! DEFINITION. The words that claims about the switch use: a cell ready to run, its retirement, the bytes it sees; a descriptor that the gaffer accepts, and the state in which a command completes. -/

namespace Sys2Proof.Machine

/-! ### Cells -/

/-- A cell that runs its next instruction: RUNNING, its crew not lent to ATTN.DECODE, its group's clock not relocking, and pc in the text of the loaded image and outside a bound accumulator area (R164, R170, R215, R267, R402). -/
def Ready (c : CellId) (s : State) : Prop :=
  (cellOf s (cellNum c)).state = .running
    ∧ (crewOf s (cellNum c / 32)).decode = none
    ∧ relocking s (cellNum c / 512) = false
    ∧ (crewOf s (cellNum c / 32)).loaded = true
    ∧ covers (crewBase + (crewOf s (cellNum c / 32)).textBase) (crewOf s (cellNum c / 32)).textLen (cellOf s (cellNum c)).pc.toNat 4 = true
    ∧ inArea (crewOf s (cellNum c / 32)) ((cellOf s (cellNum c)).pc.toNat - crewBase) 4 = false

/-- The cell's registers change as `f` says, pc moves past the instruction, and one more instruction has retired; nothing else of the machine changes. -/
def retired (c : CellId) (f : Cell → Cell) (s : State) : State :=
  updCell (cellNum c) (fun x => { f x with pc := x.pc + 4, instrs := x.instrs + 1 }) s

/-- As `retired`, with a value for g register d; g0 takes none (Table 8.2). -/
def retiredG (c : CellId) (d : BitVec 5) (v : Cell → U64) (s : State) : State := retired c (fun x => x.wg d (v x)) s

/-- As `retired`, with a value for predicate d; p0 takes none (Table 8.2). -/
def retiredP (c : CellId) (d : BitVec 3) (v : Cell → BitVec 32) (s : State) : State := retired c (fun x => x.wp d (v x)) s

/-- As `retired`, with a value for vector register d. -/
def retiredV (c : CellId) (d : BitVec 4) (v : Cell → BitVec 256) (s : State) : State := retired c (fun x => x.wv d (v x)) s

/-- The instruction retires and pc takes a value. -/
def jumped (c : CellId) (f : Cell → Cell) (pc : Cell → U64) (s : State) : State :=
  updCell (cellNum c) (fun x => { f x with pc := pc x, instrs := x.instrs + 1 }) s

/-- A byte of local memory as a cell sees it (Table 8.1); none outside scratch and crew memory. -/
def locByte (s : State) (n a : Nat) : Option Byte :=
  if a < 0x10000 then some (byteAt (cellOf s n).scratch a)
  else if crewBase ≤ a ∧ a < crewBase + crewBytes then some (byteAt (crewOf s (n / 32)).mem (a - crewBase))
  else none

/-- A local range that a load reads without an exception: aligned, mapped, outside a bound area, no poison mark (R165, R171, R173, R215). -/
def Loadable (s : State) (c : CellId) (a len : Nat) (l : Loc) : Prop :=
  a % len = 0 ∧ locOf a len = some l ∧ locArea s (cellNum c) l len = false ∧ locMarked s (cellNum c) l len = false

/-- A local range that a store writes without an exception: aligned, mapped, outside text and a bound area (R165, R171, R215). -/
def Storable (s : State) (c : CellId) (a len : Nat) (l : Loc) : Prop :=
  a % len = 0 ∧ locOf a len = some l ∧ locText s (cellNum c) l len = false ∧ locArea s (cellNum c) l len = false

/-- The state in which a cell has faulted on an instruction: cause, word, ADDR and VALUE recorded with pc at the instruction, the record still to be written, and a crew barrier released that waited for this cell only (R180, R179). -/
def faulted (c : CellId) (cause word addr value : Nat) (s : State) : State :=
  releaseBar (cellNum c / 32) (cellOf s (cellNum c)).group
    (updCell (cellNum c) (fun x => { x with state := .faulted, wait := none, recordDue := true, fault := some ⟨cause, word, x.pc, addr, value⟩ }) s)

/-- The cell waits at its instruction. -/
def waits (c : CellId) (w : CellWait) (s : State) : State :=
  updCell (cellNum c) (fun x => { x with state := .waiting, wait := some w }) s

/-- Every form of the Burpor instructions on a cell, with any operands (R167, Tables 8.5 to 8.13 and 9.6 to 9.9). -/
def burporForms (c : CellId) (cc : CC) (d a b : BitVec 5) (p q r : BitVec 3) (i : BitVec 12) (j : BitVec 6) (u : BitVec 20)
    (v w x t : BitVec 4) (y z : BitVec 2) : List Instr :=
  [Instr.add c d a b, .sub c d a b, .and c d a b, .or c d a b, .xor c d a b, .shl c d a b, .shr c d a b, .sra c d a b, .slt c d a b, .sltu c d a b,
   .min c d a b, .max c d a b, .minu c d a b, .maxu c d a b, .mul c d a b, .mulh c d a b, .mulhu c d a b, .div c d a b, .divu c d a b, .rem c d a b,
   .remu c d a b, .popc c d a, .clz c d a, .ctz c d a, .addi c d a i, .andi c d a i, .ori c d a i, .xori c d a i, .shli c d a j, .shri c d a j, .srai
   c d a j, .cmp c cc p d a] ++
  [Instr.cmpi c cc p d i, .pand c p q r, .por c p q r, .pxor c p q r, .pandn c p q r, .sel c d a b p, .pmov c d p, .pset c p d, .lui c d u, .lsh c d
   u, .jal c d u, .lpc c d u, .beq c d a i, .bne c d a i, .blt c d a i, .bge c d a i, .bltu c d a i, .bgeu c d a i, .bp c p i, .bnp c p i, .jalr c d a
   i, .lb c d a i, .lh c d a i, .lw c d a i, .ld c d a i, .lbu c d a i, .lhu c d a i, .lwu c d a i, .sb c d a i, .sh c d a i, .sw c d a i, .st c d a
   i] ++
  [Instr.zline c d i, .dsub c d a, .dwait c d, .dpoll c d, .cadd c d a b, .cld c d a, .cwait c d a b, .qput c d a b, .qget c d a b, .fence c, .bar c,
   .halt c, .trap c d, .brk c, .vadd c v w x t p, .vsub c v w x t p, .vmul c v w x t p, .vfma c v w x t p, .vmin c v w x t p, .vmax c v w x t p, .vabs
   c v w x p, .vneg c v w x p, .vand c v w x t p, .vor c v w x t p, .vxor c v w x t p, .vshl c v w x t p, .vshr c v w x t p, .vsra c v w x t p, .vceq
   c p v w x q, .vclt c p v w x q, .vcle c p v w x q, .vsel c v w x t p] ++
  [Instr.vexp2 c v w x p, .vlog2 c v w x p, .vrcp c v w x p, .vrsqrt c v w x p, .vsqrt c v w x p, .vmov c v w p, .vdot c v w x t p, .vdotm c v w x t
   p, .vdotmPlus c v w x t p, .vcvt c v w x t p j, .vredsum c v w x p, .vredmax c v w x p, .vredmin c v w x p, .vredor c v w x p, .vperm c v w x p,
   .vld c v d i, .vst c v d i, .xld c y d i, .xst c y d i, .vins c v d a, .vext c d v a, .vsplat c v d w, .xrd c d y v, .xflg c d y, .vmxexp c d v w,
   .xclr c y, .xadd c y v w p, .xsub c y v w p, .xmrg c y z]

/-! ### Work that leads on -/

/-- Work that leads from `s` to `t` is done, and everything that can move then moves. Where an engine load of the work waits for a line that an agent or a host must send first, the work has not happened yet (log entry 48). -/
abbrev moved (s t : State) : State := drain (held s s t)

/-! ### Descriptors in a command queue -/

/-- The gaffer fetches this descriptor from queue q now, and `s1` is the state after the fetch: HEAD has moved on and one more command runs (R33 to R35, R314). -/
def Fetched (q : QId) (d : Desc) (s s1 : State) : Prop :=
  canFetch s q d.fence = true ∧ ringWaits q s = false ∧ (fetchOk q s).1 = true ∧ s1 = fetchAdvance q (fetchOk q s).2

/-- Neither lockdown nor a halt bars the command, its header is in order, and its issuer may send it (R32, R37, R334, R356, Table 14.6). -/
def Served (r : Rule) (q : QId) (d : Desc) (s1 : State) : Prop :=
  haltCheck s1 r = none ∧ headerCheck d r = none ∧ issuerCheck s1 q d r = none

/-- A descriptor that is fetched, served and not staged: its command runs in `s1`. -/
def Runs (r : Rule) (q : QId) (d : Desc) (s s1 : State) : Prop := Fetched q d s s1 ∧ Served r q d s1 ∧ d.stage = false

/-- The completion of the descriptor's command is posted (R36). -/
def completes (q : QId) (d : Desc) (status detail result : Nat) (s : State) : State := complete (crefOf q d s) status detail result s

/-- The queue may not send this command: a tent its operator-only commands or another tent's, the operator one that acts for a sealed tent (R32, R450, Table 14.6). -/
def foreign (r : Rule) (q : QId) (d : Desc) (s1 : State) : Bool :=
  match q with
  | .operator => r.any && !r.sealedOk && tentSealed s1 d.tent.toNat
  | .tent t _ => !r.any || d.tent != t

/-- Operator only (issuer column O of Tables 2.10 to 2.12). -/
abbrev opRule : Rule := { any := false }
/-- Operator only, for a sealed tent too (Table 14.6). -/
abbrev opSealedRule : Rule := { any := false, sealedOk := true }
/-- Any issuer. -/
abbrev anyRule : Rule := { any := true }
/-- Any issuer, for a sealed tent too (Table 14.6). -/
abbrev anySealedRule : Rule := { any := true, sealedOk := true }

/-- The commands marked I of Tables 2.10 to 2.12 that touch nothing the fabric waits for, with who may issue them. -/
def plainCommands (q : QId) (d : Desc) : List (Instr × Rule) := [
  (.status q d, { any := true, inLock := true, inHalt := true, sealedOk := true }), (.identify q d, anyRule), (.featureQuery q d, anySealedRule),
  (.csrRead q d, { any := false, inHalt := true, sealedOk := true }), (.logRead q d, { any := false, inHalt := true }),
  (.takeBegin q d, takeRule), (.takeRollback q d, takeRule), (.takeQuery q d, takeRule), (.portRetrain q d, opSealedRule),
  (.reelOpen q d, anyRule), (.placeHint q d, anySealedRule), (.memClear q d, opRule), (.tierQuery q d, anySealedRule),
  (.clapAlloc q d, anySealedRule), (.clapFree q d, anySealedRule), (.clapSet q d, anySealedRule), (.clapAdd q d, anySealedRule),
  (.clapWait q d, anySealedRule), (.clapRead q d, anySealedRule), (.imageLoad q d, anyRule), (.crewStart q d, anyRule), (.crewStop q d, anySealedRule),
  (.crewSetFreq q d, opRule), (.collOpen q d, anyRule), (.collClose q d, anyRule), (.collReport q d, anyRule), (.embRowReplace q d, anyRule),
  (.embBagSet q d, anyRule), (.kvPageMap q d, anyRule), (.attnDecode q d, anyRule), (.nbuProgram q d, anyRule), (.nbuRun q d, anyRule),
  (.nbuReset q d, opRule), (.slateGet q d, anySealedRule), (.debugConsent q d, anySealedRule), (.debugRevoke q d, anySealedRule)]

/-- The commands marked I after which requests that waited may go on. -/
def movingCommands (q : QId) (d : Desc) : List (Instr × Rule) := [
  (.takeCommit q d, takeRule), (.reelCommit q d, anyRule), (.reelClose q d, anySealedRule), (.pwrSetDomain q d, opRule), (.blockReset q d, opRule),
  (.pwrSleep q d, opRule)]

/-- A command that applies at an epoch boundary: who may issue it, whether it must be staged, its field check and the bytes that staging copies (R39, R42, Table 2.11). -/
structure BoundaryCommand where
  cmd : Instr
  rule : Rule
  mustStage : Bool
  fields : Option Nat
  copied : List Byte

/-- The commands of Table 2.11, in a state after the fetch. -/
def boundaryCommands (q : QId) (d : Desc) (s : State) : List BoundaryCommand := [
  ⟨.tentCreate q d, opRule, true, stageTentCreate s d, copyTentCreate d s⟩, ⟨.tentDestroy q d, opRule, true, fieldsNone d, []⟩,
  ⟨.rngAdd q d, opRule, false, stageRngAdd d, []⟩, ⟨.rngRemove q d, opRule, false, stageRngRemove d, []⟩, ⟨.rngModify q d, opRule, false, stageRngModify d, []⟩,
  ⟨.portSetRole q d, opRule, true, stagePortSetRole d, []⟩, ⟨.portEnable q d, opRule, false, stagePortEnable d, []⟩,
  ⟨.routeSet q d, opRule, false, stageRouteSet d, []⟩, ⟨.routeClear q d, opRule, false, stageRouteClear d, []⟩,
  ⟨.regionCreate q d, opRule, false, stageRegionCreate d, []⟩, ⟨.regionRelease q d, anyRule, false, stageRegionRelease d, []⟩,
  ⟨.regionSetOwner q d, anyRule, false, stageRegionSetOwner d, []⟩,
  ⟨.guyLink q d, opRule, true, stageGuyLink d, []⟩, ⟨.guyUnlink q d, opRule, true, stageGuyUnlink d, []⟩,
  ⟨.cmpSetRegion q d, anyRule, false, stageCmpSetRegion d, []⟩, ⟨.queueCreate q d, anyRule, false, stageQueueCreate d, []⟩,
  ⟨.queueDestroy q d, anyRule, false, stageQueueDestroy d, []⟩, ⟨.cmdqCreate q d, opRule, false, stageCmdqCreate d, []⟩,
  ⟨.cmdqDestroy q d, opRule, false, stageCmdqDestroy d, []⟩, ⟨.shaperSet q d, opRule, false, stageShaperSet d, []⟩,
  ⟨.crewAssign q d, opRule, true, stageCrewAssign d, []⟩, ⟨.embDefine q d, anyRule, false, stageEmb d, []⟩, ⟨.kvDefine q d, anyRule, false, stageKv d, []⟩,
  ⟨.pinSetFunction q d, opRule, false, stagePinSet d, []⟩, ⟨.timerClaim q d, opRule, false, stageTimerClaim d, []⟩,
  ⟨.bufferClaim q d, opRule, false, stageBufferClaim d, []⟩, ⟨.resRelease q d, opRule, false, stageResRelease d, []⟩,
  ⟨.rushesBegin q d, opRule, true, stageRushesBegin d, []⟩, ⟨.rushesEnd q d, opRule, true, fieldsNone d, []⟩,
  ⟨.replicaSet q d, opRule, false, stageReplicaSet d, []⟩]

/-! ### Commits -/

/-- The commit of a take of one command that issuing it alone makes, from a state after its fetch (R39). -/
def soloCommit (q : QId) (d : Desc) (i : Instr) (copied : List Byte) (s : State) : Commit := newCommit none [⟨i, copied⟩] (crefOf q d s) none

/-- The gaffer can perform this commit now: no commit is before it, no power transition is in progress, the old map is free (R45, R48, R404). -/
def CommitReady (C : Commit) (s : State) : Prop := s.gaf.commits = [C] ∧ transition s = false ∧ s.gaf.oldMap = none

/-- The state after the epoch boundary of a commit whose commands gave `s2`, with RESULT, and after the gaffer's work that waited for it (R46 to R49). -/
def committed (C : Commit) (s s2 : State) (own : Nat) : State :=
  let s3 := endTake C { boundary C s s2 with gaf := { (boundary C s s2).gaf with commits := [] } }
  let s4 := runCommits 1 (complete C.cref stSuccess 0 (commitResult C s3 own) s3)
  runPwrWait s4.chip.pwrWait.length s4

/-- A command that may be issued alone takes its effect: fetched, served, its fields in order, its commit first in line, the state it makes whole (R39, R44). `s0` is the state that the commit validates against, `s2` the state with the effect. -/
def AppliesAlone (r : Rule) (q : QId) (d : Desc) (i : Instr) (s s0 s2 : State) : Prop :=
  ∃ s1, Runs r q d s s1 ∧ s0 = pushCommit (soloCommit q d i [] s1) s1 ∧ CommitReady (soloCommit q d i [] s1) s0 ∧ wholeFault [⟨i, []⟩] s0 s2 = none

/-- The state in which a command issued alone has taken its effect. -/
def doneAlone (q : QId) (d : Desc) (i : Instr) (s0 s2 : State) (own : Nat := 0) : State := committed (soloCommit q d i [] s0) s0 s2 own

/-- TAKE.COMMIT of an open take that holds one staged command takes that command's effect: `s0` is the state that the commit validates against (R44). -/
def CommitsOne (q : QId) (d : Desc) (x : Staged) (s s0 s2 : State) : Prop :=
  ∃ s1 k, Runs takeRule q d s s1 ∧ onlyFields d [(16, 0, 32)] = true ∧ clapName (opf d 16 0 32) = none ∧ takeOf s1 q d.takeId.toNat = some k ∧ k.state = .open ∧ k.cmds = [x]
    ∧ s0 = pushCommit (newCommit (some d.takeId.toNat) [x] (crefOf q d s1) none)
        (updTake d.takeId.toNat (fun y => { y with state := .committing, frozen := leaseLeft y (clock s1).1 }) (clock s1).2)
    ∧ CommitReady (newCommit (some d.takeId.toNat) [x] (crefOf q d s0) none) s0 ∧ wholeFault [x] s0 s2 = none

/-- The state in which TAKE.COMMIT of a take of one command has taken that command's effect. -/
def committedOne (q : QId) (d : Desc) (x : Staged) (s0 s2 : State) : State :=
  committed (newCommit (some d.takeId.toNat) [x] (crefOf q d s0) none) s0 s2 0

/-! ### Messages at a fabric port -/

/-- What a port hands on when it takes a message on a channel, in its mode, with its keys in place and within its credits: the message with its data as the header announces them, and the state with the credit returned (R330, R361, R371, R372). -/
def Takes (p chan : Nat) (m : Msg) (s : State) (m1 : Msg) (s1 : State) : Prop :=
  portTakes s p m = true ∧ m1 = framed m
    ∧ ((wireMode (port s p) ≠ 1 ∧ s1 = s)
      ∨ (wireMode (port s p) = 1 ∧ units m1 ≤ (port s p).credits.recv.getD chan 0 ∧ s1 = linkSend p 6 (creditMsg chan (units m1)) (linkHears p s)))

/-- A request of type `ty` that a port takes and does not turn away, and the state in which it is in flight (R55, R61, R62, R66, R373). -/
def Arrives (p ty : Nat) (m : Msg) (s s1 : State) : Prop :=
  ∃ m1 s0 m2 s2 src a, Takes p 0 m s m1 s0 ∧ malformed ty ((addressOf s0 p m1).getD m1.addr.toNat) m1 = none ∧ unwire m1 s0 = (m2, s2) ∧ refusing s2 p = false
    ∧ sourceOf s2 p m2 = some src ∧ addressOf s2 p m2 = some a ∧ a < 2 ^ 62 ∧ ¬(m2.proto = .native ∧ m2.hops = 0) ∧ s1 = addRequest p ty m2 src a s2

/-- A request that arrives where no other is in flight, and that its route and its gate let through: `y` is the request in flight, `s2` the state in which its turn has come (R65, R71, R320). -/
def Admitted (p ty : Nat) (m : Msg) (s : State) (y : Txn) (s2 : State) : Prop :=
  ∃ s1 x, Arrives p ty m s s1 ∧ s1.fab.txns = [x] ∧ x.stage = .ready ∧ takeIn x s1 = (none, s2) ∧ s2.fab.txns = [y] ∧ y.id = x.id

/-- A request to pooled memory of this switch, in a region, under the map of its stamp (R46, R65). -/
def OwnPool (y : Txn) (s : State) (k : Nat) (r : Region) : Prop :=
  routeOf (underMap s y) y.addr = .self ∧ inPool (offOf y.addr) = true ∧ regionAt (underMap s y) (offOf y.addr) = some (k, r)

/-- A tile in tier 0 whose stacks all run and that no shaper holds back, for a request to `len` stored bytes of it: `s2` is the state with the request charged and counted (R298, R305). -/
def Tier0Ready (y : Txn) (r : Region) (len : Nat) (s s2 : State) : Prop :=
  (∀ k ∈ stacksUsed r (offOf y.addr) y.len, pdOn s (pdStack k) = true ∧ resetting s (0x30 + k) = false) ∧ passAt y r .t0 len s = (true, s2)

/-- A message of channel 7 for this switch (Table 16.1). -/
def ForThisNode (p : Nat) (m : Msg) (s : State) (m1 : Msg) (s1 : State) : Prop :=
  Takes p 7 m s m1 s1 ∧ ((port s1 p).role = 3 ∨ (port s1 p).role = 4) ∧ (port s1 p).enable = true ∧ (port s1 p).blocked = false ∧ m1.rsv = false
    ∧ s1.fab.self = some (nodeOf m1.addr.toNat)

/-- A message of a coherence agent about a line of the self node (R105, R110). -/
def FromAgent (p chan : Nat) (cid : BitVec 4) (m : Msg) (s : State) (a l : Nat) (m1 : Msg) (s1 : State) : Prop :=
  Takes p chan m s m1 s1 ∧ sender s1 p cid m1 = some a ∧ cohLine s1 p m1 = some l

end Sys2Proof.Machine
end

