-- ==== Sys2Proof/WellFormed.lean ====
section
/-! DEFINITION. Well-formed commands: operands that name a part the block has, and messages of a length that the wire carries. An ill-formed command is one that nothing outside can send. -/

namespace Sys2Proof

/-- A fabric port: 0 to 19 (Table 1.1). -/
def fabricPort (p : BitVec 5) : Bool := p.toNat < 20

/-- A fabric port, or a tray port: 0 to 7. -/
def linkPort (tray : Bool) (p : BitVec 5) : Bool := if tray then p.toNat < 8 else p.toNat < 20

/-- A block code of Table 17.4. -/
def blockCode (c : Byte) : Bool :=
  let n := c.toNat
  n < 20 || (0x20 ≤ n && n < 0x28) || (0x30 ≤ n && n < 0x34) || (0x40 ≤ n && n < 0x48) || (0x50 ≤ n && n ≤ 0x52)

/-- A PIN_SEL code that names a pin (Table 18.21). -/
def pinCode (p : BitVec 5) : Bool := p.toNat ≤ 8 || 16 ≤ p.toNat

/-- A message carries at most 4 KiB of data (R371). -/
def Msg.wf (m : Msg) : Bool := m.length.toNat ≤ 4096 && m.data.length ≤ 4096

/-- Well-formed commands. -/
def Instr.wf : Instr → Bool
  | .badOpcode o _ _ => !listedOpcode o
  | .status _ _ => true
  | .identify _ _ => true
  | .featureQuery _ _ => true
  | .csrRead _ _ => true
  | .csrWrite _ _ => true
  | .logRead _ _ => true
  | .takeBegin _ _ => true
  | .takeCommit _ _ => true
  | .takeRollback _ _ => true
  | .takeQuery _ _ => true
  | .tentCreate _ _ => true
  | .tentDestroy _ _ => true
  | .rngAdd _ _ => true
  | .rngRemove _ _ => true
  | .rngModify _ _ => true
  | .portSetRole _ _ => true
  | .portEnable _ _ => true
  | .portRetrain _ _ => true
  | .routeSet _ _ => true
  | .routeClear _ _ => true
  | .regionCreate _ _ => true
  | .regionRelease _ _ => true
  | .regionSetOwner _ _ => true
  | .reelOpen _ _ => true
  | .reelCommit _ _ => true
  | .reelClose _ _ => true
  | .guyLink _ _ => true
  | .guyUnlink _ _ => true
  | .placeHint _ _ => true
  | .memClear _ _ => true
  | .tierQuery _ _ => true
  | .cmpSetRegion _ _ => true
  | .queueCreate _ _ => true
  | .queueDestroy _ _ => true
  | .cmdqCreate _ _ => true
  | .cmdqDestroy _ _ => true
  | .shaperSet _ _ => true
  | .clapAlloc _ _ => true
  | .clapFree _ _ => true
  | .clapSet _ _ => true
  | .clapAdd _ _ => true
  | .clapWait _ _ => true
  | .clapRead _ _ => true
  | .crewAssign _ _ => true
  | .imageLoad _ _ => true
  | .crewStart _ _ => true
  | .crewStop _ _ => true
  | .crewSetFreq _ _ => true
  | .collOpen _ _ => true
  | .collClose _ _ => true
  | .collReport _ _ => true
  | .embDefine _ _ => true
  | .embRowReplace _ _ => true
  | .embBagSet _ _ => true
  | .kvDefine _ _ => true
  | .kvPageMap _ _ => true
  | .attnDecode _ _ => true
  | .nbuProgram _ _ => true
  | .nbuRun _ _ => true
  | .nbuReset _ _ => true
  | .pwrSetDomain _ _ => true
  | .blockReset _ _ => true
  | .pwrSleep _ _ => true
  | .pinSetFunction _ _ => true
  | .timerClaim _ _ => true
  | .bufferClaim _ _ => true
  | .resRelease _ _ => true
  | .slateGet _ _ => true
  | .debugConsent _ _ => true
  | .debugRevoke _ _ => true
  | .rushesBegin _ _ => true
  | .rushesEnd _ _ => true
  | .replicaSet _ _ => true
  | .takeLeaseExpiry _ => true
  | .oldMapFreed => true
  | .drainLimitExpiry => true
  | .cmdqDoorbell _ _ => true
  | .cqHeadWrite _ _ => true
  | .cmdqEnable _ => true
  | .cmdqDisable _ => true
  | .queueTailWrite _ _ => true
  | .queueHeadWrite _ _ => true
  | .queueHeadReset _ _ => true
  | .read port m => fabricPort port && m.wf
  | .write port m => fabricPort port && m.wf
  | .writePartial port m => fabricPort port && m.wf
  | .fenceRequest port m => fabricPort port && m.wf
  | .credit port _ => fabricPort port
  | .init port _ => fabricPort port
  | .completion port m => fabricPort port && m.wf
  | .completionData port m => fabricPort port && m.wf
  | .configRequest port _ _ _ => port.toNat ≤ 20
  | .trayResponse _ _ _ _ => true
  | .mirror port m => fabricPort port && m.wf
  | .mirrorCommit port m => fabricPort port && m.wf
  | .mirrorAck port m => fabricPort port && m.wf
  | .link port m => fabricPort port && m.wf
  | .keepalive port m => fabricPort port && m.wf
  | .notLinked port m => fabricPort port && m.wf
  | .shadowCopy port m => fabricPort port && m.wf
  | .shadowResult port m => fabricPort port && m.wf
  | .rdShared port _ m => fabricPort port && m.wf
  | .rdOwn port _ m => fabricPort port && m.wf
  | .ownNodata port _ m => fabricPort port && m.wf
  | .evictClean port _ m => fabricPort port && m.wf
  | .evictDirty port _ m => fabricPort port && m.wf
  | .ackI port _ m => fabricPort port && m.wf
  | .ackS port _ m => fabricPort port && m.wf
  | .hintAccept port _ m => fabricPort port && m.wf
  | .hintDecline port _ m => fabricPort port && m.wf
  | .clean port _ m => fabricPort port && m.wf
  | .dirty port _ m => fabricPort port && m.wf
  | .snoopTimeout _ _ => true
  | .flushEnd _ _ => true
  | .ack _ _ => true
  | .regData _ _ => true
  | .stepDone _ _ => true
  | .resetDone _ _ => true
  | .cal _ _ => true
  | .nbuAckTimeout _ _ => true
  | .runDequeue _ => true
  | .stepTimeout _ => true
  | .getVersion _ => true
  | .getCapabilities _ => true
  | .negotiateAlgorithms _ => true
  | .getDigests _ => true
  | .getCertificate _ => true
  | .challenge _ => true
  | .getMeasurements _ => true
  | .keyExchange _ => true
  | .finish _ => true
  | .endSession _ => true
  | .clapWaitFired _ => true
  | .clapWaitTimeout _ => true
  | .reelOpenWaitEnd _ => true
  | .reelOpenTimeout _ => true
  | .reelCommitWaitEnd _ => true
  | .reelCommitTimeout _ => true
  | .copyComplete _ _ => true
  | .promotionComplete _ _ => true
  | .tileSwitchOver _ _ => true
  | .wholeTensorSwitchOver _ => true
  | .conversionSwitchOver _ _ => true
  | .reencodeStart _ _ => true
  | .reencodeComplete _ _ => true
  | .hbmRefresh _ => true
  | .scrubRead _ _ lines => lines.toNat ≤ 8
  | .telemetrySample _ => true
  | .ceAlertInterval _ => true
  | .clearEngineTile store => store.toNat ≤ 9
  | .windowTimeout _ => true
  | .f64TreeDone _ => true
  | .filterScanDone _ => true
  | .bufHoldExpiry _ => true
  | .attnDecodeDone _ => true
  | .guyLinkTick _ => true
  | .keepaliveTick _ => true
  | .mirrorTimeout _ _ => true
  | .secondarySilence _ => true
  | .shadowResponseLate _ => true
  | .dollyRequestIssue _ => true
  | .dollyRetire _ _ => true
  | .faultRecordWrite _ => true
  | .cellStopComplete _ => true
  | .crewClearDone _ => true
  | .pllRelockDone _ => true
  | .illegalInstruction c w => (decodeBurpor c w).isNone
  | .add _ _ _ _ => true
  | .sub _ _ _ _ => true
  | .and _ _ _ _ => true
  | .or _ _ _ _ => true
  | .xor _ _ _ _ => true
  | .shl _ _ _ _ => true
  | .shr _ _ _ _ => true
  | .sra _ _ _ _ => true
  | .slt _ _ _ _ => true
  | .sltu _ _ _ _ => true
  | .min _ _ _ _ => true
  | .max _ _ _ _ => true
  | .minu _ _ _ _ => true
  | .maxu _ _ _ _ => true
  | .mul _ _ _ _ => true
  | .mulh _ _ _ _ => true
  | .mulhu _ _ _ _ => true
  | .div _ _ _ _ => true
  | .divu _ _ _ _ => true
  | .rem _ _ _ _ => true
  | .remu _ _ _ _ => true
  | .popc _ _ _ => true
  | .clz _ _ _ => true
  | .ctz _ _ _ => true
  | .addi _ _ _ _ => true
  | .andi _ _ _ _ => true
  | .ori _ _ _ _ => true
  | .xori _ _ _ _ => true
  | .shli _ _ _ _ => true
  | .shri _ _ _ _ => true
  | .srai _ _ _ _ => true
  | .cmp _ _ _ _ _ => true
  | .cmpi _ _ _ _ _ => true
  | .pand _ _ _ _ => true
  | .por _ _ _ _ => true
  | .pxor _ _ _ _ => true
  | .pandn _ _ _ _ => true
  | .sel _ _ _ _ _ => true
  | .pmov _ _ _ => true
  | .pset _ _ _ => true
  | .lui _ _ _ => true
  | .lsh _ _ _ => true
  | .jal _ _ _ => true
  | .lpc _ _ _ => true
  | .beq _ _ _ _ => true
  | .bne _ _ _ _ => true
  | .blt _ _ _ _ => true
  | .bge _ _ _ _ => true
  | .bltu _ _ _ _ => true
  | .bgeu _ _ _ _ => true
  | .bp _ _ _ => true
  | .bnp _ _ _ => true
  | .jalr _ _ _ _ => true
  | .lb _ _ _ _ => true
  | .lh _ _ _ _ => true
  | .lw _ _ _ _ => true
  | .ld _ _ _ _ => true
  | .lbu _ _ _ _ => true
  | .lhu _ _ _ _ => true
  | .lwu _ _ _ _ => true
  | .sb _ _ _ _ => true
  | .sh _ _ _ _ => true
  | .sw _ _ _ _ => true
  | .st _ _ _ _ => true
  | .zline _ _ _ => true
  | .dsub _ _ _ => true
  | .dwait _ _ => true
  | .dpoll _ _ => true
  | .cadd _ _ _ _ => true
  | .cld _ _ _ => true
  | .cwait _ _ _ _ => true
  | .qput _ _ _ _ => true
  | .qget _ _ _ _ => true
  | .fence _ => true
  | .bar _ => true
  | .halt _ => true
  | .trap _ _ => true
  | .brk _ => true
  | .vadd _ _ _ _ _ _ => true
  | .vsub _ _ _ _ _ _ => true
  | .vmul _ _ _ _ _ _ => true
  | .vfma _ _ _ _ _ _ => true
  | .vmin _ _ _ _ _ _ => true
  | .vmax _ _ _ _ _ _ => true
  | .vabs _ _ _ _ _ => true
  | .vneg _ _ _ _ _ => true
  | .vand _ _ _ _ _ _ => true
  | .vor _ _ _ _ _ _ => true
  | .vxor _ _ _ _ _ _ => true
  | .vshl _ _ _ _ _ _ => true
  | .vshr _ _ _ _ _ _ => true
  | .vsra _ _ _ _ _ _ => true
  | .vceq _ _ _ _ _ _ => true
  | .vclt _ _ _ _ _ _ => true
  | .vcle _ _ _ _ _ _ => true
  | .vsel _ _ _ _ _ _ => true
  | .vexp2 _ _ _ _ _ => true
  | .vlog2 _ _ _ _ _ => true
  | .vrcp _ _ _ _ _ => true
  | .vrsqrt _ _ _ _ _ => true
  | .vsqrt _ _ _ _ _ => true
  | .vmov _ _ _ _ => true
  | .vdot _ _ _ _ _ _ => true
  | .vdotm _ _ _ _ _ _ => true
  | .vdotmPlus _ _ _ _ _ _ => true
  | .vcvt _ _ _ _ _ _ _ => true
  | .vredsum _ _ _ _ _ => true
  | .vredmax _ _ _ _ _ => true
  | .vredmin _ _ _ _ _ => true
  | .vredor _ _ _ _ _ => true
  | .vperm _ _ _ _ _ => true
  | .vld _ _ _ _ => true
  | .vst _ _ _ _ => true
  | .xld _ _ _ _ => true
  | .xst _ _ _ _ => true
  | .vins _ _ _ _ => true
  | .vext _ _ _ _ => true
  | .vsplat _ _ _ _ => true
  | .xrd _ _ _ _ => true
  | .xflg _ _ _ => true
  | .vmxexp _ _ _ _ => true
  | .xclr _ _ => true
  | .xadd _ _ _ _ _ => true
  | .xsub _ _ _ _ _ => true
  | .xmrg _ _ _ => true
  | .transitAgeExpiry _ => true
  | .failoverQuietEnd _ => true
  | .linkUp tray port _ _ _ => linkPort tray port
  | .linkDown tray port => linkPort tray port
  | .crcReplay tray port _ => linkPort tray port
  | .retrainLimitExpiry tray port => linkPort tray port
  | .ideKeysReady port => fabricPort port
  | .ideIntegrityFailure port => fabricPort port
  | .moduleSessionEnd _ => true
  | .portStart tray port => linkPort tray port
  | .bootStageAdvance _ _ => true
  | .auxPor => true
  | .powerOn => true
  | .brownOut _ => true
  | .resetPin => true
  | .resetRelease _ => true
  | .watchdogExpiry => true
  | .watchdogKick => true
  | .softwareDeviceReset => true
  | .debugDeviceReset => true
  | .lockup _ => true
  | .critState _ => true
  | .mapUncorrectable _ _ => true
  | .keySlotError _ => true
  | .clockMonitorWindow clock _ => clock.toNat < 19
  | .clockFailure clock => clock.toNat < 19
  | .blockIdle domain code => if domain then code.toNat < 25 else blockCode code
  | .idleTimeout domain code => if domain then code.toNat < 25 else blockCode code
  | .resetHoldEnd code => blockCode code
  | .domainStartupDone d => d.toNat < 25
  | .keeperOpEnd d => d.toNat < 25
  | .keeperDeadline d => d.toNat < 25
  | .wakeN => true
  | .wakeBit => true
  | .wakeTimer => true
  | .tamperHardAlarm src => src != 0
  | .tamperSoftAlarm _ => true
  | .meshSample _ => true
  | .tempSample _ => true
  | .inputAccepted pin _ => pinCode pin
  | .inputGlitch pin => pinCode pin
  | .stuckTimer pin => pinCode pin
  | .tachUpdate _ => true
  | .safeIntervalEnd _ => true
  | .consentExpiry _ => true
  | .registerWrite _ len _ => 0 < len.toNat && len.toNat ≤ 8
  | .registerReadClear _ len => len = 4 || len = 8
  | .spdmResponse tray port _ digest => linkPort tray port && (digest.length = 48 || digest.isEmpty)
  | .reservedSlotDue _ => true
  | .shaperBucketRefill _ => true
  | .jtagAccess _ => true
  | .operatorWindowAccess wr _ len data => 0 < len.toNat && len.toNat ≤ 4096 && (!wr || data.length = len.toNat)

end Sys2Proof
end

