-- ==== Sys2Proof/Certificates/Slice0/Obligations.lean ====
section
/-! DEFINITION. The statements for the provers. `Ready`, `Fetched`, `Runs`, `Served`, `AppliesAlone`, `CommitsOne`, `Takes`, `Arrives`, `Admitted` and the states `retired`, `jumped`, `faulted`, `waits`, `doneAlone`, `committedOne`, `moved` are those of Safety.lean.
A statement says nothing about the value of a free value (Config): each is said to exist, or is computed from. -/

open Sys2Proof Sys2Proof.Machine

/-! ### The machine -/

/-- With a command at the front of its queue the block performs that command, the rest of the queue waiting (asked in place of "a step runs the decoded instruction"). On an empty queue the block idles: the model's choice (log entry 1). -/
def Obligations.StepTakesTheFrontCommand : Prop :=
   (∀ (i : Instr) (rest : List Instr) (s : State),
      step { s with pending := i :: rest } = exec i { s with pending := rest })
   ∧
  (∀ s : State, s.pending = [] → step s = .next s)

/-- No command ends the run: each has an effect, or changes nothing where what it needs does not hold. -/
def Obligations.EveryCommandAnswersANextState : Prop := ∀ (i : Instr) (s : State), ∃ t, exec i s = .next t

/-! ### Scalar instructions -/

/-- Table 8.5: the two-source operations of major 0x01. Table 8.5: products, quotients and remainders, with the results it gives for a zero divisor and for the quotient -2^63 / -1. -/
def Obligations.RegisterArithmeticResults : Prop :=
   (∀ (c : CellId) (d a b : BitVec 5) (s : State), Ready c s →
      exec (.add c d a b) s = .next (retiredG c d (fun x => x.rg a + x.rg b) s)
      ∧ exec (.sub c d a b) s = .next (retiredG c d (fun x => x.rg a - x.rg b) s)
      ∧ exec (.and c d a b) s = .next (retiredG c d (fun x => x.rg a &&& x.rg b) s)
      ∧ exec (.or c d a b) s = .next (retiredG c d (fun x => x.rg a ||| x.rg b) s)
      ∧ exec (.xor c d a b) s = .next (retiredG c d (fun x => x.rg a ^^^ x.rg b) s)
      ∧ exec (.shl c d a b) s = .next (retiredG c d (fun x => BitVec.ofNat 64 ((x.rg a).toNat * 2 ^ ((x.rg b).toNat % 64))) s)
      ∧ exec (.shr c d a b) s = .next (retiredG c d (fun x => BitVec.ofNat 64 ((x.rg a).toNat / 2 ^ ((x.rg b).toNat % 64))) s)
      ∧ exec (.sra c d a b) s = .next (retiredG c d (fun x => BitVec.ofInt 64 ((x.rg a).toInt / 2 ^ ((x.rg b).toNat % 64))) s)
      ∧ exec (.slt c d a b) s = .next (retiredG c d (fun x => if (x.rg a).toInt < (x.rg b).toInt then 1 else 0) s)
      ∧ exec (.sltu c d a b) s = .next (retiredG c d (fun x => if (x.rg a).toNat < (x.rg b).toNat then 1 else 0) s)
      ∧ exec (.min c d a b) s = .next (retiredG c d (fun x => if (x.rg a).toInt ≤ (x.rg b).toInt then x.rg a else x.rg b) s)
      ∧ exec (.max c d a b) s = .next (retiredG c d (fun x => if (x.rg a).toInt ≤ (x.rg b).toInt then x.rg b else x.rg a) s)
      ∧ exec (.minu c d a b) s = .next (retiredG c d (fun x => if (x.rg a).toNat ≤ (x.rg b).toNat then x.rg a else x.rg b) s)
      ∧ exec (.maxu c d a b) s = .next (retiredG c d (fun x => if (x.rg a).toNat ≤ (x.rg b).toNat then x.rg b else x.rg a) s))
   ∧
   (∀ (c : CellId) (d a b : BitVec 5) (s : State), Ready c s →
      exec (.mul c d a b) s = .next (retiredG c d (fun x => x.rg a * x.rg b) s)
      ∧ exec (.mulh c d a b) s = .next (retiredG c d (fun x => BitVec.ofInt 64 ((x.rg a).toInt * (x.rg b).toInt / 2 ^ 64)) s)
      ∧ exec (.mulhu c d a b) s = .next (retiredG c d (fun x => BitVec.ofNat 64 ((x.rg a).toNat * (x.rg b).toNat / 2 ^ 64)) s)
      ∧ exec (.div c d a b) s = .next (retiredG c d (fun x =>
          if x.rg b = 0 then BitVec.ofInt 64 (-1) else BitVec.ofInt 64 ((x.rg a).toInt.tdiv (x.rg b).toInt)) s)
      ∧ exec (.divu c d a b) s = .next (retiredG c d (fun x =>
          if x.rg b = 0 then BitVec.ofNat 64 (2 ^ 64 - 1) else BitVec.ofNat 64 ((x.rg a).toNat / (x.rg b).toNat)) s)
      ∧ exec (.rem c d a b) s = .next (retiredG c d (fun x =>
          if x.rg b = 0 then x.rg a else BitVec.ofInt 64 ((x.rg a).toInt.tmod (x.rg b).toInt)) s)
      ∧ exec (.remu c d a b) s = .next (retiredG c d (fun x =>
          if x.rg b = 0 then x.rg a else BitVec.ofNat 64 ((x.rg a).toNat % (x.rg b).toNat)) s))

/-- Tables 8.6, 8.7 and 8.8: results that go to a g register from an immediate, a predicate, or pc. Table 8.5: popc, clz and ctz, by the bits of the source. -/
def Obligations.ImmediateMoveAndBitCountResults : Prop :=
   (∀ (c : CellId) (d a b : BitVec 5) (p : BitVec 3) (i : BitVec 12) (sh : BitVec 6) (u : BitVec 20) (s : State), Ready c s →
      exec (.addi c d a i) s = .next (retiredG c d (fun x => x.rg a + BitVec.ofInt 64 i.toInt) s)
      ∧ exec (.andi c d a i) s = .next (retiredG c d (fun x => x.rg a &&& BitVec.ofInt 64 i.toInt) s)
      ∧ exec (.ori c d a i) s = .next (retiredG c d (fun x => x.rg a ||| BitVec.ofInt 64 i.toInt) s)
      ∧ exec (.xori c d a i) s = .next (retiredG c d (fun x => x.rg a ^^^ BitVec.ofInt 64 i.toInt) s)
      ∧ exec (.shli c d a sh) s = .next (retiredG c d (fun x => BitVec.ofNat 64 ((x.rg a).toNat * 2 ^ sh.toNat)) s)
      ∧ exec (.shri c d a sh) s = .next (retiredG c d (fun x => BitVec.ofNat 64 ((x.rg a).toNat / 2 ^ sh.toNat)) s)
      ∧ exec (.srai c d a sh) s = .next (retiredG c d (fun x => BitVec.ofInt 64 ((x.rg a).toInt / 2 ^ sh.toNat)) s)
      ∧ exec (.sel c d a b p) s = .next (retiredG c d (fun x => if (x.rp p).getLsbD 0 then x.rg a else x.rg b) s)
      ∧ exec (.pmov c d p) s = .next (retiredG c d (fun x => BitVec.ofNat 64 (x.rp p).toNat) s)
      ∧ exec (.lui c d u) s = .next (retiredG c d (fun _ => BitVec.ofInt 64 (u.toInt * 2 ^ 12)) s)
      ∧ exec (.lsh c d u) s = .next (retiredG c d (fun x => BitVec.ofNat 64 ((x.rg d).toNat * 2 ^ 20 + u.toNat)) s)
      ∧ exec (.lpc c d u) s = .next (retiredG c d (fun x => x.pc + BitVec.ofInt 64 (u.toInt * 4)) s))
   ∧
   (∀ (c : CellId) (d a : BitVec 5) (s : State), Ready c s →
      let v := (cellOf s (cellNum c)).rg a
      exec (.popc c d a) s = .next (retiredG c d (fun _ => BitVec.ofNat 64 ((List.range 64).countP fun i => v.getLsbD i)) s)
      ∧ (∃ n, n ≤ 64 ∧ (∀ i, i < n → v.getLsbD (63 - i) = false) ∧ (n < 64 → v.getLsbD (63 - n) = true)
          ∧ exec (.clz c d a) s = .next (retiredG c d (fun _ => BitVec.ofNat 64 n) s))
      ∧ (∃ n, n ≤ 64 ∧ (∀ i, i < n → v.getLsbD i = false) ∧ (n < 64 → v.getLsbD n = true)
          ∧ exec (.ctz c d a) s = .next (retiredG c d (fun _ => BitVec.ofNat 64 n) s)))

/-- Table 8.7: a scalar compare writes the same value to all 32 bits of its predicate; the predicate operations work bit by bit. -/
def Obligations.PredicateResults : Prop :=
  ∀ (c : CellId) (q p r : BitVec 3) (a b : BitVec 5) (i : BitVec 12) (s : State), Ready c s →
    (∀ (cc : CC) (h : U64 → U64 → Bool), (cc, h) ∈ [
          (CC.eq, fun v w => v == w), (.ne, fun v w => !(v == w)),
          (.lt, fun v w => decide (v.toInt < w.toInt)), (.ge, fun v w => decide (w.toInt ≤ v.toInt)),
          (.ltu, fun v w => decide (v.toNat < w.toNat)), (.geu, fun v w => decide (w.toNat ≤ v.toNat))] →
        exec (.cmp c cc q a b) s = .next (retiredP c q (fun x => if h (x.rg a) (x.rg b) then BitVec.allOnes 32 else 0) s)
        ∧ exec (.cmpi c cc q a i) s = .next (retiredP c q (fun x => if h (x.rg a) (BitVec.ofInt 64 i.toInt) then BitVec.allOnes 32 else 0) s))
    ∧ exec (.pand c q p r) s = .next (retiredP c q (fun x => x.rp p &&& x.rp r) s)
    ∧ exec (.por c q p r) s = .next (retiredP c q (fun x => x.rp p ||| x.rp r) s)
    ∧ exec (.pxor c q p r) s = .next (retiredP c q (fun x => x.rp p ^^^ x.rp r) s)
    ∧ exec (.pandn c q p r) s = .next (retiredP c q (fun x => x.rp p &&& ~~~ x.rp r) s)
    ∧ exec (.pset c q a) s = .next (retiredP c q (fun x => BitVec.ofNat 32 (x.rg a).toNat) s)

/-- R170 and Tables 8.8, 8.9: a branch goes to its own address plus sext(off12) * 4, or on to the next instruction; jal and jalr leave pc + 4 in gd, and a target of jalr that is not a multiple of 4 raises MISALIGNED. -/
def Obligations.BranchAndJumpResults : Prop :=
  ∀ (c : CellId) (d a b : BitVec 5) (p : BitVec 3) (o : BitVec 12) (u : BitVec 20) (s : State), Ready c s →
    let x := cellOf s (cellNum c)
    let go (taken : Bool) : State := jumped c id (fun y => if taken then y.pc + BitVec.ofInt 64 (o.toInt * 4) else y.pc + 4) s
    exec (.beq c a b o) s = .next (go (x.rg a == x.rg b))
    ∧ exec (.bne c a b o) s = .next (go (x.rg a != x.rg b))
    ∧ exec (.blt c a b o) s = .next (go (decide ((x.rg a).toInt < (x.rg b).toInt)))
    ∧ exec (.bge c a b o) s = .next (go (decide ((x.rg b).toInt ≤ (x.rg a).toInt)))
    ∧ exec (.bltu c a b o) s = .next (go (decide ((x.rg a).toNat < (x.rg b).toNat)))
    ∧ exec (.bgeu c a b o) s = .next (go (decide ((x.rg b).toNat ≤ (x.rg a).toNat)))
    ∧ exec (.bp c p o) s = .next (go ((x.rp p).getLsbD 0))
    ∧ exec (.bnp c p o) s = .next (go (!(x.rp p).getLsbD 0))
    ∧ exec (.jal c d u) s = .next (jumped c (fun y => y.wg d (y.pc + 4)) (fun y => y.pc + BitVec.ofInt 64 (u.toInt * 4)) s)
    ∧ ((x.rg a + BitVec.ofInt 64 o.toInt).toNat % 4 = 0 →
        exec (.jalr c d a o) s = .next (jumped c (fun y => y.wg d (y.pc + 4)) (fun y => y.rg a + BitVec.ofInt 64 o.toInt) s))
    ∧ ((x.rg a + BitVec.ofInt 64 o.toInt).toNat % 4 ≠ 0 →
        exec (.jalr c d a o) s = .next (faulted c 0x03 (wordOf (.jalr c d a o)) (x.rg a + BitVec.ofInt 64 o.toInt).toNat 0 s))

/-- Table 8.10 and R171: a load of 1, 2, 4 or 8 bytes at base + sext(off12), little-endian, sign- or zero-extended. Table 8.10, R171 and R173: a store writes the low bytes of its register, little-endian, at base + sext(off12) and changes no other byte the cell sees; zline zeroes its 64 bytes; no other state changes but pc and the count of the cell. -/
def Obligations.LoadAndStoreResults : Prop :=
   (∀ (c : CellId) (r b : BitVec 5) (o : BitVec 12) (s : State), Ready c s →
      let a := ((cellOf s (cellNum c)).rg b + BitVec.ofInt 64 o.toInt).toNat
      ∀ (i : Instr) (len : Nat) (signed : Bool), (i, len, signed) ∈ [
          (Instr.lb c r b o, 1, true), (.lh c r b o, 2, true), (.lw c r b o, 4, true), (.ld c r b o, 8, true),
          (.lbu c r b o, 1, false), (.lhu c r b o, 2, false), (.lwu c r b o, 4, false)] →
        ∀ l, Loadable s c a len l →
          ∃ bs : List Byte, bs.length = len ∧ (∀ k, (h : k < bs.length) → locByte s (cellNum c) (a + k) = some bs[k])
            ∧ exec i s = .next (retiredG c r (fun _ =>
                if signed && leNat bs ≥ 2 ^ (8 * len - 1) then BitVec.ofInt 64 ((leNat bs : Int) - 2 ^ (8 * len)) else BitVec.ofNat 64 (leNat bs)) s))
   ∧
   (∀ (c : CellId) (r b : BitVec 5) (o : BitVec 12) (s : State), Ready c s →
      let n := cellNum c
      let a := ((cellOf s n).rg b + BitVec.ofInt 64 o.toInt).toNat
      ∀ (i : Instr) (len : Nat) (v : Nat), (i, len, v) ∈ [
          (Instr.sb c r b o, 1, ((cellOf s n).rg r).toNat), (.sh c r b o, 2, ((cellOf s n).rg r).toNat),
          (.sw c r b o, 4, ((cellOf s n).rg r).toNat), (.st c r b o, 8, ((cellOf s n).rg r).toNat), (.zline c b o, 64, 0)] →
        ∀ l, Storable s c a len l →
          ∃ t, exec i s = .next t
            ∧ (∀ k, k < len → locByte t n (a + k) = some (BitVec.ofNat 8 (v / 2 ^ (8 * k))))
            ∧ (∀ j, j < a ∨ a + len ≤ j → locByte t n j = locByte s n j)
            ∧ (∀ m, m ≠ n → cellOf t m = cellOf s m)
            ∧ (∀ k, k ≠ n / 32 → crewOf t k = crewOf s k)
            ∧ cellOf t n = { cellOf s n with pc := (cellOf s n).pc + 4, instrs := (cellOf s n).instrs + 1
                                             scratch := (cellOf t n).scratch, marks := (cellOf t n).marks }
            ∧ crewOf t (n / 32) = { crewOf s (n / 32) with mem := (crewOf t (n / 32)).mem, marks := (crewOf t (n / 32)).marks }
            ∧ (len = 64 → locMarked t n l 64 = false)
            ∧ { t with crw := s.crw } = s)

/-! ### Dollies, clappers, queues, fences, barriers, exceptions -/

/-- R174 and Table 8.11: dsub submits the transfer that 64 local bytes describe and returns the next ticket, or waits while 16 are in flight; dwait goes on once the retired count has reached the ticket; dpoll reads that count. -/
def Obligations.DollyInstructionResults : Prop :=
  ∀ (c : CellId) (d a : BitVec 5) (s : State), Ready c s →
    let n := cellNum c
    let x := cellOf s n
    let ad := (x.rg a).toNat
    (∀ (l : Loc) (t : Xfer), ad % 64 = 0 → locOf ad 64 = some l → locArea s n l 64 = false →
        parseXfer ad (locRead s n l 64) = some t → rowsOk s n t = true →
        (∀ k, t.clapper = some k → ownsClap s (some (cellTent s n)) k = true) →
        (x.xfers.length < 16 →
          exec (.dsub c d a) s = .next (retired c (fun y =>
            { y.wg d (BitVec.ofNat 64 (y.submitted + 1)) with
              submitted := y.submitted + 1, xfers := y.xfers ++ [{ t with ticket := y.submitted + 1 }] }) s))
        ∧ (16 ≤ x.xfers.length → exec (.dsub c d a) s = .next (waits c (.submit d t) s)))
    ∧ (∀ l, ad % 64 = 0 → locOf ad 64 = some l → locArea s n l 64 = false → parseXfer ad (locRead s n l 64) = none →
        exec (.dsub c d a) s = .next (faulted c 0x06 (wordOf (.dsub c d a)) ad 0 s))
    ∧ (ad ≤ x.retired → exec (.dwait c a) s = .next (retired c id s))
    ∧ (x.retired < ad → exec (.dwait c a) s = .next (waits c (.retired (x.rg a)) s))
    ∧ exec (.dpoll c d) s = .next (retiredG c d (fun y => BitVec.ofNat 64 y.retired) s)

/-- R177: on a clapper of the cell's tent, cadd adds and returns the counter after it, cld returns the counter, cwait returns it once it has reached the threshold and waits before that; any other clapper number raises CLAPPER with VALUE the number. R53: an addition to a clapper gives the sum, or 2^64 - 1 with the overflow flag where the sum exceeds it; other clappers keep their counters; the waits whose threshold is reached fire with the value. -/
def Obligations.ClapperInstructionResults : Prop :=
   (∀ (c : CellId) (d a b : BitVec 5) (s : State), Ready c s →
      let n := cellNum c
      let x := cellOf s n
      let k := (x.rg a).toNat
      (∀ v : Clapper, k < 131072 → clapper s k = some v → v.owner = some (cellTent s n) →
          (let sum := v.ctr.toNat + (x.rg b).toNat
           exec (.cadd c d a b) s = .next (updCell n
             (fun _ => (x.wg d (if sum < 2 ^ 64 then BitVec.ofNat 64 sum else BitVec.allOnes 64)).next) (clapAdd k (x.rg b).toNat s)))
          ∧ exec (.cld c d a) s = .next (retiredG c d (fun _ => v.ctr) s)
          ∧ ((x.rg b).toNat ≤ v.ctr.toNat → exec (.cwait c d a b) s = .next (retiredG c d (fun _ => v.ctr) s))
          ∧ (v.ctr.toNat < (x.rg b).toNat → exec (.cwait c d a b) s = .next (waits c (.clap d k (x.rg b)) s)))
      ∧ ((131072 ≤ k ∨ ∀ v, clapper s k = some v → v.owner ≠ some (cellTent s n)) →
          exec (.cadd c d a b) s = .next (faulted c 0x07 (wordOf (.cadd c d a b)) 0 k s)
          ∧ exec (.cld c d a) s = .next (faulted c 0x07 (wordOf (.cld c d a)) 0 k s)
          ∧ exec (.cwait c d a b) s = .next (faulted c 0x07 (wordOf (.cwait c d a b)) 0 k s)))
   ∧
   (∀ (k v : Nat) (x : Clapper) (s : State), clapper s k = some x →
      let t := clapAdd k v s
      let y : Clapper := if x.ctr.toNat + v < 2 ^ 64 then { x with ctr := BitVec.ofNat 64 (x.ctr.toNat + v) }
                         else { x with ctr := BitVec.ofNat 64 (2 ^ 64 - 1), ovf := true }
      clapper t k = some y
      ∧ (∀ j, j ≠ k → clapper t j = clapper s j)
      ∧ (∀ w z, (w, z) ∈ s.gaf.waits → z.clapper = k → z.threshold ≤ y.ctr → find s.gaf.fired w = none → find t.gaf.fired w = some y.ctr)
      ∧ t.gaf.waits = s.gaf.waits ∧ t.pool = s.pool ∧ t.fab = s.fab ∧ t.qm = s.qm ∧ t.kpr = s.kpr ∧ t.chip = s.chip)

/-- R178, R310 and R311: qput stores an entry at the tail of a queue of its tent and gd is 0; gd is 1 on a full queue, and the queue is as it was but for its place in the cache. qget takes the entry at the head; gd is 1 on an empty queue. R179 and R181: fence goes on once no transfer of the cell is in flight. bar waits for the cell's transfers, then for the members of its barrier, and the last to arrive lets them all go on. halt waits for the transfers, then the cell is HALTED and its DONE clapper gains one. -/
def Obligations.QueueFenceAndBarrierResults : Prop :=
   (∀ (c : CellId) (d a b : BitVec 5) (s : State), Ready c s →
      let n := cellNum c
      let x := cellOf s n
      let k := (x.rg a).toNat
      let ad := (x.rg b).toNat
      ∀ (h : HwQueue) (l : Loc), find s.qm.queues k = some h → h.tent = cellTent s n → h.error = false → ad % 64 = 0 →
        locOf ad (2 ^ h.e) = some l → locArea s n l (2 ^ h.e) = false →
        let s0 := touchHot k s
        ((h.tail - h.head).toNat = 2 ^ h.n → exec (.qput c d a b) s = .next (updCell n (fun _ => (x.wg d 1).next) s0))
        ∧ (∀ s1, (h.tail - h.head).toNat ≠ 2 ^ h.n →
            engWriteS h.source h.tent (h.base + (h.tail.toNat % 2 ^ h.n) * 2 ^ h.e) (locRead s n l (2 ^ h.e)) s0 (locMarks s n ad (2 ^ h.e)) = (true, s1) →
            exec (.qput c d a b) s = .next (updCell n (fun _ => (x.wg d 0).next)
              (clapOpt h.put 1 (updHw k (fun y => { y with tail := y.tail + 1 }) s1))))
        ∧ (locText s n l (2 ^ h.e) = false → h.tail = h.head → exec (.qget c d a b) s = .next (updCell n (fun _ => (x.wg d 1).next) s0))
        ∧ (∀ r s1, locText s n l (2 ^ h.e) = false → h.tail ≠ h.head →
            engRead h.source h.tent (h.base + (h.head.toNat % 2 ^ h.n) * 2 ^ h.e) (2 ^ h.e) s0 = (some r, s1) →
            let s2 := locFill n ad (2 ^ h.e / 64) r.data r.mask (clapOpt h.get 1 (updHw k (fun y => { y with head := y.head + 1 }) s1))
            exec (.qget c d a b) s = .next (updCell n (fun _ =>
              Cell.next { x.wg d 0 with scratch := (cellOf s2 n).scratch, marks := (cellOf s2 n).marks }) s2)))
   ∧
   (∀ (c : CellId) (s : State), Ready c s →
      let n := cellNum c
      let x := cellOf s n
      let k := n / 32
      (x.xfers = [] → exec (.fence c) s = .next (retired c id s))
      ∧ (x.xfers ≠ [] → exec (.fence c) s = .next (waits c .fence s)
          ∧ exec (.bar c) s = .next (waits c .barFence s) ∧ exec (.halt c) s = .next (waits c .haltFence s))
      ∧ (x.xfers = [] → (∃ m ∈ barMembers s k x.group, m ≠ n ∧ (cellOf s m).wait ≠ some .bar) →
          exec (.bar c) s = .next (waits c .bar s))
      ∧ (x.xfers = [] → (∀ m ∈ barMembers s k x.group, m ≠ n → (cellOf s m).wait = some .bar) →
          ∃ t, exec (.bar c) s = .next t
            ∧ (∀ m ∈ barMembers s k x.group, cellOf t m = { cellOf s m with
                state := .running, wait := none, pc := (cellOf s m).pc + 4, instrs := (cellOf s m).instrs + 1 })
            ∧ (∀ m, m ∉ barMembers s k x.group → cellOf t m = cellOf s m)
            ∧ t.crw.crews = s.crw.crews ∧ { t with crw := s.crw } = s)
      ∧ (x.xfers = [] → exec (.halt c) s = .next (releaseBar k x.group (clapOpt x.doneClap 1
          (updCell n (fun y => { y with state := .halted, wait := none, pc := y.pc + 4, instrs := y.instrs + 1 }) s)))))

/-- R180 and Table 8.14: trap, brk and a word that no instruction has fault the cell with their cause, the word, and VALUE for trap; a cell in any state but RUNNING executes nothing. R170, R180 and Table 8.14: a fetch outside the text of the loaded image raises FETCH with ADDR pc, and one inside a bound accumulator area raises XLOCK, which is counted; the word recorded is free. R171, R165, R215, R173 and R207: a load or store at an address that is not a multiple of its size raises MISALIGNED; outside scratch and crew memory, or a store to text, ACCESS; in a bound area, XLOCK, which is counted; a load from a marked line, POISON. ADDR is the address. Nothing is loaded or stored. -/
def Obligations.ExceptionResults : Prop :=
   (∀ (c : CellId) (a : BitVec 5) (w : BitVec 32) (s : State),
      (Ready c s → exec (.trap c a) s = .next (faulted c 0x09 (wordOf (.trap c a)) 0 ((cellOf s (cellNum c)).rg a).toNat s)
        ∧ exec (.brk c) s = .next (faulted c 0x0A (wordOf (.brk c)) 0 0 s)
        ∧ (decodeBurpor c w = none → exec (.illegalInstruction c w) s = .next (faulted c 0x01 w.toNat 0 0 s)))
      ∧ (∀ cc d b p q r i j u v y x t z e, ∀ k ∈ burporForms c cc d a b p q r i j u v y x t z e,
          (cellOf s (cellNum c)).state ≠ .running → exec k s = .next s))
   ∧
   (∀ (c : CellId) (s : State) cc d a b p q r i j u v y x t z e, ∀ k ∈ burporForms c cc d a b p q r i j u v y x t z e,
      let n := cellNum c
      let pc := (cellOf s n).pc.toNat
      let cr := crewOf s (n / 32)
      (cellOf s n).state = .running → cr.decode = none → relocking s (n / 512) = false →
        (¬(cr.loaded = true ∧ covers (crewBase + cr.textBase) cr.textLen pc 4 = true) →
          ∃ w, exec k s = .next (faulted c 0x02 w pc 0 { s with freeIx := s.freeIx + 1 }))
        ∧ (cr.loaded = true → covers (crewBase + cr.textBase) cr.textLen pc 4 = true → inArea cr (pc - crewBase) 4 = true →
          ∃ w, exec k s = .next (faulted c 0x10 w pc 0 (countXlock (n / 32) { s with freeIx := s.freeIx + 1 }))))
   ∧
   (∀ (c : CellId) (r b : BitVec 5) (v : BitVec 4) (y : BitVec 2) (o : BitVec 12) (s : State), Ready c s →
      let n := cellNum c
      let x := cellOf s n
      let at_ (k : Int) : Nat := (x.rg b + BitVec.ofInt 64 (o.toInt * k)).toNat
      (∀ (i : Instr) (a len : Nat), (i, a, len) ∈ [
          (Instr.lb c r b o, at_ 1, 1), (.lh c r b o, at_ 1, 2), (.lw c r b o, at_ 1, 4), (.ld c r b o, at_ 1, 8), (.lbu c r b o, at_ 1, 1),
          (.lhu c r b o, at_ 1, 2), (.lwu c r b o, at_ 1, 4), (.vld c v b o, at_ 32, 32), (.xld c y b o, at_ 64, 64)] →
        (a % len ≠ 0 → exec i s = .next (faulted c 0x03 (wordOf i) a 0 s))
        ∧ (a % len = 0 → locOf a len = none → exec i s = .next (faulted c 0x04 (wordOf i) a 0 s))
        ∧ (∀ l, a % len = 0 → locOf a len = some l → locArea s n l len = true →
            exec i s = .next (faulted c 0x10 (wordOf i) a 0 (countXlock (n / 32) s)))
        ∧ (∀ l, a % len = 0 → locOf a len = some l → locArea s n l len = false → locMarked s n l len = true →
            exec i s = .next (faulted c 0x05 (wordOf i) a 0 s)))
      ∧ (∀ (i : Instr) (a len : Nat), (i, a, len) ∈ [
          (Instr.sb c r b o, at_ 1, 1), (.sh c r b o, at_ 1, 2), (.sw c r b o, at_ 1, 4), (.st c r b o, at_ 1, 8), (.zline c b o, at_ 1, 64),
          (.vst c v b o, at_ 32, 32), (.xst c y b o, at_ 64, 64)] →
        (a % len ≠ 0 → exec i s = .next (faulted c 0x03 (wordOf i) a 0 s))
        ∧ (a % len = 0 → locOf a len = none → exec i s = .next (faulted c 0x04 (wordOf i) a 0 s))
        ∧ (∀ l, a % len = 0 → locOf a len = some l → locText s n l len = true → exec i s = .next (faulted c 0x04 (wordOf i) a 0 s))
        ∧ (∀ l, a % len = 0 → locOf a len = some l → locText s n l len = false → locArea s n l len = true →
            exec i s = .next (faulted c 0x10 (wordOf i) a 0 (countXlock (n / 32) s)))))

/-! ### Vector instructions and accumulators -/

/-- R192, R194, R198 and Table 9.6: on an accepted tag an element-wise instruction writes each governed element of vd with its result, rounded once or wrapped, and leaves the others; min and max, shifts and logic on integer tags as the table says. R192: an element of a result that its predicate does not govern keeps its value, and an element that it governs has the operation's value, cut to the element. -/
def Obligations.ElementwiseResults : Prop :=
   (∀ (c : CellId) (vd a b t : BitVec 4) (p : BitVec 3) (s : State), Ready c s →
      let w := tagBits t
      let each (f : Nat → Nat → Nat → Nat) : State := retiredV c vd (fun x =>
        vecOf w ((List.range (tagCount t)).map fun k =>
          if (x.rp p).getLsbD (w * k / 8) then f (elem (x.rv a) w k) (elem (x.rv b) w k) (elem (x.rv vd) w k) else elem (x.rv vd) w k)) s
      let int (f : Int → Int → Int → Int) (x y z : Nat) : Nat := wrap w (f (sext w x) (sext w y) (sext w z))
      (∀ f : FF, tagFF t = some f → tagF t = true →
        let flt (g : FV → FV → FV → FV) (x y z : Nat) : Nat := f.round (g (f.decode x) (f.decode y) (f.decode z))
        exec (.vadd c vd a b t p) s = .next (each (flt fun x y _ => sumFV [x, y]))
        ∧ exec (.vsub c vd a b t p) s = .next (each (flt fun x y _ => sumFV [x, negFV y]))
        ∧ exec (.vmul c vd a b t p) s = .next (each (flt fun x y _ => mulFV x y))
        ∧ exec (.vfma c vd a b t p) s = .next (each (flt fun x y z => sumFV [z, mulFV x y]))
        ∧ exec (.vmin c vd a b t p) s = .next (each (flt fun x y _ => minFV x y))
        ∧ exec (.vmax c vd a b t p) s = .next (each (flt fun x y _ => maxFV x y))
        ∧ exec (.vabs c vd a t p) s = .next (each (flt fun x _ _ => absFV x))
        ∧ exec (.vneg c vd a t p) s = .next (each (flt fun x _ _ => negFV x)))
      ∧ (tagI t = true →
        exec (.vadd c vd a b t p) s = .next (each (int fun x y _ => x + y))
        ∧ exec (.vsub c vd a b t p) s = .next (each (int fun x y _ => x - y))
        ∧ exec (.vmul c vd a b t p) s = .next (each (int fun x y _ => x * y))
        ∧ exec (.vfma c vd a b t p) s = .next (each (int fun x y z => z + x * y))
        ∧ exec (.vmin c vd a b t p) s = .next (each (int fun x y _ => min x y))
        ∧ exec (.vmax c vd a b t p) s = .next (each (int fun x y _ => max x y))
        ∧ exec (.vabs c vd a t p) s = .next (each (int fun x _ _ => if x < 0 then -x else x))
        ∧ exec (.vneg c vd a t p) s = .next (each (int fun x _ _ => -x))
        ∧ exec (.vand c vd a b t p) s = .next (each fun x y _ => x &&& y)
        ∧ exec (.vor c vd a b t p) s = .next (each fun x y _ => x ||| y)
        ∧ exec (.vxor c vd a b t p) s = .next (each fun x y _ => x ^^^ y)
        ∧ exec (.vshl c vd a b t p) s = .next (each fun x y _ => x * 2 ^ (y % w))
        ∧ exec (.vshr c vd a b t p) s = .next (each fun x y _ => x / 2 ^ (y % w))
        ∧ exec (.vsra c vd a b t p) s = .next (each fun x y _ => wrap w (sext w x / 2 ^ (y % w)))))
   ∧
   (∀ (p : BitVec 32) (t : BitVec 4) (old : BitVec 256) (f : Nat → Nat) (k : Nat), k < tagCount t →
      elem (mapElems p (tagBits t) (tagCount t) old f) (tagBits t) k
        = if p.getLsbD (tagBits t * k / 8) then f k % 2 ^ tagBits t else elem old (tagBits t) k)

/-- R199, R200 and Table 9.6: the functions of R200 on floating tags; vmov copies elements of 32 bits; vsel takes the governed elements of vs1 and the others of vs2; a comparison sets the byte lanes of the governed elements for which it holds, and lanes 4 to 31 stay 0 for 64-bit elements. -/
def Obligations.CompareSelectFunctionResults : Prop :=
  ∀ (c : CellId) (vd a b t : BitVec 4) (q p : BitVec 3) (s : State), Ready c s →
    let w := tagBits t
    (∀ f : FF, tagFF t = some f → tagFn t = true →
      let each (g : FV → FV) : State := retiredV c vd (fun x =>
        vecOf w ((List.range (tagCount t)).map fun k =>
          if (x.rp p).getLsbD (w * k / 8) then f.round (g (f.decode (elem (x.rv a) w k))) else elem (x.rv vd) w k)) s
      exec (.vexp2 c vd a t p) s = .next (each exp2FV)
      ∧ exec (.vlog2 c vd a t p) s = .next (each log2FV)
      ∧ exec (.vrcp c vd a t p) s = .next (each rcpFV)
      ∧ exec (.vrsqrt c vd a t p) s = .next (each rsqrtFV)
      ∧ exec (.vsqrt c vd a t p) s = .next (each sqrtFV))
    ∧ exec (.vmov c vd a p) s = .next (retiredV c vd (fun x =>
        vecOf 32 ((List.range 8).map fun k => if (x.rp p).getLsbD (4 * k) then elem (x.rv a) 32 k else elem (x.rv vd) 32 k)) s)
    ∧ ((tagF t || tagI t) = true → exec (.vsel c vd a b t p) s = .next (retiredV c vd (fun x =>
        vecOf w ((List.range (tagCount t)).map fun k => if (x.rp p).getLsbD (w * k / 8) then elem (x.rv a) w k else elem (x.rv b) w k)) s))
    ∧ (∀ f : FF, tagFF t = some f → tagF t = true →
      let holds (g : FV → FV → Bool) : State := retiredP c q (fun x =>
        predElems (x.rp p) w (tagCount t) fun k => g (f.decode (elem (x.rv a) w k)) (f.decode (elem (x.rv b) w k))) s
      exec (.vceq c q a b t p) s = .next (holds eqFV) ∧ exec (.vclt c q a b t p) s = .next (holds ltFV)
      ∧ exec (.vcle c q a b t p) s = .next (holds fun x y => ltFV x y || eqFV x y))
    ∧ (tagI t = true →
      let holds (g : Int → Int → Bool) : State := retiredP c q (fun x =>
        predElems (x.rp p) w (tagCount t) fun k => g (sext w (elem (x.rv a) w k)) (sext w (elem (x.rv b) w k))) s
      exec (.vceq c q a b t p) s = .next (holds fun x y => decide (x = y)) ∧ exec (.vclt c q a b t p) s = .next (holds fun x y => decide (x < y))
      ∧ exec (.vcle c q a b t p) s = .next (holds fun x y => decide (x ≤ y)))

/-- R201, R202 and R204: a dot product adds the n products of a lane to the lane with one rounding, or wraps for integer tags; vdotm takes its first operand from 32 local bytes, and vdotm+ also adds 32 to its address register; vcvt writes the elements of its part and keeps the others. R201: lane i of a dot product is the fp32 rounding of the exact sum of the lane and its n = tagCount / 8 products, or the 32-bit sum that wraps for .i8 and .i4. -/
def Obligations.DotProductAndConversionResults : Prop :=
   (∀ (c : CellId) (vd a b t x : BitVec 4) (p : BitVec 3) (op : BitVec 6) (s : State), Ready c s →
      let n := cellNum c
      let g : BitVec 5 := a.setWidth 5
      let ad := ((cellOf s n).rg g).toNat
      (dotOk t p = true →
        exec (.vdot c vd a b t p) s = .next (retiredV c vd (fun y => dotResult t (y.rp p) (y.rv a) (y.rv b) (y.rv vd)) s)
        ∧ (∀ l, Loadable s c ad 32 l →
            let m := BitVec.ofNat 256 (leNat (locRead s n l 32))
            exec (.vdotm c vd a b t p) s = .next (retiredV c vd (fun y => dotResult t (y.rp p) m (y.rv b) (y.rv vd)) s)
            ∧ exec (.vdotmPlus c vd a b t p) s = .next (retired c (fun y =>
                (y.wv vd (dotResult t (y.rp p) m (y.rv b) (y.rv vd))).wg g (y.rg g + 32)) s)))
      ∧ (dotOk t p = false →
          exec (.vdot c vd a b t p) s = .next (faulted c 0x01 (wordOf (.vdot c vd a b t p)) 0 0 s)
          ∧ exec (.vdotm c vd a b t p) s = .next (faulted c 0x01 (wordOf (.vdotm c vd a b t p)) 0 0 s)
          ∧ exec (.vdotmPlus c vd a b t p) s = .next (faulted c 0x01 (wordOf (.vdotmPlus c vd a b t p)) 0 0 s))
      ∧ (cvtOk t x p op = true →
          exec (.vcvt c vd a x t p op) s = .next (retiredV c vd (fun y => cvtResult t x (y.rp p) op.toNat (y.rv a) (y.rv vd)) s))
      ∧ (cvtOk t x p op = false →
          exec (.vcvt c vd a x t p op) s = .next (faulted c 0x01 (wordOf (.vcvt c vd a x t p op)) 0 0 s)))
   ∧
   (∀ (t : BitVec 4) (p : BitVec 32) (a b : BitVec 256) (old i : Nat), tagDot t = true →
      let n := tagCount t / 8
      dotLane t p a b old i
        = if t = 5 ∨ t = 6 then
            wrap 32 (sext 32 old + ((List.range n).map fun j =>
              sext (tagBits t) (elem a (tagBits t) (n * i + j)) * sext (tagBits t) (elem b (tagBits t) (n * i + j))).sum)
          else FF.f32.round (sumFV (FF.f32.decode old :: (List.range n).map fun j =>
              mulFV (elemValue t p 0 a (n * i + j)) (elemValue t p 1 b (n * i + j)))))

/-- R205, R206 and Table 9.8: a reduction writes element 0 and zeroes the others; vredor works on integer tags; vperm moves the bytes that vs2 names and takes no predicate. Table 9.9: vins, vext, vsplat and vmxexp. R207 and Table 9.9: vld and xld read 32 and 64 local bytes at base + sext(off12) times 32 and 64; vst and xst write them, an accumulator record with KIND 0 and reserved bytes 0, and change no other byte the cell sees. -/
def Obligations.ReductionMoveAndVectorMemoryResults : Prop :=
   (∀ (c : CellId) (vd a b t : BitVec 4) (d g h : BitVec 5) (p : BitVec 3) (s : State), Ready c s →
      let w := tagBits t
      let red (f : List (Option Nat) → Nat) : State := retiredV c vd (fun x =>
        BitVec.ofNat 256 (f ((List.range (tagCount t)).map fun k => if (x.rp p).getLsbD (w * k / 8) then some (elem (x.rv a) w k) else none) % 2 ^ w)) s
      ((tagF t || tagI t) = true →
        exec (.vredsum c vd a t p) s = .next (red (redSum t))
        ∧ exec (.vredmax c vd a t p) s = .next (red (redExt t true))
        ∧ exec (.vredmin c vd a t p) s = .next (red (redExt t false)))
      ∧ (tagI t = true → exec (.vredor c vd a t p) s = .next (red fun ls => ls.foldl (fun v l => v ||| l.getD 0) 0))
      ∧ exec (.vperm c vd a b 0) s = .next (retiredV c vd (fun x =>
          vecOf 8 ((List.range 32).map fun j => elem (x.rv a) 8 (elem (x.rv b) 8 j % 32))) s)
      ∧ exec (.vins c vd g h) s = .next (retiredV c vd (fun x =>
          vecOf 64 ((List.range 4).map fun k => if k = (x.rg h).toNat % 4 then (x.rg g).toNat else elem (x.rv vd) 64 k)) s)
      ∧ exec (.vext c d a h) s = .next (retiredG c d (fun x => BitVec.ofNat 64 (elem (x.rv a) 64 ((x.rg h).toNat % 4))) s)
      ∧ (tagSplat t = true → exec (.vsplat c vd g t) s = .next (retiredV c vd (fun x => vecOf w (List.replicate (tagCount t) (x.rg g).toNat)) s))
      ∧ (tagMX t = true → exec (.vmxexp c d a t) s = .next (retiredG c d (fun x => BitVec.ofNat 64 (mxScale t (x.rv a))) s)))
   ∧
   (∀ (c : CellId) (v : BitVec 4) (y : BitVec 2) (b : BitVec 5) (o : BitVec 12) (s : State), Ready c s →
      let n := cellNum c
      let x := cellOf s n
      let a := (x.rg b + BitVec.ofInt 64 (o.toInt * 32)).toNat
      let e := (x.rg b + BitVec.ofInt 64 (o.toInt * 64)).toNat
      (∀ l, Loadable s c a 32 l → exec (.vld c v b o) s = .next (retiredV c v (fun _ => BitVec.ofNat 256 (leNat (locRead s n l 32))) s))
      ∧ (∀ l, Loadable s c e 64 l →
          let bs := locRead s n l 64
          exec (.xld c y b o) s = .next (retired c (fun z => z.wx y
            ⟨BitVec.ofNat 320 (leNat (bs.take 40)), BitVec.ofNat 32 (leNat ((bs.drop 40).take 4)), BitVec.ofNat 5 (leNat ((bs.drop 44).take 1))⟩) s))
      ∧ (∀ (i : Instr) (ad : Nat) (bs : List Byte), (i, ad, bs) ∈ [
            (Instr.vst c v b o, a, leBytes 32 (x.rv v).toNat),
            (.xst c y b o, e, leBytes 40 (x.rx y).value.toNat ++ leBytes 4 (x.rx y).count.toNat ++ leBytes 1 (x.rx y).flags.toNat ++ List.replicate 19 0)] →
          ∀ l, Storable s c ad bs.length l →
            ∃ t, exec i s = .next t
              ∧ (∀ k, (h : k < bs.length) → locByte t n (ad + k) = some bs[k])
              ∧ (∀ j, j < ad ∨ ad + bs.length ≤ j → locByte t n j = locByte s n j)
              ∧ (∀ m, m ≠ n → cellOf t m = cellOf s m) ∧ (∀ k, k ≠ n / 32 → crewOf t k = crewOf s k)
              ∧ (cellOf t n).pc = x.pc + 4 ∧ (cellOf t n).g = x.g ∧ (cellOf t n).p = x.p ∧ (cellOf t n).v = x.v ∧ (cellOf t n).x = x.x
              ∧ { t with crw := s.crw } = s))

/-- R168, R193 and R198: a tag that an instruction does not accept, or a predicate where it takes none, raises ILLEGAL. -/
def Obligations.UnacceptedTagsRaiseIllegal : Prop :=
  ∀ (c : CellId) (vd a b t : BitVec 4) (q p : BitVec 3) (d : BitVec 5) (y : BitVec 2) (s : State), Ready c s →
    (∀ i ∈ [Instr.vadd c vd a b t p, .vsub c vd a b t p, .vmul c vd a b t p, .vfma c vd a b t p, .vmin c vd a b t p, .vmax c vd a b t p,
          .vabs c vd a t p, .vneg c vd a t p, .vceq c q a b t p, .vclt c q a b t p, .vcle c q a b t p, .vsel c vd a b t p,
          .vredsum c vd a t p, .vredmax c vd a t p, .vredmin c vd a t p],
        (tagF t || tagI t) = false → exec i s = .next (faulted c 0x01 (wordOf i) 0 0 s))
    ∧ (∀ i ∈ [Instr.vand c vd a b t p, .vor c vd a b t p, .vxor c vd a b t p, .vshl c vd a b t p, .vshr c vd a b t p, .vsra c vd a b t p,
          .vredor c vd a t p],
        tagI t = false → exec i s = .next (faulted c 0x01 (wordOf i) 0 0 s))
    ∧ (∀ i ∈ [Instr.vexp2 c vd a t p, .vlog2 c vd a t p, .vrcp c vd a t p, .vrsqrt c vd a t p, .vsqrt c vd a t p],
        tagFn t = false → exec i s = .next (faulted c 0x01 (wordOf i) 0 0 s))
    ∧ (∀ i ∈ [Instr.xadd c y a t p, .xsub c y a t p], tagX t = false → exec i s = .next (faulted c 0x01 (wordOf i) 0 0 s))
    ∧ (p ≠ 0 → exec (.vperm c vd a b p) s = .next (faulted c 0x01 (wordOf (.vperm c vd a b p)) 0 0 s))
    ∧ (tagSplat t = false → exec (.vsplat c vd d t) s = .next (faulted c 0x01 (wordOf (.vsplat c vd d t)) 0 0 s))
    ∧ (tagMX t = false → exec (.vmxexp c d a t) s = .next (faulted c 0x01 (wordOf (.vmxexp c d a t)) 0 0 s))
    ∧ (tagXrd t = false → exec (.xrd c d y t) s = .next (faulted c 0x01 (wordOf (.xrd c d y t)) 0 0 s))

/-- R209 to R212: xclr empties an accumulator; xadd and xsub add or subtract the governed elements exactly; xmrg merges; xflg reads COUNT and FLAGS; xrd rounds the value once, by the first row of Table 9.12 that applies, and a POISON flag raises POISON. -/
def Obligations.AccumulatorResults : Prop :=
  ∀ (c : CellId) (xd xs : BitVec 2) (a t : BitVec 4) (d : BitVec 5) (p : BitVec 3) (s : State), Ready c s →
    exec (.xclr c xd) s = .next (retired c (fun y => y.wx xd ⟨0, 0, 0⟩) s)
    ∧ (tagX t = true →
        exec (.xadd c xd a t p) s = .next (retired c (fun y => y.wx xd (accAddAll t (y.rp p) false (y.rv a) (y.rx xd))) s)
        ∧ exec (.xsub c xd a t p) s = .next (retired c (fun y => y.wx xd (accAddAll t (y.rp p) true (y.rv a) (y.rx xd))) s))
    ∧ exec (.xmrg c xd xs) s = .next (retired c (fun y => y.wx xd (accMerge (y.rx xd) (y.rx xs))) s)
    ∧ exec (.xflg c d xs) s = .next (retiredG c d (fun y => BitVec.ofNat 64 ((y.rx xs).count.toNat + (y.rx xs).flags.toNat * 2 ^ 32)) s)
    ∧ (∀ f : FF, tagXrd t = true → tagFF t = some f → ((cellOf s (cellNum c)).rx xs).has flPoison = false →
        exec (.xrd c d xs t) s = .next (retiredG c d (fun y => BitVec.ofNat 64 (f.round ((accValue (y.rx xs)).getD .nan))) s))
    ∧ (∀ f : FF, tagXrd t = true → tagFF t = some f → ((cellOf s (cellNum c)).rx xs).has flPoison = true →
        ∃ ad, exec (.xrd c d xs t) s = .next (faulted c 0x05 (wordOf (.xrd c d xs t)) ad 0 { s with freeIx := s.freeIx + 1 }))

/-- R210, R211 and Table 9.12: absorbing a finite addend adds it exactly to VALUE, an infinity or a NaN sets its flag and leaves VALUE; COUNT rises by one, saturating, and OVF is set past 2^31; a merge adds VALUE and COUNT and unites FLAGS; the readout is NaN for NAN or both infinities, then the infinities, then NaN for OVF, then VALUE times 2^-149. -/
def Obligations.AccumulatorAlgebra : Prop :=
  ∀ (a b : Accum) (neg : Bool) (m : Nat) (e : Int),
    let up (k : Nat) : Nat := min (a.count.toNat + k) (2 ^ 32 - 1)
    let sat (k : Nat) (fl : BitVec 5) : BitVec 5 := if 2 ^ 31 < up k then fl ||| flOvf else fl
    accAdd a (.fin neg m e) = ⟨a.value + BitVec.ofInt 320 ((if neg then -1 else 1) * ((m * 2 ^ (e + 149).toNat : Nat) : Int)), BitVec.ofNat 32 (up 1), sat 1 a.flags⟩
    ∧ accAdd a .nan = ⟨a.value, BitVec.ofNat 32 (up 1), sat 1 a.flags ||| flNan⟩
    ∧ accAdd a (.inf neg) = ⟨a.value, BitVec.ofNat 32 (up 1), sat 1 a.flags ||| (if neg then flNinf else flPinf)⟩
    ∧ accMerge a b = ⟨a.value + b.value, BitVec.ofNat 32 (up b.count.toNat), sat b.count.toNat (a.flags ||| b.flags)⟩
    ∧ (let has (x : BitVec 5) : Bool := a.flags &&& x != 0
       accValue a = if has flNan || (has flPinf && has flNinf) then some .nan
         else if has flPinf then some (.inf false) else if has flNinf then some (.inf true)
         else if has flOvf then none else some (.ofInt a.value.toInt (-149)))

/-! ### Encodings -/

/-- R167 and Tables 8.3 to 8.13, 9.5 to 9.9: every Burpor instruction has a word, and that word decodes to it, every operand at every value. -/
def Obligations.DecodeOfEncodedInstruction : Prop :=
  ∀ c cc d a b p q r i j u v w x t y z, ∀ k ∈ burporForms c cc d a b p q r i j u v w x t y z,
    ∃ e : BitVec 32, encodeBurpor k = some e ∧ decodeBurpor c e = some k

/-- R167 and R168: a word decodes to an instruction only if it is that instruction's own word: no bit of it is ignored. -/
def Obligations.EncodeOfDecodedWord : Prop :=
  ∀ (c : CellId) (e : BitVec 32) (k : Instr), decodeBurpor c e = some k → encodeBurpor k = some e

/-- Words written out from the spec's encodings, one of each format, and the instructions they are; a reserved major, and a set bit in a field that the instruction does not use, are none. -/
def Obligations.WordsOfTheEncodingTables : Prop :=
  ∀ c : CellId,
    decodeBurpor c (0b0000001#7 ++ 3#5 ++ 4#5 ++ 5#5 ++ 0x001#10) = some (.sub c 3 4 5)
    ∧ decodeBurpor c (0b0000100#7 ++ 1#5 ++ 2#5 ++ 0#3 ++ 0xFFF#12) = some (.addi c 1 2 0xFFF)
    ∧ decodeBurpor c (0b0001000#7 ++ 9#5 ++ 8#5 ++ 5#3 ++ 0x008#12) = some (.lhu c 9 8 8)
    ∧ decodeBurpor c (0b0001100#7 ++ 6#5 ++ 7#5 ++ 4#3 ++ 0x800#12) = some (.bltu c 6 7 0x800)
    ∧ decodeBurpor c (0b0010010#7 ++ 31#5 ++ 0x80001#20) = some (.jal c 31 0x80001)
    ∧ decodeBurpor c (0b1000001#7 ++ 3#4 ++ 1#4 ++ 3#4 ++ 0xC#4 ++ 2#3 ++ 0#6) = some (.vdot c 3 1 3 0xC 2)
    ∧ decodeBurpor c (0b1001010#7 ++ 7#5 ++ 0b00010#5 ++ 0#5 ++ 0x011#10) = some (.xflg c 7 2)
    ∧ decodeBurpor c (0b0000001#7 ++ 3#5 ++ 4#5 ++ 1#5 ++ 0x018#10) = none
    ∧ decodeBurpor c (0b1111111#7 ++ 0#25) = none

/-! ### Command queues and takes -/

/-- R33, R34, R35 and R36: the gaffer fetches from a queue that is enabled, not stopped, not empty, with room in its completion ring and the least start tag of the queues it could serve (a queue whose head waits with FENCE is none of them), a descriptor with FENCE only once nothing of the queue runs; the fetch moves HEAD on by one, charges the queue's turn, and leaves one more command running. R36 and Table 2.8: completing a command of the operator queue writes its 16 bytes at CQ_TAIL of the completion ring, which follows the submission ring, with the queue's PHASE; CQ_TAIL moves on, PHASE inverting at the wrap; the vector of GAF_CMDQ_CTL goes out exactly where COMPL_INT is set. -/
def Obligations.QueueFetchAndCompletion : Prop :=
   (∀ (d : Desc) (s s1 : State), Fetched .operator d s s1 →
      let x := s.gaf.opq
      x.enable = true ∧ x.stopped = false ∧ x.head % 2 ^ x.n ≠ x.tail % 2 ^ x.n ∧ x.posted + x.running < 2 ^ x.n
      ∧ (d.fence = true → x.running = 0)
      ∧ (∀ e ∈ s.gaf.cmdqs, fetchable e.2 = true → (e.2.running = 0 ∨ headFence s false e.2 = false) → x.vtag ≤ e.2.vtag)
      ∧ s1 = { s with gaf := { s.gaf with vtime := x.vtag, opq := { x with head := (x.head + 1) % 2 ^ x.n, running := x.running + 1, vtag := x.vtag + 1 } } })
   ∧
   (∀ (d : Desc) (status detail result : Nat) (s : State),
      let x := s.gaf.opq
      let t := completes .operator d status detail result s
      let a := x.base + 64 * 2 ^ x.n + 16 * x.cqTail
      readBytes t.gaf.window a 16 = leBytes 4 d.tag.toNat ++ leBytes 2 status ++ leBytes 2 (detail % 2 ^ 15 + if x.phase then 2 ^ 15 else 0) ++ leBytes 8 result
      ∧ (∀ j, j < a ∨ a + 16 ≤ j → byteAt t.gaf.window j = byteAt s.gaf.window j)
      ∧ t.gaf.opq = { x with cqTail := if x.cqTail + 1 = 2 ^ x.n then 0 else x.cqTail + 1
                             phase := if x.cqTail + 1 = 2 ^ x.n then !x.phase else x.phase
                             posted := x.posted + 1, running := x.running - 1 }
      ∧ t.fab.out = s.fab.out ++ (if d.complInt then [Out.vector (fld s .gafCmdqCtl 0 32 8)] else [])
      ∧ t.gaf.takes = s.gaf.takes ∧ t.pool = s.pool ∧ t.crw = s.crw ∧ t.kpr = s.kpr ∧ t.csr = s.csr ∧ t.mapReg = s.mapReg)

/-- R32, R37, R39, R334, R356, R445 and Table 14.6, in this order: a fetched command that lockdown or a halt bars completes with TAMPER_LOCK or INTERNAL_ERROR; one with a reserved header bit set, a take identifier it does not use, or STAGE on a command that cannot be staged, with BAD_FIELD; one its issuer may not send, with NOT_PERMITTED. It has no other effect. R37: a fetched descriptor with a reserved header bit set completes with BAD_FIELD, and so does one with TAKE_ID non-zero while STAGE is 0, except on the take commands; nothing changes but its take, which a staged command that fails fails (R42). Lockdown and the halts of R334 and R356 come first. -/
def Obligations.CommonChecksRefuseCommands : Prop :=
   (∀ (q : QId) (d : Desc) (s s1 : State) (i : Instr) (r : Rule) (after : State → State), Fetched q d s s1 →
      ((i, r) ∈ plainCommands q d ∧ after = id) ∨ ((i, r) ∈ movingCommands q d ∧ after = moved s) →
      let answer (st : Nat) : State := after (complete (crefOf q d s1) st 0 0 s1)
      let barred := (s1.kpr.lockdown || s1.gaf.bootHalt) && !r.inLock
      let halted := s1.gaf.errorHalt && !r.inHalt
      let ragged := d.rsv != 0 || d.stage || (d.takeId != 0 && !r.takeCmd)
      (barred = true → exec i s = .next (answer 0x0203))
      ∧ (barred = false → halted = true → exec i s = .next (answer 0x0701))
      ∧ (barred = false → halted = false → ragged = true → exec i s = .next (answer 0x0102))
      ∧ (barred = false → halted = false → ragged = false → foreign r q d s1 = true → exec i s = .next (answer 0x0201)))
   ∧
   (∀ (q : QId) (d : Desc) (s s1 : State), Fetched q d s s1 →
      let row : BoundaryCommand := ⟨.csrWrite q d, opSealedRule, false, fieldsCsrWrite s1 d, []⟩
      (∀ e, e ∈ plainCommands q d → haltCheck s1 e.2 = none → (d.rsv ≠ 0 ∨ d.takeId ≠ 0 ∧ d.stage = false ∧ e.2.takeCmd = false) →
          exec e.1 s = .next (complete (crefOf q d s1) 0x0102 0 0 s1))
      ∧ (∀ e, e ∈ movingCommands q d → haltCheck s1 e.2 = none → (d.rsv ≠ 0 ∨ d.takeId ≠ 0 ∧ d.stage = false ∧ e.2.takeCmd = false) →
          exec e.1 s = .next (moved s (complete (crefOf q d s1) 0x0102 0 0 s1)))
      ∧ (∀ b, b ∈ row :: boundaryCommands q d s1 → haltCheck s1 b.rule = none →
          (d.stage = false → (d.rsv ≠ 0 ∨ d.takeId ≠ 0) → exec b.cmd s = .next (moved s (complete (crefOf q d s1) 0x0102 0 0 s1)))
          ∧ (∀ k, d.stage = true → d.rsv ≠ 0 → takeOf s1 q d.takeId.toNat = some k → k.state = .open → k.cmds.length < 4096 →
              exec b.cmd s = .next (moved s (complete (crefOf q d s1) 0x0102 0 0
                (updTake d.takeId.toNat (fun y => { y with state := .failed, failed := k.cmds.length }) s1))))))

/-- A descriptor that its queue cannot give now leaves the state as it is, whatever its command (R33 to R35); one whose line of the ring an agent or a host must send first waits for it (the model's own, log entry 48). R31: a fetched descriptor with an opcode outside the command set completes with BAD_OPCODE and has no effect. An opcode of the command set is no such descriptor: nothing happens. R314: a queue that cannot read its ring gets ERROR and is served no more. -/
def Obligations.UnfetchedAndUnlistedCommands : Prop :=
   (∀ (q : QId) (d : Desc) (o : BitVec 16) (s : State), canFetch s q d.fence = false →
      (∀ e ∈ plainCommands q d, exec e.1 s = .next s)
      ∧ (∀ e ∈ movingCommands q d, exec e.1 s = .next (drain s))
      ∧ (∀ e ∈ boundaryCommands q d s, exec e.cmd s = .next (drain s))
      ∧ exec (.badOpcode o q d) s = .next s)
   ∧
   (∀ (o : BitVec 16) (q : QId) (d : Desc) (s s1 : State), o.toNat ∉ opcodes → Fetched q d s s1 → s1.kpr.lockdown = false → s1.gaf.bootHalt = false → s1.gaf.errorHalt = false →
      exec (.badOpcode o q d) s = .next (complete (crefOf q d s1) 0x0101 0 0 s1))
   ∧
   (∀ (o : BitVec 16) (q : QId) (d : Desc) (s : State), o.toNat ∈ opcodes → exec (.badOpcode o q d) s = .next s)
   ∧
   (∀ (o : BitVec 16) (q : QId) (d : Desc) (s : State), canFetch s q d.fence = true →
      let goes (t : State) : Prop :=
        (∀ e ∈ plainCommands q d, exec e.1 s = .next t)
        ∧ (∀ e ∈ movingCommands q d, exec e.1 s = .next (moved s t))
        ∧ (∀ e ∈ boundaryCommands q d s, exec e.cmd s = .next (moved s t))
        ∧ (o.toNat ∉ opcodes → exec (.badOpcode o q d) s = .next t)
      (ringWaits q s = false → (fetchOk q s).1 = false → goes (queueError q (fetchOk q s).2))
      ∧ (ringWaits q s = true → goes { s with coh := { s.coh with need := (fetchOk q s).2.coh.need } }))

/-- R33: a doorbell with a TAIL that the ring's unfetched part admits makes the descriptors up to it due; any other sets ERROR and stops the queue. R36: CQ_HEAD frees the entries up to it. R33 and R451: disabling discards what was not fetched; enabling a tent queue starts it. -/
def Obligations.DoorbellAndEnableResults : Prop :=
  ∀ (q : QId) (v : BitVec 64) (x : CmdQueue) (s : State), getQ s q = some x →
    (v.toNat < 2 ^ x.n → v.toNat < 65536 → (x.tail + 2 ^ x.n - x.head) % 2 ^ x.n ≤ (v.toNat + 2 ^ x.n - x.head) % 2 ^ x.n →
        exec (.cmdqDoorbell q v) s = .next (updQ q (fun y =>
          { y with tail := v.toNat, lastTail := v.toNat, vtag := if backlog y = 0 then s.gaf.vtime else y.vtag }) s))
    ∧ (v.toNat < 65536 → ¬(v.toNat < 2 ^ x.n ∧ (x.tail + 2 ^ x.n - x.head) % 2 ^ x.n ≤ (v.toNat + 2 ^ x.n - x.head) % 2 ^ x.n) →
        exec (.cmdqDoorbell q v) s = .next (queueError q (updQ q (fun y => { y with lastTail := v.toNat }) s)))
    ∧ (v.toNat < 2 ^ x.n → v.toNat < 65536 → (v.toNat + 2 ^ x.n - x.cqHead) % 2 ^ x.n ≤ x.posted →
        exec (.cqHeadWrite q v) s = .next (updQ q (fun y =>
          { y with cqHead := v.toNat, posted := y.posted - (v.toNat + 2 ^ x.n - x.cqHead) % 2 ^ x.n }) s))
    ∧ (∀ t k, q = .tent t k → x.enable = false →
        exec (.cmdqEnable q) s = .next (updQ q (fun y => { y with enable := true, stopped := false }) s))
    ∧ (∀ t k, q = .tent t k →
        exec (.cmdqDisable q) s = .next (updQ q (fun y => { y with enable := false, tail := y.head }) s))
    ∧ (q = .operator → exec (.cmdqDisable q) s = .next (setFld .gafCmdqCtl 0 0 1 0
          (updQ q (fun y => { y with enable := false, tail := y.head }) s)))

/-- R41 to R45: beginning a take, with an identifier that no take has and a lease of LEASE_MS or 10,000 ms; asking its state; rolling it back; and the end of its lease, which is logged. R44 and R42: TAKE.COMMIT of a failed take answers TAKE_FAILED with the index it recorded, and the take is gone; of a committing one, TAKE_STATE; of one that the issuer does not hold, NOT_FOUND. -/
def Obligations.TakeLifeCycle : Prop :=
   (∀ (q : QId) (d : Desc) (s s1 : State),
      (∀ ms, Runs takeRule q d s s1 → onlyFields d [(16, 0, 32)] = true → ms = opf d 16 0 32 → ms ≤ 60000 → s1.gaf.takes.length < 16 →
          (∃ j, 1 ≤ j ∧ j < 2 ^ 32 ∧ has s1.gaf.takes j = false) →
          ∃ j now, 1 ≤ j ∧ j < 2 ^ 32 ∧ has s1.gaf.takes j = false ∧ s1.now ≤ now
            ∧ exec (.takeBegin q d) s = .next (complete (crefOf q d s1) 0 0 j { s1 with
                freeIx := s1.freeIx + 2, now := now
                gaf := { s1.gaf with takes := put s1.gaf.takes j ⟨issuer q, .open, [], 0, now + (if ms = 0 then 10000 else ms) * 1000000, 0⟩ } }))
      ∧ (∀ k, Runs takeRule q d s s1 → d.ops = 0 → takeOf s1 q d.takeId.toNat = some k → k.state ≠ .committing →
          exec (.takeRollback q d) s = .next (complete (crefOf q d s1) 0 0 (k.cmds.length % 65536) { s1 with gaf := { s1.gaf with takes := del s1.gaf.takes d.takeId.toNat } }))
      ∧ (∀ k, Runs takeRule q d s s1 → d.ops = 0 → takeOf s1 q d.takeId.toNat = some k → k.state = .open →
          ∃ left now, 1 ≤ left ∧ s1.now ≤ now ∧ exec (.takeQuery q d) s = .next (complete (crefOf q d s1) 0 0 (place left 32 32 ||| place k.cmds.length 16 16) { s1 with freeIx := s1.freeIx + 1, now := now }))
      ∧ (∀ (id : BitVec 32) k, find s.gaf.takes id.toNat = some k → k.state ≠ .committing →
          exec (.takeLeaseExpiry id) s = .next (attn 3 (ras 0x0E 0 k.owner (selfNode s) 0 id.toNat
            { s with now := max s.now k.deadline, gaf := { s.gaf with takes := del s.gaf.takes id.toNat } }))))
   ∧
   (∀ (q : QId) (d : Desc) (s s1 : State), Runs takeRule q d s s1 → onlyFields d [(16, 0, 32)] = true →
      let id := d.takeId.toNat
      (takeOf s1 q id = none → exec (.takeCommit q d) s = .next (moved s (complete (crefOf q d s1) 0x0301 0 0 s1)))
      ∧ (∀ k, takeOf s1 q id = some k → k.state = .failed →
          exec (.takeCommit q d) s = .next (moved s (complete (crefOf q d s1) 0x0402 k.failed 0 { s1 with gaf := { s1.gaf with takes := del s1.gaf.takes id } })))
      ∧ (∀ k, takeOf s1 q id = some k → k.state = .committing → exec (.takeCommit q d) s = .next (moved s (complete (crefOf q d s1) 0x0401 0 0 s1))))

/-- R39, R41 and R42: a command of Table 2.11 with STAGE 1 and no fault joins the end of its issuer's open take and answers STAGED; with a fault it fails the take, which records the stage index. R39 and Table 2.11: a command that must be staged, sent with STAGE 0, answers BAD_FIELD. -/
def Obligations.StagingACommand : Prop :=
   (∀ (q : QId) (d : Desc) (s s1 : State) (b : BoundaryCommand) (k : Take), Fetched q d s s1 → b ∈ boundaryCommands q d s1 → d.stage = true →
      haltCheck s1 b.rule = none → takeOf s1 q d.takeId.toNat = some k → k.state = .open → k.cmds.length < 4096 →
      let id := d.takeId.toNat
      (Served b.rule q d s1 → b.fields = none →
          exec b.cmd s = .next (moved s (complete (crefOf q d s1) 0x0001 0 0 (updTake id (fun y => { y with cmds := y.cmds ++ [⟨b.cmd, b.copied⟩] }) s1))))
      ∧ (∀ st, Served b.rule q d s1 → b.fields = some st →
          exec b.cmd s = .next (moved s (complete (crefOf q d s1) st 0 0 (updTake id (fun y => { y with state := .failed, failed := k.cmds.length }) s1)))))
   ∧
   (∀ (q : QId) (d : Desc) (s s1 : State) (b : BoundaryCommand), Fetched q d s s1 → b ∈ boundaryCommands q d s1 → haltCheck s1 b.rule = none →
      d.stage = false → b.mustStage = true → exec b.cmd s = .next (moved s (complete (crefOf q d s1) 0x0102 0 0 s1)))

/-- R46 to R49: at the epoch boundary the map is the state after the take's commands, the epoch rises by one, past 0xFFFF_FFFF to 1, the old map stays for requests of the old epoch, for at most 2 ms, and boot stage 6 becomes 7; a path group to which a node's path moves is held (R77); shapers that the take wrote start; tents in CLEARING with nothing left to clear end, and slots without a holder become free. Stated where no coherence agent and no coherent region stands, so that no flush of R118 begins. -/
def Obligations.EpochBoundaryResult : Prop :=
  ∀ (C : Commit) (s s2 : State), (∀ a, a < 32 → agValid (mapVal s .cohAgent a) = false) → (∀ e ∈ s2.pool.regions, e.2.coherent = false) →
    let t := boundary C s s2
    t.gaf.epoch = (if s.gaf.epoch = BitVec.allOnes 32 then 1 else s.gaf.epoch + 1)
    ∧ (∃ now, s2.now ≤ now ∧ t.qm = (startShapers now s2).qm ∧ t.gaf.oldMap = some
        { epoch := s.gaf.epoch.toNat, deadline := now + 2000000, drain := C.drain, self := s.fab.self, nodes := s.fab.nodes, attach := s.fab.attach
          tables := s.gth.tables, caches := s.gth.caches, views := s.gth.views })
    ∧ (∀ e ∈ s2.fab.nodes, (∃ o ∈ s.fab.nodes, o.2.lo ≤ e.2.hi ∧ e.2.lo ≤ o.2.hi ∧ o.2.ports ≠ e.2.ports) → ∃ h ∈ t.fab.holds, h.ports = e.2.ports)
    ∧ t.gaf.stage = (if s2.gaf.stage = 6 then 7 else s2.gaf.stage)
    ∧ t.gaf.takes = s2.gaf.takes ∧ t.fab.nodes = s2.fab.nodes ∧ t.fab.gate = s2.fab.gate ∧ t.fab.attach = s2.fab.attach ∧ t.fab.self = s2.fab.self
    ∧ t.mapReg = s2.mapReg ∧ t.pool = s2.pool ∧ t.kpr = (endTents s2).kpr ∧ t.crw = (claimsMade s2).crw

/-! ### Commands of the gaffer -/

/-- Table 2.10 and R359: STATUS answers the boot stage, the tamper lock and the epoch; FEATURE.QUERY the fused features; IDENTIFY writes the identity page where it is asked to, and LOG.READ the entries of a log from FIRST_SEQ on, as many as COUNT, with the next sequence. R333: DEBUG.CONSENT with a valid token notes its serial and opens consent for DURATION seconds, and one with another token answers NOT_PERMITTED and is counted; DEBUG.REVOKE ends it, and so does its expiry, which is counted. -/
def Obligations.QueryAndConsentResults : Prop :=
   (∀ (q : QId) (d : Desc) (s s1 : State),
      (Runs { any := true, inLock := true, inHalt := true, sealedOk := true } q d s s1 → d.ops = 0 →
          exec (.status q d) s = .next (complete (crefOf q d s1) 0 0
            (place s1.gaf.stage 0 4 ||| place (if s1.kpr.lockdown then 1 else 0) 4 1 ||| place s1.gaf.epoch.toNat 32 32) s1))
      ∧ (Runs anySealedRule q d s s1 → d.ops = 0 → exec (.featureQuery q d) s = .next (complete (crefOf q d s1) 0 0 Config.fuseFeatures.toNat s1))
      ∧ (∀ a, q = .operator → Runs anyRule q d s s1 → onlyFields d [(16, 0, 64)] = true → opf d 16 0 64 = a → a + 4096 ≤ 0x10000000 →
          exec (.identify q d) s = .next (complete (crefOf q d s1) 0 0 0 { s1 with gaf := { s1.gaf with window := writeBytes s1.gaf.window a identityPage } }))
      ∧ (∀ t k a s2, q = .tent t k → Runs anyRule q d s s1 → onlyFields d [(16, 0, 64)] = true → opf d 16 0 64 = a → ringOwned s1 t.toNat a 4096 = true →
          engWriteS (((getQ s1 q).map (·.source)).getD 0) t.toNat a identityPage s1 = (true, s2) →
          exec (.identify q d) s = .next (complete (crefOf q d s1) 0 0 0 s2))
      ∧ (∀ a n first, Runs { any := false, inHalt := true } q d s s1 → fieldsLogRead d = none → opf d 16 0 8 = 0 →
          opf d 24 0 64 = a → opf d 20 0 32 = n → opf d 32 0 64 = first →
          let xs := (s1.kpr.ras.filter fun e => first ≤ e.seq).take n
          let next := match xs.getLast? with | some e => e.seq + 1 | none => first
          exec (.logRead q d) s = .next (complete (crefOf q d s1) 0 0 (place next 32 32 ||| xs.length)
            { s1 with gaf := { s1.gaf with window := writeBytes s1.gaf.window a (xs.map rasBytes).flatten } })))
   ∧
   ((∀ (q : QId) (d : Desc) (s s1 : State) (x : Tent) (bs : List Byte) (s2 : State), Runs anySealedRule q d s s1 → fieldsConsent q d = none →
        tokenBytes q (opf d 16 0 64) s1 = (some bs, s2) → tent s2 d.tent.toNat = some x → x.state = .active → x.consent = none →
        let f (o n : Nat) : Nat := leNat ((bs.drop o).take n)
        ∃ now, s2.now ≤ now ∧ exec (.debugConsent q d) s = .next (
          if tokenValid d.tent.toNat x bs then complete (crefOf q d s1) 0 0 0 (bump .kprConsentStats 0 16 16 1
            (updTent d.tent.toNat (fun y => { y with serial := f 8 8, consent := some (now + f 16 4 * 1000000000, bits (f 5 1) 0 2, f 8 8) })
              { s2 with freeIx := s2.freeIx + 1, now := now }))
          else complete (crefOf q d s1) 0x0201 0 0 (bump .kprConsentStats 0 48 16 1 s2)))
    ∧ (∀ (q : QId) (d : Desc) (s s1 : State) (x : Tent), Runs anySealedRule q d s s1 → d.ops = 0 → tent s1 d.tent.toNat = some x → x.consent.isSome = true →
        exec (.debugRevoke q d) s = .next (complete (crefOf q d s1) 0 0 0 (updTent d.tent.toNat (fun y => { y with consent := none }) s1)))
    ∧ (∀ (t : BitVec 7) (x : Tent) (dl r1 r2 : Nat) (s : State), tent s t.toNat = some x → x.consent = some (dl, r1, r2) →
        exec (.consentExpiry t) s = .next (bump .kprConsentStats 0 0 16 1
          (clockTo dl (updTent t.toNat (fun y => { y with consent := none }) s)))))

/-- R437, R438 and Table 19.2: CSR.READ of an assigned register that no fuse makes absent and whose domain runs answers its value and clears what a read clears; CSR.WRITE of a direct register writes the masked fields, as its access codes say, and answers the register; of a map register it applies at the epoch boundary. -/
def Obligations.CsrCommandResults : Prop :=
  ∀ (q : QId) (d : Desc) (s s1 : State) (r : Reg) (i : Nat), regAt (opf d 16 0 24) = some (r, i) →
    (Runs { any := false, inHalt := true, sealedOk := true } q d s s1 → onlyFields d [(16, 0, 24)] = true → opf d 16 0 24 % 8 = 0 → regAbsent r = false → regOff s1 r i = false →
        let v := (valueOf r i s1).1
        exec (.csrRead q d) s = .next (complete (crefOf q d s1) 0 0 v (clearRc r i (2 ^ 64 - 1) (valueOf r i s1).2)))
    ∧ (Runs opSealedRule q d s s1 → fieldsCsrWrite s1 d = none → r.isMap = false → r ∉ [.gafCmdqCtl, .gafCmdqDoorbell, .gafCmdqStatus, .gafCmdqCqHead, .rstCtl, .rstWdogCtl, .pwrSleepCtl, .tryNbuCtl] →
        opf d 32 0 64 ≠ 0 → s1.chip.inReset = false →
        let s2 := writeStored r i (opf d 24 0 64) (opf d 32 0 64) s1
        exec (.csrWrite q d) s = .next (moved s (complete (crefOf q d s1) 0 0 (valueOf r i s2).1 (valueOf r i s2).2)))
    ∧ (∀ s0 s2 r', Runs opSealedRule q d s s1 → fieldsCsrWrite s1 d = none → r.isMap = true → s0 = pushCommit (soloCommit q d (.csrWrite q d) [] s1) s1 →
        CommitReady (soloCommit q d (.csrWrite q d) [] s1) s0 → wholeFault [⟨.csrWrite q d, []⟩] s0 s2 = none →
        applyMapValue r i (clampMap r (maskedWrite r (mapVal s0 r i) (opf d 24 0 64) (opf d 32 0 64))) s0 = .ok (s2, r') →
        exec (.csrWrite q d) s = .next (moved s (doneAlone q d (.csrWrite q d) s0 s2 r')))

/-- R53, R54 and R454: CLAP.ALLOC gives a free clapper of the issuer with VALUE; on a clapper that the queue may act on, CLAP.FREE ends it and its waits, CLAP.SET and CLAP.ADD answer the counter after, CLAP.READ the counter and the overflow flag, and CLAP.WAIT answers at once where the threshold is reached and is armed otherwise. R54: a wait that has fired posts its completion with the value that met it; one that has not ends with TIMEOUT at its deadline. R454 and Table 2.20: a clapper that does not exist, or another owner's, is NOT_FOUND to the queue. -/
def Obligations.ClapperCommandResults : Prop :=
   (∀ (q : QId) (d : Desc) (s s1 : State), Runs anySealedRule q d s s1 →
      let n := opf d 16 0 17
      let v := opf d 24 0 64
      (fieldsClapAlloc q d = none → s1.gaf.clappers.length < 131072 → (∃ k, k < 131072 ∧ has s1.gaf.clappers k = false) →
          ∃ k, k < 131072 ∧ has s1.gaf.clappers k = false
            ∧ exec (.clapAlloc q d) s = .next (complete (crefOf q d s1) 0 0 k { s1 with
                freeIx := s1.freeIx + 1, gaf := { s1.gaf with clappers := put s1.gaf.clappers k ⟨issuer q, BitVec.ofNat 64 v, false⟩ } }))
      ∧ (clapAct s1 q d n = none →
          (onlyFields d [(16, 0, 17)] = true →
            exec (.clapFree q d) s = .next (complete (crefOf q d s1) 0 0 0 (freeClap n s1))
            ∧ ∀ c, clapper s1 n = some c → exec (.clapRead q d) s = .next (complete (crefOf q d s1) 0 (if c.ovf then 1 else 0) c.ctr.toNat s1))
          ∧ (onlyFields d [(16, 0, 17), (24, 0, 64)] = true →
            exec (.clapSet q d) s = .next (complete (crefOf q d s1) 0 0 (counter (clapSet n (BitVec.ofNat 64 v) s1) n) (clapSet n (BitVec.ofNat 64 v) s1))
            ∧ exec (.clapAdd q d) s = .next (complete (crefOf q d s1) 0 0 (counter (clapAdd n v s1) n) (clapAdd n v s1)))
          ∧ (onlyFields d [(16, 0, 17), (20, 0, 32), (24, 0, 64)] = true →
            (v ≤ counter s1 n → exec (.clapWait q d) s = .next (complete (crefOf q d s1) 0 0 (counter s1 n) s1))
            ∧ ∀ k, counter s1 n < v → firstFree s1.gaf.waits 0 262144 = some k →
                ∃ now, s1.now ≤ now ∧ exec (.clapWait q d) s = .next { s1 with
                  freeIx := s1.freeIx + 1, now := now
                  gaf := { s1.gaf with waits := (put s1.gaf.waits k
                      ⟨n, BitVec.ofNat 64 v, if opf d 20 0 32 = 0 then none else some (now + opf d 20 0 32 * 1000), (crefOf q d s1)⟩) } })))
   ∧
   ((∀ (k : BitVec 18) (w : Wait) (v : U64) (s : State), find s.gaf.waits k.toNat = some w → find s.gaf.fired k.toNat = some v →
        exec (.clapWaitFired k) s = .next (complete w.who 0 0 v.toNat
          { s with gaf := { s.gaf with waits := del s.gaf.waits k.toNat, fired := del s.gaf.fired k.toNat } }))
    ∧ (∀ (k : BitVec 18) (w : Wait) (t : Nat) (s : State), find s.gaf.waits k.toNat = some w → has s.gaf.fired k.toNat = false → w.deadline = some t →
        exec (.clapWaitTimeout k) s = .next (complete w.who 0x0601 0 (counter s w.clapper)
          { s with now := max s.now t, gaf := { s.gaf with waits := del s.gaf.waits k.toNat, fired := del s.gaf.fired k.toNat } }))
    ∧ (∀ (q : QId) (d : Desc) (s s1 : State), Runs anySealedRule q d s s1 → clapper s1 (opf d 16 0 17) = none → onlyFields d [(16, 0, 17)] = true →
        exec (.clapRead q d) s = .next (complete (crefOf q d s1) 0x0301 0 0 s1) ∧ exec (.clapFree q d) s = .next (complete (crefOf q d s1) 0x0301 0 0 s1)))

/-- R88, R90, R92, R93 and R95: REEL.OPEN gives a reader a handle on the current reel, or a writer a handle and a head; REEL.COMMIT makes the head the current reel; REEL.CLOSE gives the handle back, with the tiles freed as RESULT. R93: at the commit point of a region without REOPEN the head becomes the current reel, numbered one on (past 0xFFFF_FFFF to 1), and the region has no writer. R92 and R94, Table 4.7: a write open that waits gets its head once fewer than eight reels live, and a commit with REOPEN that waits is performed; each ends with TIMEOUT at its deadline. -/
def Obligations.ReelResults : Prop :=
   (∀ (q : QId) (d : Desc) (s s1 : State) (k : Nat) (r : Region),
      (Runs anyRule q d s s1 → fieldsReelOpen d = none → opf d 16 0 18 = k → region s1 k = some r → r.owner = d.tent.toNat → r.coherent = false →
        (∃ h, h < 65536 ∧ has s1.pool.handles h = false) → s1.pool.handles.length < 65536 →
        (opf d 20 0 1 = 0 →
          (∃ e ∈ s1.fab.gate, e.2.edge = false ∧ e.2.source = opf d 22 0 14 ∧ e.2.tent = d.tent.toNat ∧ e.2.rd = true ∧ covers e.2.base e.2.size r.base r.size = true) →
          (∀ g ∈ s1.kpr.guys, ¬(g.1 = k ∧ g.2.secondary = true ∧ g.2.state = .syncing)) → readEntry s1 k (opf d 22 0 14) = none →
          ∃ h, h < 65536 ∧ has s1.pool.handles h = false ∧ exec (.reelOpen q d) s = .next (complete (crefOf q d s1) 0 0 (place r.current 32 32 ||| h) { s1 with
            freeIx := s1.freeIx + 1, pool := { s1.pool with handles := put s1.pool.handles h ⟨k, d.tent.toNat, false, opf d 22 0 14, r.current⟩ } }))
        ∧ (opf d 20 0 1 = 1 → opf d 28 0 18 ≤ s1.pool.free0 → (∀ g ∈ s1.kpr.guys, ¬(g.1 = k ∧ g.2.secondary = true)) →
            r.writer = none → r.waiting = none → r.conv = none → r.reels.length < 8 →
          ∃ h, h < 65536 ∧ has s1.pool.handles h = false ∧ exec (.reelOpen q d) s = .next (complete (crefOf q d s1) 0 0 (place r.current 32 32 ||| h)
            (updRegion k (fun r => { r with
                writer := some { handle := h, head := currentView r, reserve := opf d 28 0 18, left := opf d 28 0 18, onLimit := opf d 20 1 1 = 1, timeout := opf d 24 0 32, commitWait := none }, waiting := none })
              { s1 with freeIx := s1.freeIx + 1, pool := { s1.pool with
                  free0 := s1.pool.free0 - opf d 28 0 18, handles := put s1.pool.handles h ⟨k, d.tent.toNat, true, 0, r.current⟩ } }))))
      ∧ (∀ h x w, Runs anyRule q d s s1 → onlyFields d [(16, 0, 16), (18, 0, 1)] = true → opf d 16 0 16 = h → find s1.pool.handles h = some x →
          issuer q = some x.tent → x.writer = true → x.region = k → region s1 k = some r → r.writer = some w → w.commitWait = none → opf d 18 0 1 = 0 →
          guyCommit k (crefOf q d s1) (nextReel r.current) (commitHead k false s1) = none →
          exec (.reelCommit q d) s = .next (moved s (complete (crefOf q d s1) 0 0 (place (nextReel r.current) 32 32) (commitHead k false s1))))
      ∧ (∀ h x, Runs anySealedRule q d s s1 → onlyFields d [(16, 0, 16)] = true → opf d 16 0 16 = h → find s1.pool.handles h = some x → x.tent = d.tent.toNat →
          (x.writer = false → exec (.reelClose q d) s = .next (moved s (complete (crefOf q d s1) 0 0 (closeReader h x s1).1 (closeReader h x s1).2)))
          ∧ (∀ w, x.writer = true → region s1 x.region = some r → r.writer = some w → w.commitWait = none →
              exec (.reelClose q d) s = .next (moved s (complete (crefOf q d s1) 0 0 (discardHead x.region s1).1 (discardHead x.region s1).2)))))
   ∧
   (∀ (k : Nat) (r : Region) (w : Writer) (s : State), region s k = some r → r.writer = some w →
      ∃ r', region (commitHead k false s) k = some r' ∧ r'.current = (if r.current = 0xFFFFFFFF then 1 else r.current + 1) ∧ r'.writer = none
        ∧ (⟨r'.current, w.head⟩ : Reel) ∈ r'.reels ∧ r'.owner = r.owner ∧ r'.base = r.base ∧ r'.size = r.size)
   ∧
   (∀ (k : BitVec 18) (r : Region) (s : State), region s k.toNat = some r →
      (∀ w, r.waiting = some w → liveCount r < 8 →
        exec (.reelOpenWaitEnd k) s = .next (complete w.cref 0 0 (place r.current 32 32 ||| w.handle)
          (updRegion k.toNat (fun r => { r with writer := some { handle := w.handle, head := currentView r, reserve := w.reserve, left := w.reserve, onLimit := true, timeout := w.timeout, commitWait := none }, waiting := none }) s)))
      ∧ (∀ w t, r.waiting = some w → w.deadline = some t →
        exec (.reelOpenTimeout k) s = .next (dropOpenWait k.toNat 0x0601 { s with now := max s.now t }))
      ∧ (∀ w dl c, r.writer = some w → w.commitWait = some (dl, c) → liveAfterReopen s k.toNat r ≤ 8 →
        guyCommit k.toNat c (nextReel r.current) (commitHead k.toNat true s) = none →
        exec (.reelCommitWaitEnd k) s = .next (moved s (complete c 0 0 (place (nextReel r.current) 32 32) (commitHead k.toNat true s))))
      ∧ (∀ w t c, r.writer = some w → w.commitWait = some (some t, c) →
        exec (.reelCommitTimeout k) s = .next (complete c 0x0601 0 0
          (updRegion k.toNat (fun r => { r with writer := r.writer.map fun w => { w with commitWait := none } }) { s with now := max s.now t }))))

/-- R321, R449 and Table 2.18, issued alone: RNG.ADD puts an entry in a free index of the range gate, for an active tent (listed, if sealed), where no entry of its source and tent (or source and target, for an edge entry) overlaps it and, for a pool entry, no other tent's region does; RNG.REMOVE and RNG.MODIFY take it out and change its rights. R63, R77, R363, Tables 3.3 and 14.6, issued alone: ROUTE.SET writes a NODE, DECODER, ATTACH or SELF entry, and ROUTE.CLEAR takes one out; PORT.ENABLE sets a port's ENABLE. -/
def Obligations.GateAndRouteCommandResults : Prop :=
   (∀ (q : QId) (d : Desc) (s s0 : State),
      let i := opf d 16 0 14
      let e : RngEntry := ⟨opf d 18 0 14, d.tent.toNat, opf d 20 3 1 = 1, opf d 22 0 14, opf d 20 2 1 = 1, opf d 20 1 1 = 1, opf d 20 0 1 = 1, opf d 24 0 64, opf d 32 0 64⟩
      (∀ t, stageRngAdd d = none → tent s0 d.tent.toNat = some t → t.state = .active → (t.isSealed = true → listed t e.source = true) → has s0.fab.gate i = false →
        (e.edge = true → (edgePortOf s0 e.target).isSome = true ∧
          ∀ x ∈ s0.fab.gate, ¬(x.2.edge = true ∧ x.2.source = e.source ∧ x.2.target = e.target ∧ overlaps x.2.base x.2.size e.base e.size = true)) →
        (e.edge = false → (∀ x ∈ s0.fab.gate, ¬(x.2.edge = false ∧ x.2.source = e.source ∧ x.2.tent = e.tent ∧ overlaps x.2.base x.2.size e.base e.size = true)) ∧
          ∀ r ∈ s0.pool.regions, r.2.owner = e.tent ∨ overlaps r.2.base r.2.size e.base e.size = false) →
        let s2 := { s0 with fab := { s0.fab with gate := put s0.fab.gate i e } }
        AppliesAlone opRule q d (.rngAdd q d) s s0 s2 → exec (.rngAdd q d) s = .next (moved s (doneAlone q d (.rngAdd q d) s0 s2)))
      ∧ (∀ x, onlyFields d [(16, 0, 14)] = true → find s0.fab.gate i = some x → x.tent = d.tent.toNat →
        let s2 := { s0 with fab := { s0.fab with gate := del s0.fab.gate i } }
        AppliesAlone opRule q d (.rngRemove q d) s s0 s2 → exec (.rngRemove q d) s = .next (moved s (doneAlone q d (.rngRemove q d) s0 s2)))
      ∧ (∀ x, onlyFields d [(16, 0, 14), (20, 0, 3)] = true → find s0.fab.gate i = some x → x.tent = d.tent.toNat →
        let s2 := { s0 with fab := { s0.fab with gate := put s0.fab.gate i { x with eng := opf d 20 2 1 = 1, wr := opf d 20 1 1 = 1, rd := opf d 20 0 1 = 1 } } }
        AppliesAlone opRule q d (.rngModify q d) s s0 s2 → exec (.rngModify q d) s = .next (moved s (doneAlone q d (.rngModify q d) s0 s2))))
   ∧
   (∀ (q : QId) (d : Desc) (s s0 : State),
      let kind := opf d 16 0 8
      let p := opf d 17 0 5
      let i := opf d 18 0 12
      let node := opf d 20 0 14
      (∀ s2, stageRouteSet d = none → ¬(kind = 2 ∧ sealedPort s0 p = true) →
        s2 = (if kind = 0 then { s0 with fab := { s0.fab with nodes := put s0.fab.nodes i ⟨node, opf d 22 0 14, opf d 24 0 20⟩ } }
              else if kind = 1 then { s0 with fab := { s0.fab with decoders := put s0.fab.decoders (p * 16 + i) ⟨node, opf d 32 0 64, opf d 40 0 64, opf d 48 0 64⟩ } }
              else if kind = 2 then { s0 with fab := { s0.fab with attach := put s0.fab.attach p node } }
              else { s0 with fab := { s0.fab with self := some node } }) →
        AppliesAlone opRule q d (.routeSet q d) s s0 s2 → exec (.routeSet q d) s = .next (moved s (doneAlone q d (.routeSet q d) s0 s2)))
      ∧ (∀ s2, stageRouteClear d = none → ¬(kind = 2 ∧ sealedPort s0 p = true) →
        ((kind = 0 ∧ has s0.fab.nodes i = true ∧ s2 = { s0 with fab := { s0.fab with nodes := del s0.fab.nodes i } })
          ∨ (kind = 1 ∧ has s0.fab.decoders (p * 16 + i) = true ∧ s2 = { s0 with fab := { s0.fab with decoders := del s0.fab.decoders (p * 16 + i) } })
          ∨ (kind = 2 ∧ has s0.fab.attach p = true ∧ s2 = { s0 with fab := { s0.fab with attach := del s0.fab.attach p } })
          ∨ (kind = 3 ∧ s0.fab.self.isSome = true ∧ s2 = { s0 with fab := { s0.fab with self := none } })) →
        AppliesAlone opRule q d (.routeClear q d) s s0 s2 → exec (.routeClear q d) s = .next (moved s (doneAlone q d (.routeClear q d) s0 s2)))
      ∧ (stagePortEnable d = none → pdOff s0 (pdFabric (opf d 16 0 5)) = false →
        let s2 := updPort (opf d 16 0 5) (fun x => { x with enable := opf d 17 0 1 = 1 }) s0
        AppliesAlone opRule q d (.portEnable q d) s s0 s2 → exec (.portEnable q d) s = .next (moved s (doneAlone q d (.portEnable q d) s0 s2))))

/-- R86, R87, R52 and R124: REGION.CREATE, issued alone, takes its tiles from its tier and makes an empty reel 1 under the tent's settings and key slot; REGION.SET_OWNER hands a region over and takes the old owner's pool entries on it out of the range gate; REGION.RELEASE ends a region that nothing uses, and its replica set. R153 and R154, issued alone: CMP.SET_REGION takes the tiles of the header chunks and begins the conversion; RESULT is the number of tiles to convert. Turning compression on answers FEATURE_DISABLED where the fuse of the feature is set (R445). -/
def Obligations.RegionCommandResults : Prop :=
   (∀ (q : QId) (d : Desc) (s s0 : State),
      let k := opf d 16 0 18
      (∀ t, stageRegionCreate d = none → opf d 20 0 2 = 0 → has s0.pool.regions k = false →
        (∀ e ∈ s0.pool.regions, overlaps e.2.base e.2.size (opf d 24 0 64) (opf d 32 0 64) = false) → tent s0 d.tent.toNat = some t →
        opf d 32 0 64 / tileBytes ≤ s0.pool.free0 → stackRoom s0 t.span t.stackSel (opf d 32 0 64 / tileBytes) = true →
        let s2 := { s0 with pool := { s0.pool with
          nextExt := s0.pool.nextExt + 1, free0 := s0.pool.free0 - opf d 32 0 64 / tileBytes
          regions := put s0.pool.regions k (newRegion t d.tent.toNat (opf d 24 0 64) (opf d 32 0 64) s0.pool.nextExt [⟨0, opf d 32 0 64 / tileBytes, 0, []⟩] none none) } }
        AppliesAlone opRule q d (.regionCreate q d) s s0 s2 → exec (.regionCreate q d) s = .next (moved s (doneAlone q d (.regionCreate q d) s0 s2)))
      ∧ (∀ t runs last s1, stageRegionCreate d = none → (opf d 20 0 2 = 1 ∨ opf d 20 0 2 = 2) → has s0.pool.regions k = false →
        (∀ e ∈ s0.pool.regions, overlaps e.2.base e.2.size (opf d 24 0 64) (opf d 32 0 64) = false) → tent s0 d.tent.toNat = some t →
        allocLower (tagOf t.slot false) (opf d 20 0 2) (k % 8) 0 (opf d 32 0 64 / tileBytes) { s0 with pool := { s0.pool with nextExt := s0.pool.nextExt + 1 } } = some (runs, last, s1) →
        let s2 := { s1 with pool := { s1.pool with
          regions := put s1.pool.regions k (newRegion t d.tent.toNat (opf d 24 0 64) (opf d 32 0 64) s0.pool.nextExt runs
            (if opf d 20 0 2 = 1 then some last else none) (if opf d 20 0 2 = 2 then some last else none)) } }
        AppliesAlone opRule q d (.regionCreate q d) s s0 s2 → exec (.regionCreate q d) s = .next (moved s (doneAlone q d (.regionCreate q d) s0 s2)))
      ∧ (∀ r, onlyFields d [(16, 0, 18)] = true → region s0 k = some r → r.owner = d.tent.toNat → r.writer = none → r.waiting = none → r.coherent = false → has s0.kpr.guys k = false →
        let s2 := { releaseRegion k s0 with kpr := { (releaseRegion k s0).kpr with replicas := del s0.kpr.replicas k } }
        AppliesAlone anyRule q d (.regionRelease q d) s s0 s2 → exec (.regionRelease q d) s = .next (moved s (doneAlone q d (.regionRelease q d) s0 s2)))
      ∧ (∀ r, onlyFields d [(16, 0, 18), (20, 0, 7)] = true → region s0 k = some r → r.owner = d.tent.toNat → (tent s0 (opf d 20 0 7)).isSome = true →
        r.writer = none → r.waiting = none → r.coherent = false → opf d 20 0 7 ≠ r.owner →
        let s2 := updRegion k (fun x => { x with owner := opf d 20 0 7 }) { s0 with fab := { s0.fab with
          gate := s0.fab.gate.filter fun e => e.2.edge || e.2.tent != r.owner || !overlaps e.2.base e.2.size r.base r.size } }
        AppliesAlone anyRule q d (.regionSetOwner q d) s s0 s2 → exec (.regionSetOwner q d) s = .next (moved s (doneAlone q d (.regionSetOwner q d) s0 s2))))
   ∧
   (∀ (q : QId) (d : Desc) (s s0 : State) (r : Region),
      let k := opf d 16 0 18
      let new := cmpSetting d
      let head := match new with | some g => headerTiles g (granules r) | none => 0
      stageCmpSetRegion d ≠ some 0x0102 → region s0 k = some r → clapOk s0 (issuer q) (opf d 24 0 32) = true → r.owner = d.tent.toNat → r.coherent = false →
        has s0.kpr.guys k = false → (∀ h ∈ s0.pool.handles, h.2.region ≠ k) → r.waiting = none → liveCount r ≤ 1 → r.conv = none → r.gsb ≠ new →
        (∀ g, g < granules r → placeOf s0 r (tileOf r (currentView r) g) = .t0) → (s0.pool.regions.filter fun e => e.2.conv.isSome).length < 16 →
        head ≤ s0.pool.free0 → pdOff s0 24 = false →
        let s2 := updRegion k (fun r => { r with gsb := new, heads := head, conv := some (r.gsb, [], clapName (opf d 24 0 32)) })
          { s0 with pool := { s0.pool with free0 := s0.pool.free0 - head } }
        ∀ s1, Fetched q d s s1 → AppliesAlone anyRule q d (.cmpSetRegion q d) s s0 s2 → exec (.cmpSetRegion q d) s = .next (
          moved s (if new.isSome ∧ fused 1 = true then complete (crefOf q d s1) 0x0202 0 0 s1 else doneAlone q d (.cmpSetRegion q d) s0 s2 (granules r))))

/-- R301, R302, R306, R307 and R314, issued alone: QUEUE.CREATE makes an empty queue on a ring in memory that the tent owns and its source may read and write; CMDQ.CREATE a command queue likewise, for a listed source if the tent is sealed; SHAPER.SET a shaper with full or empty buckets, where the fuse admits a reserved one (R445); the destroying forms take them out. R247, R259, issued alone: EMB.DEFINE and KV.DEFINE make a table or a cache over memory that the tent owns, or answer FEATURE_DISABLED where the fuse of the feature is set (R445), or delete one. -/
def Obligations.QueueShaperTableAndCacheCommandResults : Prop :=
   (∀ (q : QId) (d : Desc) (s s0 : State),
      let t := d.tent.toNat
      (stageQueueCreate d = none → has s0.qm.queues (opf d 16 0 20) = false → (tent s0 t).isSome = true → clapOk s0 (some t) (opf d 28 0 32) = true →
        clapOk s0 (some t) (opf d 32 0 32) = true → ringOwned s0 t (opf d 40 0 64) (2 ^ (opf d 22 0 5 + opf d 23 0 4)) = true →
        sourceCovers s0 t (opf d 24 0 14) (opf d 40 0 64) (2 ^ (opf d 22 0 5 + opf d 23 0 4)) = true →
        let x : HwQueue := { tent := t, cls := opf d 20 0 3, weight := opf d 21 0 8, n := opf d 22 0 5, e := opf d 23 0 4, source := opf d 24 0 14
                             put := clapName (opf d 28 0 32), get := clapName (opf d 32 0 32), base := opf d 40 0 64, head := 0, tail := 0, error := false }
        let s2 := { s0 with qm := { s0.qm with queues := put s0.qm.queues (opf d 16 0 20) x } }
        AppliesAlone anyRule q d (.queueCreate q d) s s0 s2 → exec (.queueCreate q d) s = .next (moved s (doneAlone q d (.queueCreate q d) s0 s2)))
      ∧ (∀ x, onlyFields d [(16, 0, 20)] = true → find s0.qm.queues (opf d 16 0 20) = some x → x.tent = t →
        let s2 := { s0 with qm := { s0.qm with queues := del s0.qm.queues (opf d 16 0 20), hot := delNat s0.qm.hot (opf d 16 0 20) } }
        AppliesAlone anyRule q d (.queueDestroy q d) s s0 s2 → exec (.queueDestroy q d) s = .next (moved s (doneAlone q d (.queueDestroy q d) s0 s2)))
      ∧ (∀ y, stageCmdqCreate d = none → has s0.gaf.cmdqs (t * 16 + opf d 16 0 4) = false → tent s0 t = some y → (y.isSealed = true → listed y (opf d 18 0 14) = true) →
        clapOk s0 (some t) (opf d 20 0 32) = true → ringOwned s0 t (opf d 24 0 64) (2 ^ opf d 17 0 8 * 80) = true →
        sourceCovers s0 t (opf d 18 0 14) (opf d 24 0 64) (2 ^ opf d 17 0 8 * 80) = true →
        let x : CmdQueue := { enable := true, n := opf d 17 0 8, base := opf d 24 0 64, source := opf d 18 0 14, notify := clapName (opf d 20 0 32), vtag := s0.gaf.vtime, gen := s0.gaf.nextGen }
        let s2 := { s0 with gaf := { s0.gaf with cmdqs := put s0.gaf.cmdqs (t * 16 + opf d 16 0 4) x, nextGen := s0.gaf.nextGen + 1 } }
        AppliesAlone opRule q d (.cmdqCreate q d) s s0 s2 → exec (.cmdqCreate q d) s = .next (moved s (doneAlone q d (.cmdqCreate q d) s0 s2)))
      ∧ (onlyFields d [(16, 0, 4)] = true → has s0.gaf.cmdqs (t * 16 + opf d 16 0 4) = true →
        let s2 := { s0 with gaf := { s0.gaf with cmdqs := del s0.gaf.cmdqs (t * 16 + opf d 16 0 4) } }
        AppliesAlone opRule q d (.cmdqDestroy q d) s s0 s2 → exec (.cmdqDestroy q d) s = .next (moved s (doneAlone q d (.cmdqDestroy q d) s0 s2)))
      ∧ (∀ zero : Bool, stageShaperSet d ≠ some 0x0102 → opf d 18 7 1 = 0 → (tent s0 t).isSome = true → zero = decide (opf d 18 5 1 = 1) →
        (∀ e ∈ s0.qm.shapers, ¬(e.1 ≠ opf d 16 0 12 ∧ e.2.tent = t ∧ e.2.kind = opf d 19 5 2 ∧ e.2.index = opf d 19 0 5
          ∧ (e.2.wide = true ∨ opf d 18 4 1 = 1 ∨ e.2.cls = opf d 18 0 3))) →
        let x : Shaper := { tent := t, reserved := opf d 18 6 1 = 1, wide := opf d 18 4 1 = 1, cls := opf d 18 0 3, kind := opf d 19 5 2, index := opf d 19 0 5
                            cir := opf d 20 0 32, pir := opf d 24 0 32, cbs := opf d 28 0 32, pbs := opf d 32 0 32
                            committed := if zero then 0 else opf d 28 0 32 * 1000, peak := if zero then 0 else opf d 32 0 32 * 1000, stamp := s0.now }
        let s2 := { s0 with qm := { s0.qm with shapers := put s0.qm.shapers (opf d 16 0 12) x } }
        ∀ s1, Fetched q d s s1 → AppliesAlone opRule q d (.shaperSet q d) s s0 s2 → exec (.shaperSet q d) s = .next (
          moved s (if opf d 18 6 1 = 1 ∧ fused 14 = true then complete (crefOf q d s1) 0x0202 0 0 s1 else doneAlone q d (.shaperSet q d) s0 s2))))
   ∧
   (∀ (q : QId) (d : Desc) (s s0 : State), pdOn s0 23 = true →
      let t := d.tent.toNat
      (stageEmb d ≠ some 0x0102 → opf d 17 7 1 = 0 → has s0.gth.tables (opf d 16 0 8) = false →
        ownedRange s0 t (opf d 32 0 64) (opf d 24 0 64 * opf d 20 0 32) = true → ownedRange s0 t (opf d 40 0 64) (opf d 24 0 64 * 4) = true →
        let x : Table := { tent := t, code := opf d 17 0 2, outFmt := opf d 17 2 2, dim := opf d 18 0 16, stride := opf d 20 0 32
                           rows := opf d 24 0 64, codeBase := opf d 32 0 64, paramBase := opf d 40 0 64 }
        let s2 := { s0 with gth := { s0.gth with tables := put s0.gth.tables (opf d 16 0 8) x } }
        ∀ s1, Fetched q d s s1 → AppliesAlone anyRule q d (.embDefine q d) s s0 s2 → exec (.embDefine q d) s = .next (
          moved s (if fused 6 then complete (crefOf q d s1) 0x0202 0 0 s1 else doneAlone q d (.embDefine q d) s0 s2)))
      ∧ (∀ x, stageEmb d = none → opf d 17 7 1 = 1 → find s0.gth.tables (opf d 16 0 8) = some x → x.tent = t →
        let s2 := { s0 with gth := { s0.gth with tables := del s0.gth.tables (opf d 16 0 8), buf := s0.gth.buf.filter fun e => !(e.2.table = opf d 16 0 8) } }
        AppliesAlone anyRule q d (.embDefine q d) s s0 s2 → exec (.embDefine q d) s = .next (moved s (doneAlone q d (.embDefine q d) s0 s2)))
      ∧ (stageKv d ≠ some 0x0102 → opf d 16 7 1 = 0 → has s0.gth.caches (opf d 16 0 4) = false →
        ownedRange s0 t (cacheOf d).base ((cacheOf d).pages * (cacheOf d).pageBytes) = true → kvTiles (opf d 22 0 16) ≤ s0.pool.free0 →
        let s2 := { s0 with pool := { s0.pool with free0 := s0.pool.free0 - kvTiles (opf d 22 0 16) }
                            gth := { s0.gth with caches := put s0.gth.caches (opf d 16 0 4) (cacheOf d) } }
        ∀ s1, Fetched q d s s1 → AppliesAlone anyRule q d (.kvDefine q d) s s0 s2 → exec (.kvDefine q d) s = .next (
          moved s (if fused 7 then complete (crefOf q d s1) 0x0202 0 0 s1 else doneAlone q d (.kvDefine q d) s0 s2)))
      ∧ (∀ x, stageKv d = none → opf d 16 7 1 = 1 → find s0.gth.caches (opf d 16 0 4) = some x → x.tent = t →
        let s2 := { s0 with pool := { s0.pool with free0 := s0.pool.free0 + kvTiles x.seqs }
                            gth := { s0.gth with caches := del s0.gth.caches (opf d 16 0 4), views := s0.gth.views.filter fun v => v.2.1 != opf d 16 0 4 } }
        AppliesAlone anyRule q d (.kvDefine q d) s s0 s2 → exec (.kvDefine q d) s = .next (moved s (doneAlone q d (.kvDefine q d) s0 s2))))

/-- R424, R425, R447, R50 and R349, issued alone: PIN.SET_FUNCTION connects a free pin, which drives its safe level first; TIMER.CLAIM and BUFFER.CLAIM take a free timer or buffer; RES.RELEASE gives any of them back; REPLICA.SET gives a region its alternates where the fuse admits them (R445), or takes them away. -/
def Obligations.ClaimAndPinCommandResults : Prop :=
  ∀ (q : QId) (d : Desc) (s s0 : State),
    let c := opf d 16 0 3
    let i := opf d 20 0 32
    let n := opf d 16 0 4
    let f := opf d 17 0 3
    (stagePinSet d = none → (pin s0 n).func = 0 →
      let sa := updPin n (fun x => { x with func := f, polarity := opf d 18 1 1 = 1, safe := true, level := false, stuck := false, edges := 0, tach := 0, epochOut := decide (8 ≤ n) }) s0
      let sb := if f = 2 then setFld .pinGpfOut 0 n 1 (opf d 18 0 1) sa else sa
      let s2 := if f = 4 then (if n < 8 then setFld .pinGpfDutyLo 0 (8 * n) 8 (opf d 19 0 8) sb else setFld .pinGpfDutyHi 0 (8 * (n - 8)) 8 (opf d 19 0 8) sb) else sb
      AppliesAlone opRule q d (.pinSetFunction q d) s s0 s2 → exec (.pinSetFunction q d) s = .next (moved s (doneAlone q d (.pinSetFunction q d) s0 s2)))
    ∧ (stageTimerClaim d = none → claimed s0 c i = false →
      let s2 := { s0 with gaf := { s0.gaf with claims := put s0.gaf.claims (c * 2 ^ 32 + i) 0 } }
      AppliesAlone opRule q d (.timerClaim q d) s s0 s2 → exec (.timerClaim q d) s = .next (moved s (doneAlone q d (.timerClaim q d) s0 s2)))
    ∧ (stageBufferClaim d = none → claimed s0 c i = false → ¬(c = 4 ∧ bufferHeld s0 i = true) →
      let s2 := { s0 with gaf := { s0.gaf with claims := put s0.gaf.claims (c * 2 ^ 32 + i) 0 } }
      AppliesAlone opRule q d (.bufferClaim q d) s s0 s2 → exec (.bufferClaim q d) s = .next (moved s (doneAlone q d (.bufferClaim q d) s0 s2)))
    ∧ (stageResRelease d = none → c ≠ 1 → claimed s0 c i = true →
      let s2 := { s0 with gaf := { s0.gaf with claims := del s0.gaf.claims (c * 2 ^ 32 + i) } }
      AppliesAlone opRule q d (.resRelease q d) s s0 s2 → exec (.resRelease q d) s = .next (moved s (doneAlone q d (.resRelease q d) s0 s2)))
    ∧ (stageResRelease d = none → c = 1 → i < 16 → (pin s0 i).func ≠ 0 →
      let s2 := updPin i (fun x => { x with func := 0, safe := true, level := false, stuck := false, edges := 0, tach := 0 }) s0
      AppliesAlone opRule q d (.resRelease q d) s s0 s2 → exec (.resRelease q d) s = .next (moved s (doneAlone q d (.resRelease q d) s0 s2)))
    ∧ (∀ r m, stageReplicaSet d ≠ some 0x0102 → m = opf d 20 0 2 → 0 < m → region s0 (opf d 16 0 18) = some r → tentSealed s0 r.owner = false →
      (has s0.kpr.replicas (opf d 16 0 18) = true ∨ s0.kpr.replicas.length < 256) →
      (∀ j, j < m → s0.fab.self ≠ some (bits (opf d (24 + 8 * j) 0 64) 48 14) ∧ (nodeRoute s0 (bits (opf d (24 + 8 * j) 0 64) 48 14)).isSome = true) →
      let x : Replica := ⟨opf d 22 0 14, (List.range m).map fun j => opf d (24 + 8 * j) 0 64⟩
      let s2 := { s0 with kpr := { s0.kpr with replicas := put s0.kpr.replicas (opf d 16 0 18) x } }
      ∀ s1, Fetched q d s s1 → AppliesAlone opRule q d (.replicaSet q d) s s0 s2 → exec (.replicaSet q d) s = .next (
        moved s (if fused 10 then complete (crefOf q d s1) 0x0202 0 0 s1 else doneAlone q d (.replicaSet q d) s0 s2)))
    ∧ (∀ r, stageReplicaSet d = none → opf d 20 0 2 = 0 → region s0 (opf d 16 0 18) = some r → has s0.kpr.replicas (opf d 16 0 18) = true →
      let s2 := { s0 with kpr := { s0.kpr with replicas := del s0.kpr.replicas (opf d 16 0 18) } }
      AppliesAlone opRule q d (.replicaSet q d) s s0 s2 → exec (.replicaSet q d) s = .next (moved s (doneAlone q d (.replicaSet q d) s0 s2)))

/-- R317, R318, R339, R347, R351, R362 and R184, by TAKE.COMMIT of a take that holds only that command: a tent takes a free key slot and a fresh key; a destroyed tent's slots go once nothing holds them; a port takes its role; guy lines, crews and a rushes session are set and ended. -/
def Obligations.StagedOnlyCommandEffects : Prop :=
  ∀ (q q' : QId) (d e : Desc) (s s0 : State),
    let t := e.tent.toNat
    let k := opf e 16 0 18
    (∀ copied srcs slot, parseSources (opf e 18 0 8) copied = some srcs → (∀ x ∈ srcs, attachOf s0 x.port = some x.node ∧ edgeRole (port s0 x.port).role = true) →
      tent s0 t = none → freeSlot s0 = some slot → opf e 16 7 1 = 0 →
      let y : Tent := { state := .active, isSealed := false, span := opf e 16 2 2, stackSel := opf e 16 0 2, seed := opf e 17 0 7, slot := slot, sources := srcs
                        tenantKey := if opf e 32 0 64 = 0 then none else some (copied.drop (8 * opf e 18 0 8)) }
      let s2 := { s0 with kpr := { s0.kpr with tents := put s0.kpr.tents t y, slots := put s0.kpr.slots slot s0.kpr.nextKey, nextKey := s0.kpr.nextKey + 1 } }
      CommitsOne q d ⟨.tentCreate q' e, copied⟩ s s0 s2 → exec (.takeCommit q d) s = .next (moved s (committedOne q d ⟨.tentCreate q' e, copied⟩ s0 s2)))
    ∧ (∀ s2, applyTentDestroy e s0 = .ok (s2, 0) →
      CommitsOne q d ⟨.tentDestroy q' e, []⟩ s s0 s2 → exec (.takeCommit q d) s = .next (moved s (committedOne q d ⟨.tentDestroy q' e, []⟩ s0 s2)))
    ∧ (let p := opf e 16 0 5
       let x := port s0 p
       let changed := x.role != opf e 17 0 3 || wireMode x != opf e 18 0 2 || x.ide != decide (opf e 19 0 1 = 1)
       let again := changed && !(!x.roleSet && x.trainMode = opf e 18 0 2 && opf e 19 0 1 = 0)
       pdOff s0 (pdFabric p) = false → sealedPort s0 p = false →
       let y : FPort := { x with role := opf e 17 0 3, mode := opf e 18 0 2, ide := opf e 19 0 1 = 1, roleSet := true
                                 enable := x.enable || (x.role = 0 && opf e 17 0 3 != 0)
                                 ideUp := x.ideUp && !changed
                                 link := if again && x.link = .l0 then .retrain else x.link
                                 blocked := x.blocked || (again && (x.link = .l0 || x.link = .retrain)) }
       let s2 := updPort p (fun _ => y) (if again && (x.link = .l0 || x.link = .retrain) then noteRetrain p s0 else s0)
       CommitsOne q d ⟨.portSetRole q' e, []⟩ s s0 s2 → exec (.takeCommit q d) s = .next (moved s (committedOne q d ⟨.portSetRole q' e, []⟩ s0 s2)))
    ∧ (∀ r, region s0 k = some r → s0.fab.self ≠ some (opf e 22 0 14) → (nodeRoute s0 (opf e 22 0 14)).isSome = true → mapVal s0 .gafFailDomain 0 ≠ 0 →
      clapOk s0 none (opf e 32 0 32) = true → r.coherent = false → r.gsb = none → r.conv = none → tentSealed s0 r.owner = false → has s0.kpr.guys k = false →
      opf e 20 0 1 = 0 → s0.kpr.guys.length < 1024 → dirtyMapTiles r ≤ s0.pool.free0 →
      let s2 := { s0 with pool := { s0.pool with free0 := s0.pool.free0 - dirtyMapTiles r }
                          kpr := { s0.kpr with guys := put s0.kpr.guys k { secondary := false, partner := opf e 22 0 14, partnerRegion := opf e 24 0 18, pairId := opf e 28 0 32, clapper := clapName (opf e 32 0 32) } } }
      CommitsOne q d ⟨.guyLink q' e, []⟩ s s0 s2 → exec (.takeCommit q d) s = .next (moved s (committedOne q d ⟨.guyLink q' e, []⟩ s0 s2)))
    ∧ (∀ g r, find s0.kpr.guys k = some g → region s0 k = some r → g.secondary = false → g.commitOut = [] →
      let s2 := { s0 with pool := { s0.pool with free0 := s0.pool.free0 + dirtyMapTiles r }, kpr := { s0.kpr with guys := del s0.kpr.guys k } }
      CommitsOne q d ⟨.guyUnlink q' e, []⟩ s s0 s2 → exec (.takeCommit q d) s = .next (moved s (committedOne q d ⟨.guyUnlink q' e, []⟩ s0 s2)))
    ∧ ((tent s0 t).isSome = true → opf e 32 0 1 = 0 →
      (∀ n ∈ crewsIn e, ((crewOf s0 n).clearing = true → (crewOf s0 n).released = true) ∧ (∀ u, assigned s0 n = some u → u = t) ∧ pdOff s0 (pdCrew n) = false) →
      let s2 := (crewsIn e).foldl (fun s n => updCrew n (fun x => if x.clearing then { x with next := some t } else { x with tent := some t }) s) s0
      CommitsOne q d ⟨.crewAssign q' e, []⟩ s s0 s2 → exec (.takeCommit q d) s = .next (moved s (committedOne q d ⟨.crewAssign q' e, []⟩ s0 s2)))
    ∧ ((∀ p ∈ setBits 20 (opf e 20 0 20), (port s0 p).role = 3) → s0.gaf.rushes.state = 0 → clapOk s0 none (opf e 44 0 32) = true →
      let cand := decide (opf e 16 0 1 = 1)
      let s2 := { s0 with gaf := { s0.gaf with rushes := { state := if cand then 5 else 1, candidate := cand, peer := opf e 18 0 14, ports := opf e 20 0 20
                                                           tents := unsealedOnly s0 (opf e 24 0 128), target := opf e 40 0 32, clapper := clapName (opf e 44 0 32) } } }
      CommitsOne q d ⟨.rushesBegin q' e, []⟩ s s0 s2 → exec (.takeCommit q d) s = .next (moved s (committedOne q d ⟨.rushesBegin q' e, []⟩ s0 s2)))
    ∧ (s0.gaf.rushes.state ≠ 0 → s0.gaf.rushes.state ≠ 1 → s0.gaf.rushes.state ≠ 5 →
      let s2 := { s0 with gaf := { s0.gaf with rushes := {} } }
      CommitsOne q d ⟨.rushesEnd q' e, []⟩ s s0 s2 → exec (.takeCommit q d) s = .next (moved s (committedOne q d ⟨.rushesEnd q' e, []⟩ s0 s2)))

/-- R133, R128, R129, R329, R332 and R364: TIER.QUERY writes the summary of a range's tiers and answers how many of its tiles are below tier 0 and how many move; PLACE.HINT takes the places and lists the moves; MEM.CLEAR gives a region a new key and a new reel and lists its clearing; SLATE.GET of a device writes the slate where there is room, and of a weight commitment starts the hash; PORT.RETRAIN notes itself at the port. -/
def Obligations.TierSlateAndRetrainResults : Prop :=
  ∀ (q : QId) (d : Desc) (s s1 : State),
    let t := d.tent.toNat
    let src := opf d 22 0 14
    let base := opf d 24 0 64
    let size := opf d 32 0 64
    (∀ k r s2, Runs anySealedRule q d s s1 → fieldsTierQuery d = none → regionAt s1 base = some (k, r) → rangeCheck s1 k r t src base size = none →
      let ts := rangeTiles s1 r (viewFor s1 k r src) base size
      let moves := ts.filter fun x => s1.pool.hints.any fun h => h.2.moves.any (·.tile = x.1)
      engWriteS src t (opf d 40 0 64) (tierSummary (ts.map Prod.snd)) s1 = (true, s2) →
      exec (.tierQuery q d) s = .next (complete (crefOf q d s1) 0 0 (place moves.length 32 32 ||| (ts.filter fun x => x.2.tier != 0).length) s2))
    ∧ (∀ k r h ps s2, Runs anySealedRule q d s s1 → fieldsPlaceHint d ≠ some 0x0102 → regionAt s1 base = some (k, r) → rangeCheck s1 k r t src base size = none →
      clapOk s1 (issuer q) (opf d 16 0 32) = true → r.coherent = false →
      (opf d 20 0 2 = 0 ∨ ((opf d 20 0 2 = 1 ∨ opf d 20 0 2 = 2) ∧ (pdOff s1 13 = false ∨ pdOff s1 14 = false))
        ∨ (opf d 20 0 2 = 3 ∧ ¬(q = .operator ∧ tentSealed s1 t = true) ∧ ∃ host n p, t3Pool s1 (opf d 21 0 4) = some (t, host, n) ∧ edgePortOf s1 host = some p ∧ pdOff s1 (pdFabric p) = false)) →
      let ts := rangeTiles s1 r (viewFor s1 k r src) base size
      let mv := ts.filter fun x => x.2.tier != opf d 20 0 2
      firstFree s1.pool.hints 0 256 = some h → setAside k r (opf d 20 0 2) (opf d 21 0 4) mv.length s1 = some (ps, s2) →
      let x : Hint := { region := k, tent := t, whole := opf d 20 2 1 = 1, clapper := clapName (opf d 16 0 32), owner := issuer q
                        moves := List.zipWith (fun m p => ⟨m.1, p, false⟩) mv ps
                        seq := s2.pool.hints.foldl (fun a e => max a (e.2.seq + 1)) 0 }
      exec (.placeHint q d) s = .next (if opf d 20 0 2 = 3 ∧ fused 12 = true then complete (crefOf q d s1) 0x0202 0 0 s1
        else endHint h (complete (crefOf q d s1) 0 0 (place (ts.length - mv.length) 32 32 ||| mv.length) { s2 with pool := { s2.pool with hints := put s2.pool.hints h x } })))
    ∧ (∀ r, Runs opRule q d s s1 → fieldsMemClear d = none → region s1 (opf d 16 0 18) = some r → clapOk s1 none (opf d 20 0 32) = true →
      (∀ h ∈ s1.pool.handles, h.2.region ≠ opf d 16 0 18) → r.waiting = none → liveCount r ≤ 1 →
      ∃ s2 r2, exec (.memClear q d) s = .next (complete (crefOf q d s1) 0 0 0 s2) ∧ region s2 (opf d 16 0 18) = some r2 ∧ r2.keyGen = r.keyGen + 1
        ∧ r2.current = nextReel r.current ∧ r2.owner = r.owner ∧ r2.base = r.base ∧ r2.size = r.size ∧ r2.runs = r.runs
        ∧ find s2.pool.clears (opf d 16 0 18) = some (granules r, clapName (opf d 20 0 32)))
    ∧ (∀ x, q = .operator → Runs anySealedRule q d s s1 → fieldsSlateGet q d = none → tent s1 t = some x → x.state = .active → opf d 16 0 16 = 0xFFFF →
      ∃ now, s1.now ≤ now ∧
        (let bs := Config.slate (deviceBlocks s1 ++ tentBlocks { s1 with freeIx := s1.freeIx + 1, now := now } t x now) (opBytes d 24 32)
         let s2 := { s1 with freeIx := s1.freeIx + 1, now := now }
         exec (.slateGet q d) s = .next (if inWindow (opf d 56 0 64) bs.length then complete (crefOf q d s1) 0 0 (bs.length % 2 ^ 32) (windowWrite (opf d 56 0 64) bs s2)
                                         else complete (crefOf q d s1) 0x0201 0 0 s2)))
    ∧ (∀ x y r, Runs anySealedRule q d s s1 → fieldsSlateGet q d = none → tent s1 t = some x → x.state = .active → opf d 16 0 16 ≠ 0xFFFF →
      find s1.pool.handles (opf d 16 0 16) = some y → y.tent = t → y.writer = false → region s1 y.region = some r →
      x.weights.length + (s1.kpr.hashing.filter (·.tent = t)).length < 64 → pdOn s1 24 = true →
      let op : Slate := ⟨(crefOf q d s1), t, measure s1 y r, (match q with | .operator => none | .tent _ _ => (getQ s1 q).map (·.source)), opf d 56 0 64, opBytes d 24 32⟩
      exec (.slateGet q d) s = .next (updDomain 24 (fun z => { z with holds := z.holds ++ [.slate t] })
        { s1 with kpr := { s1.kpr with hashing := s1.kpr.hashing ++ [op] } }))
    ∧ (Runs opSealedRule q d s s1 → fieldsPortRetrain d = none → pdOff s1 (pdFabric (opf d 16 0 5)) = false →
      let p := opf d 16 0 5
      let s2 := noteRetrain p s1
      exec (.portRetrain q d) s = .next (noteOver s1 (holdDiff s2 (updPort p (fun x => { x with
        maxRate := opf d 17 0 2, retrain := x.retrain ++ [(crefOf q d s1)], link := if x.link = .l0 then .retrain else x.link }) s2))))

/-- R185 to R188 and R402: IMAGE.LOAD loads each crew of CREW_MAP and answers the digest's index; CREW.START starts the selected cells and answers their number; CREW.STOP of cells with nothing left to finish answers how many it stopped; CREW.SET_FREQ lists the groups that relock. R175, R180, R181, R188, R328 and R402: a transfer's next request is issued, a finished transfer retires in order, a fault record is written once the cell's transfers have ended, a stopping cell without transfers stops, a released crew is cleared, a group's PLL locks again at its new frequency. -/
def Obligations.CrewCommandAndEventResults : Prop :=
   (∀ (q : QId) (d : Desc) (s s1 : State),
      let t := d.tent.toNat
      let ks := crewsIn d
      (∀ r s2 x, Runs anyRule q d s s1 → fieldsImageLoad d = none → engRead (opf d 32 0 14) t (opf d 40 0 64) (opf d 36 0 32) s1 = (some r, s2) →
        fieldAt r.data 28 4 = opf d 36 0 32 → imageBad r.data = false → opf d 36 0 32 = 64 + fieldAt r.data 12 4 + fieldAt r.data 16 4 + fieldAt r.data 20 4 →
        (∀ k ∈ ks, assigned s1 k = some t ∧ crewBusy s1 k = false ∧ pdOn s1 (pdCrew k) = true) → tent s1 t = some x → x.images.length < 64 →
        let i := (digestIndex x.images (Config.sha384 r.data)).1
        let l := (digestIndex x.images (Config.sha384 r.data)).2
        exec (.imageLoad q d) s = .next (held s s1 (complete (crefOf q d s1) 0 0 i (ks.foldl (fun s k => loadCrew r i k s) (updTent t (fun x => { x with images := l }) s2)))))
      ∧ (Runs anyRule q d s s1 → fieldsCrewStart d = none →
        (∀ k ∈ ks, (opf d 36 0 32 = 0xFFFFFFFF ∨ opf d 36 0 32 < (crewOf s1 k).textLen) ∧ assigned s1 k = some t ∧ (crewOf s1 k).loaded = true
          ∧ resetting s1 (0x40 + k / 16) = false ∧ pdOn s1 (pdCrew k) = true) →
        clapOk s1 (some t) (opf d 44 0 32) = true → clapOk s1 (some t) (opf d 48 0 32) = true →
        (∃ g ∈ s1.fab.gate, g.2.source = opf d 40 0 14 ∧ g.2.tent = t) → (∀ n ∈ cellsIn d, (cellOf s1 n).state.active = false) →
        let s2 := { s1 with crw := { s1.crw with starts := s1.crw.starts + 1 } }
        exec (.crewStart q d) s = .next (complete (crefOf q d s1) 0 0 (cellsIn d).length ((cellsIn d).foldl (fun s n => startCell d s.crw.starts n s) s2)))
      ∧ (Runs anySealedRule q d s s1 → fieldsCrewStop d = none → (∀ k ∈ ks, assigned s1 k = some t) →
        let ns := (cellsIn d).filter fun n => (cellOf s1 n).state = .running || (cellOf s1 n).state = .waiting
        let s2 := ns.foldl (fun s n => stopCell n s) (abortDecodes (fun x => x.crews.any fun k => ks.contains k) stAborted s1)
        let left := ns.filter fun n => (cellOf s2 n).state = .stopping
        (left = [] → exec (.crewStop q d) s = .next (complete (crefOf q d s1) 0 0 ns.length s2))
        ∧ (left ≠ [] → exec (.crewStop q d) s = .next { s2 with crw := { s2.crw with stops := s2.crw.stops ++ [⟨(crefOf q d s1), left, ns.length⟩] } }))
      ∧ (Runs opRule q d s s1 → fieldsSetFreq d = none → (∀ g ∈ setBits 8 (opf d 16 0 8), pdOff s1 (15 + g) = false ∧ groupBusy s1 g = false) →
        exec (.crewSetFreq q d) s = .next { s1 with chip := { s1.chip with relock := s1.chip.relock ++ [((crefOf q d s1), opf d 18 0 16, setBits 8 (opf d 16 0 8))] } }))
   ∧
   ((∀ (c : CellId) (s : State),
        let n := cellNum c
        let x := cellOf s n
        (∀ t, relocking s (n / 512) = false → x.xfers.find? (fun t => !t.issued) = some t → exec (.dollyRequestIssue c) s = .next (moved s (issuePiece n t s)))
        ∧ (∀ t rest, x.xfers = t :: rest → t.issued = true → t.out = 0 → t.ticket < 2 ^ 64 → exec (.dollyRetire c (BitVec.ofNat 64 t.ticket)) s = .next (retire n t s))
        ∧ (x.older = [] → x.recordDue = true → x.xfers = [] → exec (.faultRecordWrite c) s = .next (moved s (writeFault n s)))
        ∧ (∀ r rest, x.older = r :: rest → (∀ t ∈ x.xfers, t.run ≠ r.run) →
          exec (.faultRecordWrite c) s = .next (moved s (putRecord n r (updCell n (fun x => { x with older := rest }) s))))
        ∧ (x.state = .stopping → x.xfers = [] → exec (.cellStopComplete c) s = .next (cellIdle n (updCell n (fun x => { x with state := .idle }) s))))
    ∧ (∀ (k : BitVec 7) (s : State), (crewOf s k.toNat).clearing = true → (∀ n ∈ crewCells k.toNat, (cellOf s n).over = true) →
        exec (.crewClearDone k) s = .next (updCrew k.toNat (fun x => { x with clearing := false, tent := x.next, next := none }) (zeroCrew k.toNat s)))
    ∧ (∀ (g : BitVec 3) (c : CRef) (f : Nat) (gs : List Nat) (rest : List (CRef × Nat × List Nat)) (s : State), s.chip.relock = (c, f, g.toNat :: gs) :: rest →
        let p := (find s.chip.plls (g.toNat + 1)).getD {}
        let s1 := { s with chip := { s.chip with plls := put s.chip.plls (g.toNat + 1) { p with locked := true, freq := f } } }
        (gs = [] → exec (.pllRelockDone g) s = .next (complete c 0 0 f { s1 with chip := { s1.chip with relock := rest } }))
        ∧ (gs ≠ [] → exec (.pllRelockDone g) s = .next { s1 with chip := { s1.chip with relock := (c, f, gs) :: rest } })))

/-- R222 to R224, R237 and R238: COLL.OPEN makes the window with its members and, for a multicast, a free buffer, reserves its records in the crews' areas and answers members and records; COLL.CLOSE ends a window, or rearms one and answers the round; COLL.REPORT writes the report and answers its length. R243, R234, R241, R255 and R263: a window that runs out of time fails with CAUSE 1; the FP64 tree of a window is summed and its result goes on; a filter's scan ends; an unread bag result is dropped; the decode kernel writes its records. -/
def Obligations.CollectiveResults : Prop :=
   (∀ (q : QId) (d : Desc) (s s1 : State), Runs anyRule q d s s1 →
      let w := opf d 16 0 12
      let kind := opf d 18 0 3
      let src := opf d 20 0 14
      let t := d.tent.toNat
      (∀ p l s2 s3, fieldsCollOpen d ≠ some 0x0102 → engRead src t (opf d 32 0 64) 512 s1 = (some p, s2) → p.poison = false → paramBad p.data kind = false →
        readLists p.data kind src t s2 = (l, s3) → listsBad p.data l = false → lengthBad p.data kind = false →
        clapOk s3 (some t) (opf d 24 0 32) = true → rangesOk s3 p.data kind src t l = true → window s3 w = none →
        let f (o n : Nat) : Nat := fieldAt p.data o n
        let crews := setBits 128 (f 16 16)
        let recs := if kind ≤ 2 then recordsOf (f 8 4) (winSize (f 1 1)) crews.length else 0
        (∀ k ∈ crews, assigned s3 k = some t ∧ pdOff s3 (pdCrew k) = false ∧ (crewOf s3 k).area = none) →
        f 32 4 + 64 * recs ≤ 2097152 → memberSlots s3 + f 4 2 ≤ 262144 →
        bloomBytes s3 + l.blooms.foldl (fun a b => a + 2 ^ (bloomAt p.data b.1).2.1 / 8) 0 ≤ 16777216 →
        let multi := kind = 1 ∨ kind = 4
        (multi → ∃ i, i < 64 ∧ claimed s3 4 i = false ∧ bufferHeld s3 i = false) →
        ∃ now b, s3.now ≤ now ∧ (multi → ∃ i, b = some i ∧ i < 64 ∧ claimed s3 4 i = false ∧ bufferHeld s3 i = false) ∧ (¬multi → b = none) ∧
          (let x : Window :=
            { tent := t, kind := kind, source := src, clapper := clapName (opf d 24 0 32), timeout := opf d 28 0 32, op := f 0 1, inFmt := f 1 1, outFmt := f 2 1
              count := f 8 4, lateNs := f 12 4, crews := crews, areaBase := f 32 4, records := recs, dataAddr := f 48 8
              members := (membersOf ((l.members.map (·.data)).getD []) (f 4 2)).map fun n => { node := n }
              dests := (List.range (f 6 1)).map fun i => { addr := f (64 + 8 * i) 8, notify := if f (224 + 8 * i) 8 = 2 ^ 64 - 1 then none else some (f (224 + 8 * i) 8) }
              buffer := b, filter := if kind = 6 then some (filterOf p.data l) else none, state := if kind = 6 then .completing else .open, start := now }
           let s4 := { s3 with freeIx := s3.freeIx + (if kind = 1 ∨ kind = 4 then 2 else 1), now := now, win := put s3.win w x }
           exec (.collOpen q d) s = .next (if kind = 6 ∧ fused 4 = true then complete (crefOf q d s1) 0x0202 0 0 s1 else held s s1 (
             if kind ≤ 2 ∧ f 1 1 = 5 ∧ fused 5 = true then complete (crefOf q d s1) 0x0202 0 0 s3 else complete (crefOf q d s1) 0 0 (place (f 4 2) 32 32 ||| recs)
             (emptyRecords x (crews.foldl (fun s k => updCrew k (fun y => { y with area := some ⟨f 32 4, recs, w⟩ }) s) s4))))))
      ∧ (∀ x, onlyFields d [(16, 0, 12), (18, 0, 1)] = true → window s1 w = some x → x.tent = t →
        (opf d 18 0 1 = 0 → exec (.collClose q d) s = .next (complete (crefOf q d s1) 0 0 0 (dropWindow w s1)))
        ∧ (opf d 18 0 1 = 1 → x.state ≠ .open → x.state ≠ .completing →
            exec (.collClose q d) s = .next (complete (crefOf q d s1) 0 0 (x.round + 1) (rearm w x s1))))
      ∧ (∀ x, onlyFields d [(16, 0, 12), (24, 0, 64)] = true → opf d 24 0 64 % 64 = 0 → window s1 w = some x → x.tent = t →
        (∀ n, (engWriteS x.source x.tent (opf d 24 0 64) (arrivalReport x n) { s1 with freeIx := s1.freeIx + 1, now := n }).1 = true) →
        ∃ now, s1.now ≤ now ∧ exec (.collReport q d) s = .next (complete (crefOf q d s1) 0 0 (arrivalReport x now).length
          (engWriteS x.source x.tent (opf d 24 0 64) (arrivalReport x now) { s1 with freeIx := s1.freeIx + 1, now := now }).2)))
   ∧
   ((∀ (w : BitVec 16) (x : Window) (s : State), window s w.toNat = some x →
        (x.timeout ≠ 0 → x.timed = false → (x.state = .open ∨ x.state = .completing) →
          exec (.windowTimeout w) s = .next (moved s (winFailing w.toNat 1 (updWin w.toNat (fun x => { x with timed := true }) (clockTo (x.start + x.timeout * 1000) s)))))
        ∧ (x.tree = true → x.state = .completing → x.failing = false → (∀ d ∈ x.dests, d.out = 0 ∧ d.asked = false) →
          let s1 := (List.range (x.count / 8)).foldl (fun s l => treeLine w.toNat x l s) s
          exec (.f64TreeDone w) s = .next (moved s (if x.multi then startMulticast w.toNat s1 else winComplete w.toNat s1)))
        ∧ (∀ f, x.filter = some f → x.state = .completing → exec (.filterScanDone w) s = .next (held s s (scanEnd w.toNat x f s))))
    ∧ (∀ (n : BitVec 32) (s : State),
        (∀ x, find s.gth.buf n.toNat = some x → exec (.bufHoldExpiry n) s = .next (clockTo x.deadline (updGth (fun g => { g with buf := del g.buf n.toNat }) s)))
        ∧ (∀ x c, find s.gth.decodes n.toNat = some x → find s.gth.caches x.cache = some c →
          let j := jobOf x.job
          let w := decodeRecords x (j.batch * j.maxSplits * (j.group * c.hkv)) s
          exec (.attnDecodeDone n) s = .next (held s s (clapOpt x.clapper 1 (complete x.cref 0 0 w.1 (freeDecode n.toNat x w.2)))))))

/-- R256, R250, R261, R266 and R267: where the fuse allows it, EMB.ROW_REPLACE writes rows until one fails and adds to its clapper, EMB.BAG_SET makes or removes a bag set, KV.PAGE_MAP writes page entries, a length and a view, and ATTN.DECODE lends its crews to the kernel; otherwise each answers FEATURE_DISABLED. -/
def Obligations.TableCacheAndAttentionResults : Prop :=
  ∀ (q : QId) (d : Desc) (s s1 : State), Runs anyRule q d s s1 →
    let t := d.tent.toNat
    let off := complete (crefOf q d s1) 0x0202 0 0 s1
    (∀ x is ns s2 s3, fieldsRowReplace d = none → find s1.gth.tables (opf d 16 0 8) = some x → x.tent = t → clapOk s1 (some t) (opf d 40 0 32) = true →
      let sz := 64 + (x.stride + 63) / 64 * 64
      let n := opf d 20 0 32
      engRead (opf d 18 0 14) t (opf d 24 0 64) (4 * n) s1 = (some is, s2) → engRead (opf d 18 0 14) t (opf d 32 0 64) (n * sz) s2 = (some ns, s3) → pdOn s3 23 = true →
      let (st, rows, s4) := replaceRows x (opf d 18 0 14) is ns sz n 0 s3
      let clap := clapName (opf d 40 0 32)
      let s5 := mirrorRows x s4.fab.nextTxn (crefOf q d s1) clap st rows s4
      exec (.embRowReplace q d) s = .next (if fused 6 then off else held s s1 (
        if rowsWait s5 s4.fab.nextTxn then s5 else clapOpt clap 1 (complete (crefOf q d s1) st 0 rows s5))))
    ∧ (∀ x, fieldsBagSet d = none → find s1.gth.tables (opf d 16 0 8) = some x → x.tent = t → pdOn s1 23 = true →
      let b : BagSet := ⟨opf d 17 2 2, opf d 18 0 16, opf d 20 0 32, opf d 24 0 64, opf d 32 0 64⟩
      b.bags * x.stride' b ≤ 2 ^ 32 →
      exec (.embBagSet q d) s = .next (if fused 6 then off else complete (crefOf q d s1) 0 0 0 (dropBuffered (opf d 16 0 8) (some (opf d 17 0 2))
        (updGth (fun g => { g with tables := upd g.tables (opf d 16 0 8) fun x =>
          { x with sets := if b.bags = 0 then del x.sets (opf d 17 0 2) else put x.sets (opf d 17 0 2) b } }) s1))))
    ∧ (∀ x rs s2, fieldsPageMap d = none → find s1.gth.caches (opf d 16 0 4) = some x → x.tent = t → opf d 20 0 16 < x.seqs → pdOn s2 23 = true →
      ((opf d 17 0 4).testBit 3 = true → ∃ v, find s1.gth.views (opf d 18 0 8) = some v ∧ v.1 = opf d 16 0 4) →
      ((opf d 17 0 4).testBit 2 = true → has s2.gth.views (opf d 18 0 8) = false) →
      (if (opf d 17 0 4).testBit 0 then engRead (opf d 22 0 14) t (opf d 32 0 64) (4 * opf d 26 0 16) s1 else (some ⟨[], false, 0⟩, s1)) = (some rs, s2) →
      let list := (List.range (rs.data.length / 4)).map fun i => leNat ((rs.data.drop (4 * i)).take 4)
      (∀ p ∈ list, p ≤ x.pages ∨ p = 0xFFFFFFFF) →
      exec (.kvPageMap q d) s = .next (if fused 7 then off else held s s1 (complete (crefOf q d s1) 0 0 0 (mapPoint (opf d 16 0 4) d list s2))))
    ∧ (∀ x y r s2, fieldsAttn d = none → find s1.gth.caches (opf d 32 0 4) = some x → x.tent = t → engRead (opf d 34 0 14) t (opf d 40 0 64) 64 s1 = (some r, s2) →
      jobBad r.data (some x) = false → clapOk s1 (some t) (opf d 36 0 32) = true →
      let crews := setBits 128 (opf d 16 0 128)
      let j := jobOf r.data
      (∀ n ∈ crews, assigned s1 n = some t ∧ crewBusy s1 n = false ∧ pdOn s1 (pdCrew n) = true) →
      mayRead s1 (opf d 34 0 14) t j.seqAddr (4 * j.batch) = true → mayRead s1 (opf d 34 0 14) t j.qAddr (j.batch * qRow x j) = true →
      mayWrite s1 (opf d 34 0 14) t j.outAddr (j.batch * j.maxSplits * j.group * x.hkv * recBytes x) = true →
      tent s1 t = some y → y.images.length < 64 → pdOn s1 23 = true →
      ∃ s3, exec (.attnDecode q d) s = .next (if fused 7 then off else held s s1 s3)
        ∧ find s3.gth.decodes s2.gth.nextOp = some ⟨(crefOf q d s1), t, crews, opf d 32 0 4, opf d 34 0 14, clapName (opf d 36 0 32), r.data⟩
        ∧ s3.gth.nextOp = s2.gth.nextOp + 1 ∧ s3.gaf = s2.gaf)

/-- R282 to R284 and R287: NBU.PROGRAM sends the sixteen steps of an allotment to every unit of the module, NBU.RUN joins the module's queue with its buffers, where the fuse allows it; NBU.RESET resets the module's units and waits for their answers. R277, R282, R285 to R287 and R289: an answer of a unit counts off its message, and with the last of an NBU.PROGRAM, a step or a reset the work goes on; CAL notes a calibrating unit; a message, or a step, without its answers in time ends its work; a free module takes the run whose tent is next in fairness. -/
def Obligations.NearBankResults : Prop :=
   (∀ (q : QId) (d : Desc) (s s1 : State),
      let m := opf d 16 0 3
      let a := opf d 17 0 4
      let t := d.tent.toNat
      let c : CRef := (crefOf q d s1)
      (∀ r s2 al x, Runs anyRule q d s s1 → fieldsNbuProgram d = none → engRead (opf d 18 0 14) t (opf d 24 0 64) (16 * opf d 20 0 16) s1 = (some r, s2) →
        (∀ y ∈ stepsOf r.data, stepIsBad y.toNat = false) → nbuUnits s1 m ≠ 0 → allotOf s1 m a = some al → al.1 = t →
        (∀ y ∈ (nbuOf s1 m).queue, y.allot ≠ a) → (∀ y, (nbuOf s1 m).running = some y → y.allot ≠ a) → tent s1 t = some x → x.images.length < 64 → pdOn s1 (pdTray m) = true →
        let s3 := updNbu m (fun x => { x with programs := x.programs ++ [⟨c, a, 16 * nbuUnits s1 m, stepsOf r.data, t, Config.sha384 r.data⟩] }) s2
        exec (.nbuProgram q d) s = .next (if fused 3 then complete (crefOf q d s1) 0x0202 0 0 s1
          else held s s1 (pushDown m (slotMsgs (nbuUnits s3 m) a (stepsOf r.data) (.program c)) s3)))
      ∧ (∀ r s2 al, Runs anyRule q d s s1 → fieldsNbuRun d = none → engRead (opf d 18 0 14) t (opf d 24 0 64) 512 s1 = (some r, s2) →
        nbuUnits s1 m ≠ 0 → allotOf s1 m a = some al → al.1 = t → blockBad r.data (some al.2.1) = false → clapOk s1 (some t) (opf d 20 0 32) = true →
        let n := bits (fieldAt r.data 0 1) 0 5
        let ins := bits (fieldAt r.data 1 1) 0 4
        let binds := (List.range n).map fun b => blockBind r.data al.2.2 b
        let copy (i : Nat) : Nat × Nat := (fieldAt r.data (320 + 16 * i) 8, fieldAt r.data (328 + 16 * i) 1)
        let inc := (List.range ins).map copy
        let outc := (List.range (bits (fieldAt r.data 1 1) 4 4)).map fun i => copy (ins + i)
        let len (b : Nat) : Nat := (binds[b]?).elim 0 fun x => x.rows * x.rowBytes
        (∀ b ∈ binds, bindPermitted s1 m (opf d 18 0 14) t b = true) →
        (∀ x ∈ inc, mayRead s1 (opf d 18 0 14) t x.1 (len x.2) = true) → (∀ x ∈ outc, mayGateWrite s1 (opf d 18 0 14) t x.1 (len x.2) = true) →
        (∀ y ∈ programOf (nbuOf s1 m) a, stepFault binds y = none) → binds.foldl (fun a b => a + b.count) 0 ≤ 4096 → (nbuOf s1 m).queue.length < 64 → pdOn s1 (pdTray m) = true →
        exec (.nbuRun q d) s = .next (if fused 3 then complete (crefOf q d s1) 0x0202 0 0 s1
          else held s s1 (joinQueue m { cref := c, tent := t, allot := a, source := opf d 18 0 14, clapper := clapName (opf d 20 0 32), binds := binds, ins := inc, outs := outc } s2)))
      ∧ (Runs opRule q d s s1 → onlyFields d [(16, 0, 3)] = true → (tray s1 m).admitted = true → pdOn s1 (pdTray m) = true →
        let s2 := updNbu m (fun x => { x with resets := x.resets ++ [c] }) s1
        let under := (nbuOf s2 m).resetting && (nbuOf s2 m).waits.any (·.2.2 = .reset)
        exec (.nbuReset q d) s = .next (if under then s2 else moduleReset m s2)))
   ∧
   (∀ (t : BitVec 3) (b : BitVec 512) (tag : BitVec 16) (s : State),
      let m := t.toNat
      let x := nbuOf s m
      (∀ k c, find x.waits (upTag b) = some (k, .program c) → exec (.ack t b) s = .next (programAck m c (answered m (upTag b) s)))
      ∧ (∀ k, find x.waits (upTag b) = some (k, .plain) → exec (.ack t b) s = .next (answered m (upTag b) s))
      ∧ (∀ k caps u, find x.waits (upTag b) = some (k, .probe caps u) →
          let v := bits b.toNat 128 64
          let s1 := answered m (upTag b) s
          (upStatus b = 0 → caps = true → 8 ≤ bits v 56 8 → 32 ≤ bits v 48 8 → 128 ≤ bits v 32 16 → bits v 0 32 = 0 →
            exec (.regData t b) s = .next (updNbu m (fun x => { x with probes := x.probes - 1, unitGbps := bits v 56 8, busGbps := bits v 48 8 }) s1))
          ∧ (upStatus b = 0 → caps = false → bits v 16 4 + 1 = (tray s1 m).units → bits v 20 4 = u → bits v 24 8 = 1 → bits v 0 16 = 0 →
            exec (.regData t b) s = .next (updNbu m (fun x => { x with probes := x.probes - 1 }) s1))
          ∧ (upStatus b ≠ 0 → (tray s1 m).units ≠ 0 →
            exec (.regData t b) s = .next (ras 0x09 2 none (selfNode s1) (Config.itemCode 4) m
              (updNbu m (fun x => { x with probes := 0 }) (updTray m (fun t => { t with units := 0 }) s1)))))
      ∧ (∀ k r, find x.waits (upTag b) = some (k, .start) → x.running = some r → r.tag = upTag b → upUnit b ∈ r.left →
          exec (.stepDone t b) s = .next (moved s (stepAnswer m (upUnit b) (upStatus b) r (answered m (upTag b) s))))
      ∧ (∀ k, find x.waits (upTag b) = some (k, .reset) →
          let s1 := answered m (upTag b) s
          exec (.resetDone t b) s = .next ((nbuOf s1 m).resets.foldl (fun s c => complete c 0 0 0 s)
            (updNbu m (fun x => { x with resetting := false, resets := [] }) s1)))
      ∧ exec (.cal t b) s = .next (updNbu m (fun x => { x with cal := if b.toNat.testBit 128 then insNat x.cal (upUnit b) else delNat x.cal (upUnit b) }) s)
      ∧ (∀ k w, find x.waits tag.toNat = some (k, w) →
          let s1 := sendDown m 17 (updNbu m (fun x => { x with waits := del x.waits tag.toNat }) s)
          (∀ c, w = .program c → exec (.nbuAckTimeout t tag) s = .next (endProgram m c 0x0601 s1))
          ∧ (w = .reset → exec (.nbuAckTimeout t tag) s = .next (x.resets.foldl (fun s c => complete c 0x0601 0 0 s) (updNbu m (fun x => { x with resets := [] }) s1)))
          ∧ (w = .plain → exec (.nbuAckTimeout t tag) s = .next s1)
          ∧ (∀ caps u, w = .probe caps u → exec (.nbuAckTimeout t tag) s = .next (failUnits m 5 s1)))
      ∧ (∀ n u r rest, x.running = none → x.resetting = false → nbuUnits s m ≠ 0 → trayUp s m = true → least (x.tags.map fun e => (e.2, e.1)) = some (n, u) →
          takeFirst (fun r : NbuRun => r.tent = u) x.queue = some (r, rest) →
          let tags := if rest.any (·.tent = u) then put x.tags u (n + tagUnit / tentWeight s u) else del x.tags u
          exec (.runDequeue t) s = .next (moved s (startRun m r (updNbu m (fun x => { x with queue := rest, v := n, tags := tags }) s))))
      ∧ (∀ r, x.running = some r → r.left ≠ [] → exec (.stepTimeout t) s = .next (moduleReset m (killRun m 0x0601 (unknownRun m r (clockTo r.limit s))))))

/-- R404, R396 and R408: PWR.SET_DOMAIN starts a domain that is off, stops one, or changes a clock; BLOCK.RESET asks its block to go idle, and code 0xFF resets the device; PWR.SLEEP refuses new work, drops open takes and asks every block to go idle. R395, R404 to R407 and R409: a block, a domain or the device that is idle, or whose time is up, goes on to its reset, its removal or its sleep; a held block is released; a domain that has started up is ON; the keeper's work on a domain ends or is given up; a wake source wakes. -/
def Obligations.PowerResults : Prop :=
   (∀ (q : QId) (d : Desc) (s s1 : State), Runs opRule q d s s1 →
      let n := opf d 16 0 5
      let c : CRef := (crefOf q d s1)
      (fieldsSetDomain d = none → s1.gaf.commits = [] → 8 ≤ n → s1.chip.sleepOp = none → moving s1 n = false → (∀ b ∈ domainBlocks n, has s1.chip.resets b = false) →
        (opf d 17 0 2 = 1 → pdState s1 3 = .on → pdState s1 n = .off →
          exec (.pwrSetDomain q d) s = .next (moved s (gafferWork (setPd n .starting (updDomain n (fun x => { x with change := some (1, c, false, false) }) s1)))))
        ∧ (opf d 17 0 2 = 0 → pdState s1 n = .off → (domain s1 n).holds = [] → exec (.pwrSetDomain q d) s = .next (moved s (gafferWork (complete (crefOf q d s1) 0 0 0 s1))))
        ∧ (opf d 17 0 2 = 0 ∨ opf d 17 0 2 = 2 → pdState s1 n = .on → (domain s1 n).holds = [] →
          exec (.pwrSetDomain q d) s = .next (moved s (gafferWork (askDomain n
            (setPd n .stopping (updDomain n (fun x => { x with change := some (opf d 17 0 2, c, false, false), deferred := false, timeout := opf d 20 0 32 }) s1)))))))
      ∧ (fieldsBlockReset d = none → opf d 16 0 8 ≠ 0xFF → pdOff s1 (blockDomain (opf d 16 0 8)) = false → has s1.chip.resets (opf d 16 0 8) = false →
        moving s1 (blockDomain (opf d 16 0 8)) = false → s1.chip.sleepOp = none →
        let s2 := putReset (opf d 16 0 8) { step := 1, cref := some c, timeout := opf d 20 0 32 } s1
        ((domain s2 (blockDomain (opf d 16 0 8))).holds = [] → exec (.blockReset q d) s = .next (moved s (askReset (opf d 16 0 8) s2)))
        ∧ ((domain s2 (blockDomain (opf d 16 0 8))).holds ≠ [] → exec (.blockReset q d) s = .next (moved s (defer [blockDomain (opf d 16 0 8)] s2))))
      ∧ (fieldsBlockReset d = none → opf d 16 0 8 = 0xFF → exec (.blockReset q d) s = .next (moved s (deviceReset cSoftware 0 s1)))
      ∧ (fieldsSleep d = none → s1.gaf.commits = [] → s1.gaf.oldMap = none → s1.chip.resets = [] → anyMoving s1 = false → (∀ e ∈ s1.chip.domains, e.2.holds = []) →
        let s2 := (List.range 20).foldl (fun s p => updPort p (fun x => { x with blocked := true }) s) s1
        let s3 := holdDiff s1 { s2 with gaf := { s2.gaf with takes := s2.gaf.takes.filter fun e => e.2.state != .open } }
        (∀ n, (domain s3 n).holds = []) →
        exec (.pwrSleep q d) s = .next (moved s (sleepAsk { s3 with chip := { s3.chip with sleepOp := some { state := opf d 16 0 2, wakeS := opf d 20 0 32, cref := c, keeper := false, timeout := opf d 24 0 32 } } }))))
   ∧
   ((∀ (c : Byte) (s : State),
        let n := c.toNat
        (∀ b, find s.chip.resets n = some b →
          (b.step = 2 → inFlight s n = 0 → exec (.blockIdle false c) s = .next (moved s (holdReset n 0 0 s)))
          ∧ (b.step = 2 → exec (.idleTimeout false c) s = .next (moved s (holdReset n 0 (inFlight s n) (blockExpire n (limitOver (idleLimit false n) s)))))
          ∧ (b.step = 4 → exec (.resetHoldEnd c) s = .next (moved s (releaseReset n b s))))
        ∧ (n ≠ 0xFF → stopAsked s n = true →
          (domainWork s n = 0 → exec (.blockIdle true c) s = .next (moved s (finishStop n 0 s)))
          ∧ exec (.idleTimeout true c) s = .next (moved s (finishStop n (domainWork s n) ((domainBlocks n).foldl (fun s c => blockExpire c s) (limitOver (idleLimit true n) s)))))
        ∧ (∀ x, c = 0xFF → s.chip.sleepOp = some x → x.keeper = false →
          (sleepWork s = 0 → exec (.blockIdle true c) s = .next (moved s (finishSleep 0 s)))
          ∧ exec (.idleTimeout true c) s = .next (moved s (finishSleep (sleepWork s) (blockCodes.foldl (fun s c => blockExpire c s) (limitOver (idleLimit true 0xFF) s))))))
    ∧ (∀ (d : BitVec 5) (s : State),
        let n := d.toNat
        (∀ a c x y, pdState s n = .starting → (domain s n).change = some (a, c, x, y) →
          exec (.domainStartupDone d) s = .next (moved s (gafferWork (complete c 0 0 0 (startedUp n (updDomain n (fun x => { x with change := none }) s))))))
        ∧ (∀ h hs, (domain s n).holds = h :: hs → exec (.keeperOpEnd d) s = .next (moved s (resumeDomain n (endHold n h s)))
          ∧ (removalWaits s n = true →
            exec (.keeperDeadline d) s = .next (moved s (resumeDomain n (updDomain n (fun x => { x with change := x.change.map fun y => (y.1, y.2.1, y.2.2.1, true) })
              (bump .pwrDeferStats 0 16 16 1 (abortHolds n (limitOver (keeperLimit n) s)))))))))
    ∧ (∀ s : State,
        let low := updInput 1 (fun x => { x with level := false }) s
        let woken (n : Nat) (s : State) : State := wakeUp { s with chip := { s.chip with lastWake := n } }
        let reset (n : Nat) (s : State) : State := let t := deviceReset cWake 0 s; { t with chip := { t.chip with lastWake := n } }
        ((input s 1).level = false ∨ s.chip.sleepOp = none ∧ s.chip.sleep = 0 → exec .wakeN s = .next (moved s low))
        ∧ (∀ x, (input s 1).level = true → s.chip.sleepOp = some x →
          exec .wakeN s = .next (moved s { low with chip := { low.chip with sleepOp := some { x with wake := some (x.wake.getD 1) } } }))
        ∧ (s.chip.sleepOp = none → s.chip.sleep = 1 →
          ((input s 1).level = true → exec .wakeN s = .next (moved s (woken 1 low)))
          ∧ (endpointUp s = true → writesServed s = true → exec .wakeBit s = .next (drain (woken 2 s)))
          ∧ (s.chip.wakeS ≠ 0 → exec .wakeTimer s = .next (moved s (woken 3 (limitOver wakeLimit s)))))
        ∧ (s.chip.sleepOp = none → s.chip.sleep = 2 →
          ((input s 1).level = true → exec .wakeN s = .next (moved s (reset 1 low)))
          ∧ (s.chip.wakeS ≠ 0 → exec .wakeTimer s = .next (moved s (reset 3 (limitOver wakeLimit s)))))
        ∧ (∀ x, endpointUp s = true → writesServed s = true → s.chip.sleepOp = some x →
          exec .wakeBit s = .next (drain { s with chip := { s.chip with sleepOp := some { x with wake := some (x.wake.getD 2) } } }))
        ∧ (s.chip.sleepOp = none → s.chip.sleep ≠ 1 → exec .wakeBit s = .next s)))

/-! ### The fabric, coherence, guy lines -/

/-- R65, R71 to R73, R320 and R374: a request that a port takes and does not turn away is in flight; where no other is, it is judged and performed at once, and what can move goes on moving: refused with the status that route or gate gives; a FENCE completes; a read of an uncompressed, not coherent tile in tier 0 returns the bytes of its lines, and a store there writes its lines. -/
def Obligations.RequestsAreServed : Prop :=
  ∀ (p : BitVec 5) (m : Msg) (s : State),
    (∀ s1, (Arrives p.toNat 1 m s s1 → exec (.read p m) s = .next (drain s1))
      ∧ (Arrives p.toNat 2 m s s1 → exec (.write p m) s = .next (drain s1))
      ∧ (Arrives p.toNat 3 m s s1 → exec (.writePartial p m) s = .next (drain s1))
      ∧ (m.proto = .native → Arrives p.toNat 4 m s s1 → exec (.fenceRequest p m) s = .next (drain s1)))
    ∧ (∀ s1 x st s2, Arrives p.toNat 1 m s s1 → s1.fab.txns = [x] → takeIn x s1 = (some st, s2) →
        exec (.read p m) s = .next (drainFor (2 ^ 16 - 1) (endTxn x st [] 0 s2)))
    ∧ (∀ y s2, m.proto = .native → Admitted p.toNat 4 m s y s2 → y.ty = 4 →
        exec (.fenceRequest p m) s = .next (drainFor (2 ^ 16 - 1) (pump (endTxn y wOk [] 0 s2))))
    ∧ (∀ y s2 k r s3, Admitted p.toNat 1 m s y s2 → y.ty = 1 → OwnPool y s2 k r → (∃ q n, y.origin = .port q n) →
        (∀ g, find s2.kpr.guys k = some g → ¬(g.secondary = true ∧ g.state = .syncing)) → r.coherent = false → r.coded = false →
        let t := tileOf r (viewFor (underMap s2 y) k r y.source) (granuleOf r (offOf y.addr))
        placeOf s2 r t = .t0 → Tier0Ready y r (fetchLength s2 r t (offOf y.addr % tileBytes) y.len) s2 s3 →
        exec (.read p m) s = .next (drainFor (2 ^ 16 - 1) (readNow k r y 0 0 s3)))
    ∧ (∀ ty i y s2 k r s3, (ty = 2 ∧ i = Instr.write p m ∨ ty = 3 ∧ i = Instr.writePartial p m) → Admitted p.toNat ty m s y s2 → y.ty = ty →
        OwnPool y s2 k r → (∃ q n, y.origin = .port q n) → writeRefused (underMap s2 y) k r y.source = none → keyMulti s2 (offOf y.addr) = false →
        r.coherent = false → r.coded = false → tileSetting r (writeTile r (granuleOf r (offOf y.addr))) = none →
        promoting s2 (writeTile r (granuleOf r (offOf y.addr))) = false → needsCopy s2 k r (granuleOf r (offOf y.addr)) = false →
        (∀ g, find s2.kpr.guys k = some g → g.syncOut = []) → Tier0Ready y r (64 * (lineSpan (offOf y.addr) y.len).2) s2 s3 →
        exec i s = .next (drainFor (2 ^ 16 - 1) (writeNow k y s3)))

/-- R372, R374, R377, R379, Table 16.10: INIT and CREDIT set and add to the credits of the eight channels; a completion ends the request it answers, with its data where that fits, and one that answers none is counted; a configuration request is answered from boot stage 6 on; a module's answer to a tile read ends the read, and one without a read is counted. R76, R77 and R48: a request that waits past its age ends with status 3; the end of a path group's hold lets its requests go on; the old map is freed once no request of its epoch is in flight, or at the drain limit, where what is left ends. -/
def Obligations.CompletionsAndTransit : Prop :=
   ((∀ (p : BitVec 5) (ret : BitVec 128) (s : State), nativeUp s p.toNat = true →
        exec (.init p ret) s = .next (moved s (updPort p.toNat (fun x => { x with credits := { x.credits with send := creditsOf ret } }) (linkHears p.toNat s)))
        ∧ exec (.credit p ret) s = .next (moved s (updPort p.toNat
            (fun x => { x with credits := { x.credits with send := List.zipWith (· + ·) x.credits.send (creditsOf ret) } }) (linkHears p.toNat s))))
    ∧ (∀ (p : BitVec 5) (m m1 : Msg) (s s1 : State), Takes p.toNat 1 m s m1 s1 → m1.rsv = false → m1.hops ≠ 7 →
        (∀ x, gsbOk 8 m1 = true → outstanding s1 p.toNat m1 = some x → (x.ty = 1 → (unwire m1 s1).1.status ≠ 0) →
          exec (.completion p m) s = .next (moved s (endTxn x (unwire m1 s1).1.status.toNat [] 0 (unwire m1 s1).2)))
        ∧ (gsbOk 8 m1 = true → outstanding s1 p.toNat m1 = none → exec (.completion p m) s = .next (moved s (bump .prtErrors p.toNat 16 16 1 s1)))
        ∧ (∀ x m2 s2, gsbOk 9 m1 = true → 64 ≤ m1.length.toNat → m1.length.toNat ≤ 4096 → m1.length.toNat % 64 = 0 → outstanding s1 p.toNat m1 = some x →
          unwire m1 s1 = (m2, s2) → x.ty = 1 → m2.data.length = x.len →
          exec (.completionData p m) s = .next (moved s (endTxn x wOk m2.data m2.mask.toNat s2))))
    ∧ (∀ (p : BitVec 5) (tag : BitVec 16) (w : Bool) (reg : BitVec 10) (s : State),
        (p = 20 ∧ 1 ≤ s.gaf.stage ∨ p.toNat < 20 ∧ (port s p.toNat).link = .l0 ∧ wireMode (port s p.toNat) ≠ 1) →
        (s.gaf.stage < 6 → exec (.configRequest p tag w reg) s = .next (emit (.config p.toNat tag.toNat true []) s))
        ∧ (6 ≤ s.gaf.stage → w = true → exec (.configRequest p tag w reg) s = .next (emit (.config p.toNat tag.toNat false []) s))
        ∧ (6 ≤ s.gaf.stage → w = false → ∃ bs, bs.length = 4 ∧ exec (.configRequest p tag w reg) s = .next (emit (.config p.toNat tag.toNat false bs) { s with freeIx := s.freeIx + 1 })
            ∧ (reg = 0 → bs.take 2 = [0x9A, 0x1D]) ∧ (reg = 0 → p ≠ 20 → bs.drop 2 = [0x20, 0x28]) ∧ (reg = 2 → p ≠ 20 → bs.take 1 = [0xB0])))
    ∧ (∀ (t : BitVec 3) (tag : BitVec 32) (st : BitVec 2) (bad : BitVec 64) (s : State),
        ((∀ x ∈ s.fab.txns, ¬(x.stage = .tray t.toNat ∧ x.id % 2 ^ 32 = tag.toNat)) → exec (.trayResponse t tag st bad) s = .next (moved s (bump .tryErrors t.toNat 16 16 1 s)))
        ∧ (∀ x k r, s.fab.txns.find? (fun x => x.stage = .tray t.toNat && x.id % 2 ^ 32 = tag.toNat) = some x → regionAt (underMap s x) (offOf x.addr) = some (k, r) → st = 0 →
          r.coded = false →
          let at_ := tileOf r (viewFor (underMap s x) k r x.source) (granuleOf r (offOf x.addr))
          exec (.trayResponse t tag st bad) s = .next (moved s (readNow k r x (placeOf s r at_).tier bad.toNat s)))))
   ∧
   ((∀ (n : BitVec 32) (x : Txn) (d : Nat) (s : State), s.fab.txns.find? (fun x => x.id % 2 ^ 32 = n.toNat) = some x → x.deadline = some d → x.gated = false →
        (x.stage = .ready ∨ ∃ p, x.stage = .egress p ∨ x.stage = .pathHeld p) →
        let s1 := clockTo d (bump .rngRouteStatus 0 48 16 1 s)
        exec (.transitAgeExpiry n) s = .next (moved s (endTxn x wTransit [] 0 (unqueue (·.txn = some x.id) s1))))
    ∧ (∀ (ps : BitVec 20) (h : Hold) (s : State), s.fab.holds.find? (·.ports = ps.toNat) = some h → exec (.failoverQuietEnd ps) s = .next (moved s (wake (· = .pathHeld ps.toNat)
        (clockTo h.deadline { s with fab := { s.fab with holds := s.fab.holds.filter (·.ports != ps.toNat) } }))))
    ∧ (∀ (s : State) (o : OldMap), s.gaf.oldMap = some o →
        (oldRequests s o = [] → exec .oldMapFreed s = .next (moved s (gafferWork (freeOldMap s))))
        ∧ (oldRequests s o ≠ [] → exec .oldMapFreed s = .next (drain s))
        ∧ (let xs := oldRequests s o
           let s1 := xs.foldl (fun s x => expireTxn x s) (clockTo o.deadline s)
           (xs = [] → exec .drainLimitExpiry s = .next (moved s (gafferWork (freeOldMap (clockTo o.deadline s)))))
           ∧ ((∃ x ∈ xs, ∀ w, x.stage ≠ .window w) → exec .drainLimitExpiry s = .next (moved s (gafferWork (freeOldMap (attn 2 s1))))))))

/-- R309, R311: a hardware queue's TAIL moves on by what its ring has room for and its HEAD by what it holds, each adding as much to its clapper; another value sets ERROR through `doorbellBad` and changes neither; a write with RESET sets both and clears ERROR. R298 and R300: time fills a shaper's buckets and lets what waited at its resource go on; a reserved shaper's slot serves its tent. -/
def Obligations.HardwareQueueAndShaperEvents : Prop :=
   (∀ (q : BitVec 20) (v : BitVec 32) (x : HwQueue) (s : State), find s.qm.queues q.toNat = some x →
      (x.error = false → (v - x.tail).toNat ≤ 2 ^ x.n - (x.tail - x.head).toNat →
          exec (.queueTailWrite q v) s = .next (clapOpt x.put (v - x.tail).toNat (updHw q.toNat (fun x => { x with tail := v }) (touchHot q.toNat s))))
      ∧ (x.error = false → 2 ^ x.n - (x.tail - x.head).toNat < (v - x.tail).toNat → exec (.queueTailWrite q v) s = .next (doorbellBad q.toNat (touchHot q.toNat s)))
      ∧ (x.error = false → (v - x.head).toNat ≤ (x.tail - x.head).toNat →
          exec (.queueHeadWrite q v) s = .next (clapOpt x.get (v - x.head).toNat (updHw q.toNat (fun x => { x with head := v }) (touchHot q.toNat s))))
      ∧ (x.error = false → (x.tail - x.head).toNat < (v - x.head).toNat → exec (.queueHeadWrite q v) s = .next (doorbellBad q.toNat (touchHot q.toNat s)))
      ∧ (x.error = true → exec (.queueTailWrite q v) s = .next (touchHot q.toNat s) ∧ exec (.queueHeadWrite q v) s = .next (touchHot q.toNat s))
      ∧ exec (.queueHeadReset q v) s = .next (updHw q.toNat (fun x => { x with head := v, tail := v, error := false }) (touchHot q.toNat s)))
   ∧
   (∀ (n : BitVec 12) (x : Shaper) (s : State), find s.qm.shapers n.toNat = some x →
      (∃ now, s.now ≤ now ∧ exec (.shaperBucketRefill n) s = .next (moved s { s with
          now := now, freeIx := s.freeIx + 1
          qm := { s.qm with shapers := s.qm.shapers.map fun e => (e.1, if e.2.kind = x.kind && e.2.index = x.index then e.2.fill now else e.2) } }))
      ∧ (x.reserved = true → firstSlot s x.kind x.index (x.due, x.tent) = some n.toNat →
          let s1 := clockTo x.due (updShaper n.toNat (fun x => { x with slotLeft := x.cbs, slots := x.slots + 1 }) s)
          let ended (s2 : State) : State := drain (slotLoop x.kind x.index (x.due, x.tent) (2 ^ 16 - 1) (updShaper n.toNat (fun x => { x with slotLeft := 0 }) s2))
          (x.kind = 0 → exec (.reservedSlotDue n) s = .next (ended (pumpPort x.index (some x.tent) s1)))
          ∧ (x.kind ≠ 0 → exec (.reservedSlotDue n) s = .next (ended (servePoint (256 * x.kind + x.index) (some x.tent) s1)))))

/-- R110 to R114, R118, R119: a caching request of a healthy agent on a coherent line of which no transaction runs, which its entry of the gate admits, takes effect as Table 5.5 says: the grant, the data and the directory's new entry, or the snoops that must be answered first; an eviction leaves the line to memory and is completed. An agent's awaited answer changes the directory and memory as Table 5.5 says, and the last one lets the request take effect; an answer that nothing awaits is counted. A Hint that is accepted makes the agent the owner, a declined one is counted. An agent that does not answer in time fails; the walk of a flush ends. -/
def Obligations.CoherenceEvents : Prop :=
  (∀ (p : BitVec 5) (c : BitVec 4) (m m1 : Msg) (s s1 : State) (a l k : Nat) (r : Region), FromAgent p.toNat 2 c m s a l m1 s1 → refusing s1 p.toNat = false →
      regionAt s1 (l * 64) = some (k, r) → r.coherent = true → agentFailed s1 a = false → resetting s1 0x52 = false → s1.coh.queue = [] → cohBusy s1 l = none →
      let may (w : Bool) (t : Nat) : Prop := gatePool s1 (agNode (agentEntry s1 a)) (l * 64) 64 w false 0 = .ok t
      let e := dirOf s1 l
      let others := (e.sharers ||| 1 <<< a) ^^^ 1 <<< a
      let tag := m1.tag.toNat
      let flow (t : Nat) : Nat × Nat := (t, classOf m1)
      let grant (t g : Nat) (s : State) : State := cohSend a 0x23 g l tag (flow t) [] false s
      let data (t : Nat) (s : State) : State := cohSend a 0x24 0 l tag (flow t) (cohMem s1 l).1 (cohMem s1 l).2 s
      let ask (t : Nat) (q : CohReq) (op w : Nat) : State := (setBits 32 w).foldl (fun s b => cohSend b 0x21 op l 0 (flow t) [] false s)
        (awaitSnoop l { s1 with coh := { s1.coh with txns := s1.coh.txns ++ [⟨l, q, w, op, none, none⟩] } })
      (regionFlushing s1 k = false → agentFlushing s1 a = false →
        (∀ t, may false t →
          (e.state = .invalid ∨ e.state = .owned ∧ e.owner = a →
            exec (.rdShared p c m) s = .next (moved s (data t (grant t 0 (setDir l { state := .owned, owner := a } (cohCount t l none s1))))))
          ∧ (e.state = .shared →
            exec (.rdShared p c m) s = .next (moved s (data t (grant t 1 (setDir l { state := .shared, sharers := e.sharers ||| 1 <<< a } (cohCount t l none s1))))))
          ∧ (e.state = .owned → e.owner ≠ a → exec (.rdShared p c m) s = .next (moved s (ask t (.rdShared a tag (flow t)) 2 (1 <<< e.owner)))))
        ∧ (∀ t u, may false t → may true u →
          (e.state = .invalid ∨ e.state = .shared ∧ others = 0 ∨ e.state = .owned ∧ e.owner = a →
            exec (.rdOwn p c m) s = .next (moved s (data t (grant t 2 (setDir l { state := .owned, owner := a } (cohCount t l none s1))))))
          ∧ (e.state = .shared → others ≠ 0 → exec (.rdOwn p c m) s = .next (moved s (ask t (.rdOwn a tag (flow t)) 0 others)))
          ∧ (e.state = .owned → e.owner ≠ a → exec (.rdOwn p c m) s = .next (moved s (ask t (.rdOwn a tag (flow t)) 1 (1 <<< e.owner)))))
        ∧ (∀ t, may true t →
          (e.state = .invalid ∨ e.state = .shared ∧ others = 0 ∨ e.state = .owned ∧ e.owner = a →
            exec (.ownNodata p c m) s = .next (moved s (grant t 2 (setDir l { state := .owned, owner := a } s1))))
          ∧ (e.state = .shared → others ≠ 0 → exec (.ownNodata p c m) s = .next (moved s (ask t (.ownNoData a tag (flow t)) 0 others)))
          ∧ (e.state = .owned → e.owner ≠ a → exec (.ownNodata p c m) s = .next (moved s (ask t (.ownNoData a tag (flow t)) 0 (1 <<< e.owner))))))
      ∧ (∀ t, may false t → exec (.evictClean p c m) s = .next (moved s (grant t 7 (dropHolder l a s1))))
      ∧ (∀ t, may true t → exec (.evictDirty p c m) s = .next (moved s (grant t 7 (
          if e.state = .owned ∧ e.owner = a then setDir l {} (cohPut l (fit 64 m1.data) (2 ^ 64 - 1) (m1.mask.getLsbD 0) s1) else dropHolder l a s1)))))
  ∧ (∀ (p : BitVec 5) (c : BitVec 4) (m m1 : Msg) (s s1 : State) (a l : Nat),
      (∀ t, cohBusy s1 l = some t → t.wait.testBit a = true →
        let left : CohTxn := { t with wait := (t.wait ||| 1 <<< a) ^^^ 1 <<< a }
        let holder : State := if t.snoop = 2 then setDir l { state := .shared, sharers := 1 <<< a } s1 else if t.snoop = 3 then s1 else dropHolder l a s1
        let answered (t' : CohTxn) (s2 : State) : State :=
          let s3 := { s2 with coh := { s2.coh with txns := s2.coh.txns.map fun x => if x.line = l then t' else x } }
          if t'.wait = 0 then cohSettle t' s3 else s3
        (FromAgent p.toNat 5 c m s a l m1 s1 →
          exec (.ackI p c m) s = .next (moved s (answered left (dropHolder l a s1)))
          ∧ exec (.ackS p c m) s = .next (moved s (answered left holder)))
        ∧ (FromAgent p.toNat 6 c m s a l m1 s1 → t.snoop ≠ 0 →
          let d := (fit 64 m1.data, m1.mask.getLsbD 0)
          exec (.clean p c m) s = .next (moved s (answered { left with data := some d } holder))
          ∧ (t.snoop = 3 → exec (.dirty p c m) s = .next (moved s (answered { left with data := some d } holder)))
          ∧ (t.snoop ≠ 3 → exec (.dirty p c m) s = .next (moved s (answered { left with data := some d } (cohPut l d.1 (2 ^ 64 - 1) d.2 holder))))))
      ∧ (∀ t, cohBusy s1 l = some t → t.hintTo = some a → t.req = .hint → s1.coh.queue = [] → FromAgent p.toNat 5 c m s a l m1 s1 →
        let ended (s2 : State) : State := endLimit (snoopLimit l) { s2 with coh := { s2.coh with txns := s2.coh.txns.filter (·.line != l) } }
        exec (.hintAccept p c m) s = .next (moved s (ended (bump .cohStats 0 32 16 1 (setDir l { state := .owned, owner := a } s1))))
        ∧ exec (.hintDecline p c m) s = .next (moved s (ended (bump .cohStats 0 16 16 1 s1))))
      ∧ (cohBusy s1 l = none →
        let counted := bump .prtErrors p.toNat 16 16 1 s1
        (FromAgent p.toNat 5 c m s a l m1 s1 → exec (.ackI p c m) s = .next (moved s counted) ∧ exec (.ackS p c m) s = .next (moved s counted)
          ∧ exec (.hintAccept p c m) s = .next (moved s counted) ∧ exec (.hintDecline p c m) s = .next (moved s counted))
        ∧ (FromAgent p.toNat 6 c m s a l m1 s1 → exec (.clean p c m) s = .next (moved s counted) ∧ exec (.dirty p c m) s = .next (moved s counted))))
  ∧ (∀ (l : BitVec 48) (a : BitVec 5) (s : State),
      (∀ t, cohBusy s l.toNat = some t → (t.wait.testBit a.toNat = true ∨ t.hintTo = some a.toNat) →
        exec (.snoopTimeout l a) s = .next (moved s (agentFail a.toNat (bump .cohStats 0 0 16 1 (limitOver (snoopLimit l.toNat) s)))))
      ∧ (∀ t, s.coh.txns = [t] → t.line = l.toNat → t.hintTo = some a.toNat → t.req = .hint → s.coh.queue = [] → s.coh.dir = [] → agentFailed s a.toNat = false →
        let s1 := bump .cohStats 0 0 16 1 (limitOver (snoopLimit l.toNat) s)
        let s2 := bump .cohStats 0 16 16 1 (ras 0x0B 2 none (agNode (agentEntry s a.toNat)) a.toNat 0 { s1 with coh := { s1.coh with failed := s1.coh.failed ||| 1 <<< a.toNat } })
        exec (.snoopTimeout l a) s = .next (moved s (endLimit (snoopLimit l.toNat) { s2 with coh := { s2.coh with txns := [] } })))
      ∧ (cohBusy s l.toNat = none → exec (.snoopTimeout l a) s = .next (drain s)))
  ∧ (∀ (n : BitVec 18) (s : State),
      (agentFlushing s n.toNat = true →
        (∀ e ∈ s.coh.dir, ¬(e.2.state = .owned ∧ e.2.owner = n.toNat) ∧ ¬(e.2.state = .shared ∧ e.2.sharers.testBit n.toNat = true)) →
        (∀ t ∈ s.coh.txns, t.wait.testBit n.toNat = false ∧ t.req ≠ .flush (some n.toNat)) → (∀ q ∈ s.coh.queue, q.2 ≠ .flush (some n.toNat)) →
        exec (.flushEnd true n) s = .next (moved s { s with coh := { s.coh with
          flushes := s.coh.flushes.filter fun f => match f with | .agent b _ => b != n.toNat | .region _ => true
          failed := (s.coh.failed ||| 1 <<< n.toNat) ^^^ 1 <<< n.toNat } }))
      ∧ (∀ r, region s n.toNat = some r → regionFlushing s n.toNat = true → regionFlushed s r = true →
        exec (.flushEnd false n) s = .next (moved s (closeWeights n.toNat r.current
          (updRegion n.toNat (fun r => { r with coherent := false, current := nextReel r.current, reels := r.reels.map fun x => { x with num := nextReel r.current } })
            (giveFree0 (dirTiles r) { s with coh := { s.coh with flushes := s.coh.flushes.filter (· != .region n.toNat) } }))))))

/-- R103, R340 to R346 and R352: a mirrored write or commit point that comes in sequence to a secondary is applied and acknowledged; an acknowledgement ends the writes that waited for it; LINK moves a LINKING side to SYNCING where every check passes and breaks the line with its reason where one fails; NOT_LINKED breaks a LINKING line and sends a mirroring primary to SOLO; a message for no guy line is answered NOT_LINKED. R340, R343, R345, R346 and R354, by time: a LINKING side and a SOLO primary send LINK; an idle primary sends KEEPALIVE; a primary whose message is not acknowledged in time goes SOLO; a secondary that hears nothing goes STALE; a candidate's answer that does not come fails the session. -/
def Obligations.GuyLineResults : Prop :=
   (∀ (p : BitVec 5) (m m1 : Msg) (s s1 : State), ForThisNode p.toNat m s m1 s1 →
      (∀ k g r, guyFrom s1 m1 = some (k, g) → g.secondary = true → m1.seq.toNat = g.seqIn → g.state ≠ .linking → region s1 k = some r →
        (∀ s2, bits m1.addr.toNat 0 40 + m1.data.length ≤ r.size → mirrorUp s1 r (bits m1.addr.toNat 0 40) m1.data.length = true → applyMirror k (bits m1.addr.toNat 0 40) (m1.addr.getLsbD 42) m1.data m1.mask.toNat s1 = some s2 →
          exec (.mirror p m) s = .next (moved s (mirrorAck k g m1.seq.toNat s2)))
        ∧ (r.mbase = none →
          exec (.mirrorCommit p m) s = .next (moved s (mirrorAck k g m1.seq.toNat (pruneReels k (updRegion k (fun x => { x with
            current := nextReel r.current, reels := ⟨nextReel r.current, mirrorView x false⟩ :: x.reels, mhead := none }) s1)).2))))
      ∧ (∀ k g, guyFrom s1 m1 = some (k, g) → g.secondary = false →
        exec (.mirrorAck p m) s = .next (moved s (ackArrives k m1.seq.toNat
          ((s1.fab.txns.filter fun x => x.stage = .mirror k m1.seq.toNat).foldl (fun s x => endTxn x wOk [] 0 s) s1))))
      ∧ (∀ k g r why s2, k = leNat ((m1.data.drop 8).take 4) → find s1.kpr.guys k = some g → region s1 k = some r → g.partner = m1.snode.toNat → g.state = .linking →
        linkReason s1 k g r m1 = (why, s2) →
        let peer := leNat ((m1.data.drop 13).take 1)
        let s3 := if why ≠ 0 then setGuy k .broken why s2
                  else if g.secondary then heard k (updGuy k (fun y => { y with seqIn := 0 }) (setGuy k .syncing 0 s2))
                  else startSync k (List.range (granules r)) s2
        exec (.link p m) s = .next (moved s (if peer = 1 ∨ peer = 4 ∧ g.secondary = true then guyCtl 0 k s3 else s3)))
      ∧ (guyFrom s1 m1 = none →
        let answer := notLinkedTo m1.snode.toNat (guyRegion m1) (leNat ((m1.data.drop 4).take 4)) s1
        exec (.keepalive p m) s = .next (moved s answer)
        ∧ exec (.mirror p m) s = .next (moved s (notLinkedTo m1.snode.toNat (guyRegion m1) 0 s1)))
      ∧ (∀ x, guyFrom s1 m1 = some x → exec (.keepalive p m) s = .next (moved s (heard x.1 s1)))
      ∧ (∀ k g, s1.kpr.guys.find? (fun e => e.2.partner = m1.snode.toNat && e.2.partnerRegion = leNat ((m1.data.drop 4).take 4)) = some (k, g) →
        (g.state = .linking → exec (.notLinked p m) s = .next (moved s (setGuy k .broken 5 s1)))
        ∧ (g.state ≠ .linking → g.mirrors = true → exec (.notLinked p m) s = .next (moved s (goSolo k s1 5))))
      ∧ (s1.gaf.rushes.candidate = true → s1.gaf.rushes.state = 5 → s1.gaf.rushes.peer = m1.snode.toNat →
        let r := s1.gaf.rushes
        exec (.shadowCopy p m) s = .next (moved s (applyEarly (r.early.length + 1) { s1 with gaf := { s1.gaf with rushes := { r with early := r.early ++ [(m1.seq.toNat, 0x14, m1)] } } })))
      ∧ (∀ x, s1.gaf.rushes.state = 1 → s1.gaf.rushes.peer = m1.snode.toNat → s1.gaf.rushes.buffer.find? (fun x => x.seq % 65536 = m1.seq.toNat) = some x →
        let c := (parseMessage m1.data).2
        exec (.shadowResult p m) s = .next (moved s (rushesPut x.seq (fun x => { x with peer := some (c.status.toNat, c.data, c.mask.toNat) }) s1))))
   ∧
   ((∀ (k : BitVec 18) (g : Guy) (s : State), find s.kpr.guys k.toNat = some g →
      ((g.state = .linking ∨ g.state = .solo ∧ g.secondary = false) → exec (.guyLinkTick k) s = .next (moved s (guyCtl 0 k.toNat s)))
      ∧ (g.secondary = false → (g.mirrors = true ∨ g.state = .solo) → exec (.keepaliveTick k) s = .next (moved s (guyCtl 1 k.toNat s)))
      ∧ (∀ q : BitVec 16, (∃ e ∈ g.syncOut, e.2 = q.toNat) ∨ (∃ e ∈ g.commitOut, e.1 = q.toNat) ∨ (∃ x ∈ s.fab.txns, x.stage = .mirror k.toNat q.toNat) →
          exec (.mirrorTimeout k q) s = .next (moved s (goSolo k.toNat (bump .snpGuyStats 0 32 16 1 (limitOver (mirrorLimit k.toNat q.toNat) s)))))
      ∧ (g.secondary = true → (g.state = .inSync ∨ g.state = .syncing) → exec (.secondarySilence k) s = .next (moved s (setGuy k.toNat .stale 0 (limitOver (silenceLimit k.toNat) s)))))
    ∧ (∀ (q : BitVec 64) (x : Shadow) (s : State), s.gaf.rushes.state = 1 → s.gaf.rushes.buffer.find? (fun x => x.seq = q.toNat && x.peer.isNone) = some x →
      let s1 := rushesLog x 2 0xFFFF (limitOver (shadowLimit x.seq) s)
      exec (.shadowResponseLate q) s = .next (moved s (rushesEnd 3
        { s1 with gaf := { s1.gaf with rushes := { s1.gaf.rushes with missing := satAdd 16 s1.gaf.rushes.missing 1 } } }))))

/-- R325, R332, R382, R383, Table 14.11: SPDM requests are answered by the responder, GET_MEASUREMENTS over the device's blocks; KEY_EXCHANGE, FINISH and END_SESSION open, complete and close the session; a module's or a source's answer opens its session or sets its authentication; a JTAG access to memory or a breakpoint is granted only with consent; the operator window reads and writes its bytes. R434 to R436, R439: an endpoint read of 8 aligned bytes answers the register's value and clears what a read clears, one of 4 bytes its half; a write of 8 bytes to an assigned direct register whose domain runs writes it, one of another length or to a register that only a command may write is counted. -/
def Obligations.SessionDebugAndEndpointAccess : Prop :=
   (∀ (ps : List Byte) (s : State),
      (responds s = true →
        exec (.getVersion ps) s = .next (answer 0x84 ps s) ∧ exec (.getCapabilities ps) s = .next (answer 0xE1 ps s)
        ∧ exec (.negotiateAlgorithms ps) s = .next (answer 0xE3 ps s) ∧ exec (.getDigests ps) s = .next (answer 0x81 ps s)
        ∧ exec (.getCertificate ps) s = .next (answer 0x82 ps s) ∧ exec (.challenge ps) s = .next (answer 0x83 ps s)
        ∧ exec (.getMeasurements ps) s = .next (answer 0xE0 (ps ++ (deviceBlocks s).flatten) s)
        ∧ exec (.keyExchange ps) s = .next (answer 0xE4 ps { s with kpr := { s.kpr with spdm := 1 } })
        ∧ (s.kpr.spdm = 1 → exec (.finish ps) s = .next (answer 0xE5 ps { s with kpr := { s.kpr with spdm := 2 } }))
        ∧ (s.kpr.spdm ≠ 1 → exec (.finish ps) s = .next (spdmError 0xE5 s))
        ∧ (s.kpr.spdm = 2 → exec (.endSession ps) s = .next (answer 0xEC ps { s with kpr := { s.kpr with spdm := 0 } }))
        ∧ (s.kpr.spdm ≠ 2 → exec (.endSession ps) s = .next (spdmError 0xEC s)))
      ∧ (∀ (p : BitVec 5), p.toNat < 8 → (tray s p.toNat).admitted = true → upOrRetrain (tray s p.toNat).link = true → (tray s p.toNat).session = false →
          exec (.spdmResponse true p true ps) s = .next (moved s (sessionUp p.toNat s)))
      ∧ (∀ (p : BitVec 5) (ok : Bool), (domain s (pdFabric p.toNat)).holds = [] → upOrRetrain (port s p.toNat).link = true →
          exec (.spdmResponse false p ok ps) s = .next (drain { s with kpr := { s.kpr with
            tents := s.kpr.tents.map fun e => (e.1, if e.2.isSealed then { e.2 with sources := e.2.sources.map (authResult p.toNat ok ps) } else e.2) } }))
      ∧ exec (.jtagAccess .boundary) s = .next (emit (.jtag true []) s)
      ∧ (∀ (k : BitVec 7) (o : BitVec 21) (v : Option Byte),
          let ok := !bit Config.fuseDebug.toNat 0 && (crewTents s k.toNat).all (debugOpen s)
          exec (.jtagAccess (.crewMem k o v)) s = .next (if !ok then emit (.jtag false []) s else match v with
            | some x => emit (.jtag true []) (updCrew k.toNat (fun y => { y with mem := setByte y.mem o.toNat x }) s)
            | none => emit (.jtag true [byteAt (crewOf s k.toNat).mem o.toNat]) s))
      ∧ (∀ (o : BitVec 28) (n : BitVec 13), 0 < n.toNat → o.toNat + n.toNat ≤ 0x10000000 → s.chip.inReset = false → 1 ≤ s.gaf.stage → s.chip.sleep ≠ 2 → pdOn s 4 = true →
          exec (.operatorWindowAccess false o n ps) s = .next (emit (.read o.toNat (windowRead s o.toNat n.toNat)) s)
          ∧ (ps.length = n.toNat → exec (.operatorWindowAccess true o n ps) s = .next (windowWrite o.toNat ps s))))
   ∧
   (∀ (a : BitVec 24) (v : U64) (s : State), endpointUp s = true →
      (∀ x s1, a.toNat % 8 = 0 → endpointRead a.toNat (2 ^ 64 - 1) s = (x, s1) → exec (.registerReadClear a 8) s = .next (emit (.read a.toNat (leBytes 8 x)) s1))
      ∧ (∀ x s1, a.toNat % 4 = 0 → endpointRead (a.toNat - a.toNat % 8) (maskOf (8 * (a.toNat % 8)) 32) s = (x, s1) →
          exec (.registerReadClear a 4) s = .next (emit (.read a.toNat (leBytes 4 (bits x (8 * (a.toNat % 8)) 32))) s1))
      ∧ (∀ r i, writesServed s = true → a.toNat % 8 = 0 → regAt a.toNat = some (r, i) →
          (r.isMap = false → r.place.1 ≠ 1 → regOff s r i = false → exec (.registerWrite a 8 v) s = .next (writeReg r i v.toNat allMask s))
          ∧ (r.isMap = false → r.place.1 ≠ 1 → regOff s r i = true → exec (.registerWrite a 8 v) s = .next (bump .gafCsrStatus 0 16 16 1 s)))
      ∧ (∀ n, n ≠ 8 → writesServed s = true → exec (.registerWrite a n v) s = .next (bump .gafCsrStatus 0 32 16 1 s)))

/-- R436: an endpoint write to a map register, or to any KPR register, is ignored and counted in IGNORED of GAF_CSR_STATUS; nothing else changes. -/
def Obligations.EndpointWritesToMapAndKeeperRegisters : Prop :=
  ∀ (a : BitVec 24) (v : U64) (r : Reg) (i : Nat) (s : State), endpointUp s = true → writesServed s = true → a.toNat % 8 = 0 → regAt a.toNat = some (r, i) →
    (r.isMap = true ∨ r.place.1 = 1) → exec (.registerWrite a 8 v) s = .next (bump .gafCsrStatus 0 48 16 1 s)

/-! ### Memory, links, boot, resets, pins -/

/-- R96, R97, R126, R130, R131, R154 and R157: the end of a copy gives the head its own tile; a tile whose move may end switches over, and with WHOLE all the tiles of the hint at once; a conversion goes on by a granule; a re-encoded block takes in the stores that waited. R135, R136, R357, R328 and R392: refresh and a telemetry sample change nothing that this model holds; a scrub read counts and poisons what it finds and moves on; an alert interval gives the corrected errors over the threshold to the log; the clear engine clears a tile of a store. -/
def Obligations.MemoryEvents : Prop :=
   ((∀ (k : BitVec 18) (g : BitVec 24) (s : State),
        (copyShared s k.toNat g.toNat = some true → exec (.copyComplete k g) s = .next (moved s (endCopy k.toNat g.toNat s)))
        ∧ (copyShared s k.toNat g.toNat = some false → exec (.promotionComplete k g) s = .next (moved s (endCopy k.toNat g.toNat s)))
        ∧ (∀ r, s.pool.copies.contains (k.toNat, g.toNat) = true → region s k.toNat = some r →
          let s1 := { s with pool := { s.pool with copies := s.pool.copies.filter (· != (k.toNat, g.toNat)) } }
          let at_ := placeOf s r (tileOf r (headView r) g.toNat)
          let own := copyGranule k.toNat g.toNat r s1
          (r.writer.isSome = true → tileUp s r (r.base + g.toNat * tileBytes) at_ = true →
            (headShared r g.toNat = true → exec (.copyComplete k g) s = .next (moved s (wakeCopies own)))
            ∧ (headShared r g.toNat = false → at_ ≠ .t0 → exec (.promotionComplete k g) s = .next (moved s (wakeCopies own))))
          ∧ (r.writer = none →
            (headShared r g.toNat = true → exec (.copyComplete k g) s = .next (moved s (wakeCopies (untakeTile k.toNat s1))))
            ∧ (headShared r g.toNat = false → exec (.promotionComplete k g) s = .next (moved s (wakeCopies (untakeTile k.toNat s1)))))))
    ∧ (∀ (n : BitVec 8) (t : Nat) (h : Hint) (m : TileMove) (s : State), find s.pool.hints n.toNat = some h → h.whole = false → h.moves.find? (·.tile = t) = some m → mayMove s h m = true →
        let s1 := moveOver h m s
        let s2 := { s1 with pool := { s1.pool with hints := upd s1.pool.hints n.toNat fun x => { x with moves := x.moves.filter (·.tile != t) } } }
        exec (.tileSwitchOver n t) s = .next (moved s (wakeCopies (endHint n.toNat s2))))
    ∧ (∀ (n : BitVec 8) (h : Hint) (s : State), find s.pool.hints n.toNat = some h → h.whole = true → (∀ m ∈ h.moves, mayMove s h m = true) →
        let s1 := h.moves.foldl (fun s m => moveOver h m s) s
        let s2 := { s1 with pool := { s1.pool with hints := upd s1.pool.hints n.toNat fun x => { x with moves := [] } } }
        exec (.wholeTensorSwitchOver n) s = .next (moved s (wakeCopies (endHint n.toNat s2))))
    ∧ (∀ (k : BitVec 18) (g : BitVec 24) (r : Region) (old : Option GsbSet) (done : List Nat) (c : Option Nat) (s : State), region s k.toNat = some r → r.conv = some (old, done, c) →
        g.toNat < granules r → g.toNat ∉ done → pdOn s 24 = true →
        let t := tileOf r (currentView r) g.toNat
        let pass (x : Region) (s : State) : State := dropBuffers (·.1 = t) (movePass x .t0 x.owner t s)
        let s0 := updRegion k.toNat (fun r => { r with conv := r.conv.map fun c => (c.1, insNat c.2.1 g.toNat, c.2.2) }) (pass r (decodeBlocks r t 0 tileBytes s))
        let s1 := match region s0 k.toNat with
          | some x => pass x (encodeBlocks x t 0 tileBytes s0)
          | none => s0
        (done.length + 1 ≠ granules r → exec (.conversionSwitchOver k g) s = .next s1)
        ∧ (done.length + 1 = granules r → exec (.conversionSwitchOver k g) s = .next (endConversion k.toNat old (granules r) c s1)))
    ∧ (∀ (t : Nat) (b : BitVec 5) (s : State), (∀ x ∈ s.fab.txns, x.stage ≠ .encoding t b.toNat) →
        exec (.reencodeStart t b) s = .next (((s.fab.txns.filter fun x => x.stage = .reencode t b.toNat).take 128).foldl (fun s x => stageTxn x.id (.encoding t b.toNat) s) s))
    ∧ (∀ (t : Nat) (b : BitVec 5) (x : Txn) (xs : List Txn) (k : Nat) (r : Region) (z : GsbSet) (s : State), s.fab.txns.filter (fun x => x.stage = .encoding t b.toNat) = x :: xs →
        regionAt (underMap s x) (offOf x.addr) = some (k, r) → tileSetting r t = some z →
        let n := gsbBytes z.size
        exec (.reencodeComplete t b) s = .next (moved s (encodeBlocks r t (b.toNat * n) n
          ((x :: xs).foldl (fun s x => mergeStore z t b.toNat x s) (decodeBlocks r t (b.toNat * n) n s))))))
   ∧
   ((∀ (ch : BitVec 7) (a : BitVec 24) (s : State), exec (.hbmRefresh ch) s = .next s ∧ exec (.telemetrySample a) s = .next s)
    ∧ (∀ (ch : BitVec 7) (s : State), pdOn s (pdStack (ch.toNat / 32)) = true →
        exec (.scrubRead ch false 0) s = .next (scrubAdvance ch.toNat s)
        ∧ exec (.scrubRead ch true 0) s = .next (scrubAdvance ch.toNat (bump .hbcEccStatus (ch.toNat / 32) 32 32 1
            { s with pool := { s.pool with ce := put s.pool.ce ch.toNat ((find s.pool.ce ch.toNat).getD 0 + 1) } }))
        ∧ ∀ ls, ls ≠ 0 → exec (.scrubRead ch false ls) s = .next (scrubAdvance ch.toNat (scrubPoison ch.toNat ls.toNat s)))
    ∧ (∀ (ch : BitVec 7) (s : State),
        let n := (find s.pool.ce ch.toNat).getD 0
        let s1 := { s with pool := { s.pool with ce := del s.pool.ce ch.toNat, ceLast := if n = 0 then del s.pool.ceLast ch.toNat else put s.pool.ceLast ch.toNat n } }
        exec (.ceAlertInterval ch) s = .next (if fld s1 .hbcEccCtl 0 0 16 < n then ras 0x02 1 none (selfNode s1) ch.toNat 0 s1 else s1))
    ∧ (∀ (n : BitVec 4) (s : State), 3 ≤ s.gaf.stage → pdOn s 24 = true → resetting s 0x51 = false →
        (n = 0 → s.pool.reservedClear = false → exec (.clearEngineTile n) s = .next { s with pool := { s.pool with reservedClear := true } })
        ∧ (n = 0 → s.pool.reservedClear = true → s.pool.dirty0 ≠ 0 →
            exec (.clearEngineTile n) s = .next (clearTick 0 { s with pool := { s.pool with dirty0 := s.pool.dirty0 - 1, free0 := s.pool.free0 + 1 } }))
        ∧ (n ≠ 0 → n.toNat ≤ 8 → trayUp s (n.toNat - 1) = true → (tray s (n.toNat - 1)).dirty1 ≠ 0 →
            exec (.clearEngineTile n) s = .next (clearTick n.toNat (updTray (n.toNat - 1) (fun t => { t with dirty1 := t.dirty1 - 1, free1 := t.free1 + 1 }) (gateTags (n.toNat - 1) 0 1 s))))
        ∧ (∀ k m clap rest, n = 9 → s.pool.clears = (k, m, clap) :: rest →
            (1 < m → exec (.clearEngineTile n) s = .next { s with pool := { s.pool with clears := (k, m - 1, clap) :: rest } })
            ∧ (m ≤ 1 → exec (.clearEngineTile n) s = .next (clapOpt clap 1 { s with pool := { s.pool with clears := rest } })))))

/-- R330, R366, R367, R375, R376, R380 and R382: a link that trains reaches L0 at its rate and width, one that fails goes down; a replay is asked for and counted, and the fourth in a row retrains; the retrain limit ends a retrain; keys put in place let a port go on, broken ones take it down; the end of a module's session stops its work; a port starts to train. -/
def Obligations.LinkEvents : Prop :=
  ∀ (p : BitVec 5) (s : State),
    let n := p.toNat
    let x := port s n
    let y := tray s n
    (∀ (r : BitVec 2) (w : BitVec 5) (v : BitVec 128), r ≠ 0 →
      ((w = 4 ∨ w = 8 ∨ w = 16) → n < 20 → (x.link = .training ∨ x.link = .retrain ∨ x.link = .down) → pdOn s (pdFabric n) = true → exec (.linkUp false p r w v) s = .next (moved s (fabricUp n r.toNat w.toNat s)))
      ∧ ((w = 4 ∨ w = 8) → n < 8 → (y.link = .training ∨ y.link = .retrain ∨ y.link = .down) → pdOn s (pdTray n) = true → exec (.linkUp true p r w v) s = .next (moved s (trayLinkUp n r.toNat w.toNat v.toNat s))))
    ∧ (n < 20 → upOrRetrain x.link = true →
      exec (.linkDown false p) s = .next (moved s (portFail n .down s))
      ∧ (x.ide = true → x.ideUp = true → exec (.ideIntegrityFailure p) s = .next (moved s (portFail n .down s))))
    ∧ (n < 8 → upOrRetrain y.link = true → exec (.linkDown true p) s = .next (moved s (trayFail n s)))
    ∧ (∀ again : Bool, n < 20 → x.link = .l0 →
      let k := if again then x.replays + 1 else 1
      let s1 := linkNak n (bump .prtErrors n 48 16 1 (updPort n (fun x => { x with replays := k }) s))
      exec (.crcReplay false p again) s = .next (if k < 4 then s1 else noteRetrain n (updPort n (fun x => { x with replays := 0, link := .retrain }) s1)))
    ∧ (∀ again : Bool, n < 8 → y.link = .l0 →
      let k := if again then y.replays + 1 else 1
      let s1 := emit (.nak (32 + n)) (bump .tryErrors n 48 16 1 (updTray n (fun x => { x with replays := k }) s))
      exec (.crcReplay true p again) s = .next (if k < 4 then s1 else noteTrayRetrain n (updTray n (fun x => { x with replays := 0, link := .retrain }) s1)))
    ∧ (n < 20 → x.link = .retrain → exec (.retrainLimitExpiry false p) s = .next (moved s (retrainTimeout n (portFail n .down (bump .prtLinkStatus n 0 16 1 (limitOver (retrainLimit false n) s))))))
    ∧ (n < 8 → y.link = .retrain → exec (.retrainLimitExpiry true p) s = .next (moved s (trayFail n (bump .tryLinkStatus n 0 16 1 (limitOver (retrainLimit true n) s)))))
    ∧ ((.ide n) ∈ (domain s (pdFabric n)).holds → exec (.ideKeysReady p) s = .next (moved s (resumeDomain (pdFabric n) (ideReady n s))))
    ∧ (∀ m : BitVec 3, (tray s m.toNat).session = true →
      exec (.moduleSessionEnd m) s = .next (moved s (emit (.spdmReq true m.toNat 0) (moduleGone m.toNat stAborted false (updTray m.toNat (fun x => { x with session := false }) s)))))
    ∧ (3 ≤ s.gaf.stage → s.chip.sleep = 0 → s.kpr.lockdown = false → s.gaf.bootHalt = false →
      (n < 20 → pdOn s (pdFabric n) = true → x.link = .detect → s.gaf.blobValid = true → x.trainMode ≠ 2 →
        exec (.portStart false p) s = .next (updPort n (fun x => { x with started := true, link := .training }) s))
      ∧ (n < 8 → pdOn s (pdTray n) = true → y.link = .detect → y.hold = false →
        exec (.portStart true p) s = .next (updTray n (fun x => { x with started := true, link := .training }) s)))

/-- R376, R392, R394, Table 16.11: out of reset and awake, with nothing that holds boot, a stage whose conditions hold is followed by the next, with the domains, clocks and settings that it brings up. R400, R401 and R355: a clock in range clears its count; the second window out of range, or the loss of the clock, is a failure; an uncorrectable key-slot error is logged and fences the tents under that slot. -/
def Obligations.BootClockAndKeyEvents : Prop :=
   (∀ (b0 b1 : List Byte) (s : State), s.chip.inReset = false → s.chip.sleep = 0 → s.gaf.bootHalt = false → s.gaf.errorHalt = false → bit s.chip.straps 4 = false →
      (∀ t, bootStep b0 b1 s = some t → exec (.bootStageAdvance b0 b1) s = .next { t with gaf := { t.gaf with stage := s.gaf.stage + 1 } })
      ∧ (s.gaf.stage = 0 → ∃ t, exec (.bootStageAdvance b0 b1) s = .next t ∧ t.gaf.stage = 1 ∧ pdState t 2 = .on ∧ t.kpr.deviceKey = !s.kpr.lockdown)
      ∧ (s.gaf.stage = 3 → exec (.bootStageAdvance b0 b1) s = .next { s with gaf := { s.gaf with stage := 4 } })
      ∧ (6 ≤ s.gaf.stage → exec (.bootStageAdvance b0 b1) s = .next s))
   ∧
   ((∀ (c : BitVec 5) (s : State), clockRuns s c.toNat = true →
        exec (.clockMonitorWindow c true) s = .next (moved s (updPll c.toNat (fun x => { x with bad := 0, locked := true }) s))
        ∧ (c ≠ 18 → ((find s.chip.plls c.toNat).getD {}).bad = 0 →
            exec (.clockMonitorWindow c false) s = .next (moved s (updPll c.toNat (fun x => { x with bad := x.bad + 1, locked := if c.toNat < 15 then x.locked else false }) s)))
        ∧ (1 ≤ ((find s.chip.plls c.toNat).getD {}).bad → exec (.clockMonitorWindow c false) s = .next (moved s (clockFails c.toNat s)))
        ∧ exec (.clockFailure c) s = .next (moved s (clockFails c.toNat s)))
    ∧ (∀ (k : BitVec 7) (s : State), s.chip.inReset = false → s.chip.sleep ≠ 2 →
        ∃ o, o < 2 ^ 64 ∧ exec (.keySlotError k) s = .next (moved s (fenceTents ((s.kpr.tents.filter fun e => e.2.slot = k.toNat).map Prod.fst)
          (ras 0x05 2 none (selfNode s) 8 o { s with freeIx := s.freeIx + 1 })))))

/-- R387 to R390, R398, R356, Table 17.1: each source of a device reset causes one, with its cause and detail, where it applies; the power-on reset of the auxiliary rail keeps nothing but the blob minimum and what lies outside the device; RST_N holds the reset, and its release starts boot with the straps sampled. R391 and Table 17.2: a device reset keeps the RAS log, the lockdown and tamper latches and the blob minimum, counts itself and notes its cause; map, pooled memory, tents and queues are as after reset, and the commands waiting are untouched. -/
def Obligations.DeviceResets : Prop :=
   (∀ (s : State),
      (let t := auxReset s
       exec .auxPor s = .next { t with chip := { t.chip with rails := s.chip.rails, pinHeld := s.chip.pinHeld } })
      ∧ (s.chip.rails = false → exec .powerOn s = .next (let t := deviceReset cPowerOn 0 s; { t with chip := { t.chip with rails := true } }))
      ∧ (∀ r : BitVec 3, r ≠ 7 → s.chip.rails = true → s.chip.sleep ≠ 2 → s.chip.pinHeld = false →
          exec (.brownOut r) s = .next (let t := deviceReset cBrownOut r.toNat s; { t with chip := { t.chip with rails := false } }))
      ∧ (s.chip.pinHeld = false → s.chip.rails = true →
          exec .resetPin s = .next (let t := deviceReset cPin 0 s; { t with chip := { t.chip with pinHeld := true, pins := put t.chip.pins 100 { level := false } } }))
      ∧ (∀ v : BitVec 5, s.chip.inReset = true → s.chip.rails = true → s.chip.pinHeld = false →
          exec (.resetRelease v) s = .next (sampleTamper 2 (sampleTamper 1 (setPd 1 .on { s with chip := { s.chip with inReset := false, straps := v.toNat } }))))
      ∧ (wdogRuns s = true → exec .watchdogExpiry s = .next (deviceReset cWatchdog 0 (clockTo (s.chip.wdog + wdogPeriod s * 1000000) s)))
      ∧ (endpointUp s = true → writesServed s = true → wdogPeriod s ≠ 0 → exec .watchdogKick s = .next (wdogRestart s))
      ∧ (endpointUp s = true → s.kpr.lockdown = false → exec .softwareDeviceReset s = .next (deviceReset cSoftware 0 s))
      ∧ exec .debugDeviceReset s = .next (deviceReset cDebug 0 s)
      ∧ (∀ k : Bool, s.chip.inReset = false → exec (.lockup k) s = .next (deviceReset cLockup (if k then 1 else 0) s))
      ∧ (∀ (t : BitVec 16) (e : BitVec 64), exec (.mapUncorrectable t e) s = .next (critical 7 (errorHaltNow t.toNat e.toNat) s))
      ∧ (∀ st : BitVec 4, (st = 7 ∨ st = 9) → s.chip.inReset = false → s.chip.sleep ≠ 2 → s.gaf.errorHalt = false → startUp s = true → s.chip.critStreak < 4 →
          exec (.critState st) s = .next (deviceReset cCrit st.toNat s)))
   ∧
   (∀ (cause detail : Nat) (s : State),
      let t := deviceReset cause detail s
      t.kpr.ras = s.kpr.ras ∧ t.kpr.lockdown = s.kpr.lockdown ∧ t.kpr.lid = s.kpr.lid ∧ t.kpr.light = s.kpr.light ∧ t.kpr.mesh = s.kpr.mesh
        ∧ t.kpr.blobMin = s.kpr.blobMin ∧ t.chip.count = satAdd 32 s.chip.count 1 ∧ t.chip.causes = (cause :: s.chip.causes).take 8 ∧ t.chip.lastDetail = detail
        ∧ t.chip.inReset = true ∧ t.pending = s.pending ∧ t.gaf = State.reset.gaf ∧ t.pool = State.reset.pool ∧ t.qm = State.reset.qm ∧ t.win = [] ∧ t.crw = State.reset.crw
        ∧ t.kpr.tents = [] ∧ t.mapReg = [])

/-- R334, R419, R420, R423, R425, R428 and Tables 18.5, 18.6, 18.8: a hard or soft alarm has its response; a mesh sample that differs twice in a row is a hard alarm; a temperature is shown, kept as the highest, and one out of range is a soft alarm; an accepted level goes to its input; a discarded excursion is counted; an input held too long is STUCK; a fan's edges become its speed; a pin leaves its safe level. -/
def Obligations.TamperAndPinEvents : Prop :=
  (∀ (k : BitVec 2) (s : State), k ≠ 0 →
      let s0 := setLatch k.toNat s
      let s1 := ras 0x0D 3 none (selfNode s0) k.toNat 0 s0
      let zeroed := holdDiff s1 (zeroiseAll (abortKeyOps s1))
      let fenced := fenceTents (keys zeroed.kpr.tents) zeroed
      let locked := holdTraining (dropCommits { fenced with kpr := { fenced.kpr with lockdown := true } })
      (latched s k.toNat = false → s.kpr.deviceKey = false → s.kpr.lockdown = false → s.chip.sleep = 0 →
        exec (.tamperHardAlarm k) s = .next (moved s { s1 with gaf := { s1.gaf with bootHalt := true, stage := 14 } }))
      ∧ (latched s k.toNat = false → (s.kpr.deviceKey = true ∨ s.kpr.lockdown = true ∨ s.chip.sleep ≠ 0) →
        exec (.tamperHardAlarm k) s = .next (moved s (if locked.chip.sleep = 1 || locked.chip.sleepOp.any (·.state = 1) then wakeBy 4 locked else locked)))
      ∧ (latched s k.toNat = true → exec (.tamperHardAlarm k) s = .next (drain s)))
  ∧ (∀ (hot : Bool) (s : State), ∃ now, s.now ≤ now ∧
      let recent := s.kpr.soft.filter (fun t => now < t + 1000000000) ++ [now]
      let n := if hot then 5 else 4
      let s1 := attn 11 (setFld .kprTamperStatus 0 (if hot then 4 else 3) 1 1
        (bump .kprTamperStatus 0 48 8 1 { s with freeIx := s.freeIx + 1, now := now, kpr := { s.kpr with soft := recent } }))
      let s2 := ras 0x0D 3 none (selfNode s1) n 0 s1
      (4 ≤ recent.length → exec (.tamperSoftAlarm hot) s = .next (moved s (hardResponse n s1)))
      ∧ (recent.length < 4 → s.chip.sleep ≠ 0 → exec (.tamperSoftAlarm hot) s = .next (moved s s2))
      ∧ (recent.length < 4 → s.chip.sleep = 0 → s.kpr.deviceKey = false → s.kpr.lockdown = false →
        exec (.tamperSoftAlarm hot) s = .next (moved s { s2 with gaf := { s2.gaf with bootHalt := true, stage := 14 } }))
      ∧ (recent.length < 4 → s.chip.sleep = 0 → (s.kpr.deviceKey = true ∨ s.kpr.lockdown = true) →
        exec (.tamperSoftAlarm hot) s = .next (moved s (fenceTents (servedTents s2) (abortKeyOps s2)))))
  ∧ (∀ (l : Bool) (s : State), ∃ x,
      let bad := if l = s.kpr.lfsr.getLsbD 0 then 0 else s.kpr.meshMiss + 1
      let s1 := { s with freeIx := s.freeIx + 1, kpr := { s.kpr with lfsr := x, meshMiss := bad } }
      exec (.meshSample l) s = .next (moved s (if 2 ≤ bad then hardAlarm 3 s1 else s1)))
  ∧ (∀ (t : BitVec 16) (s : State), ioBank s = true → -160 ≤ t.toInt → t.toInt ≤ 1840 →
      let c : Int := fld s .pinTherm 0 48 8
      let s1 := { s with chip := { s.chip with therm := if c * 16 ≤ t.toInt then true else if t.toInt < (c - 5) * 16 then false else s.chip.therm } }
      let s2 := setFld .pinTherm 0 0 16 t.toNat s1
      exec (.tempSample t) s = .next (moved s (if degrees (fld s2 .pinTherm 0 32 16) < t.toInt then setFld .pinTherm 0 32 16 t.toNat s2 else s2)))
  ∧ (∀ (n : BitVec 5) (l : Bool) (s : State),
      let at_ : State := updInput n.toNat (fun x => { x with level := l }) s
      let was := (input s n.toNat).level
      (n = 0 → l = true → s.chip.pinHeld = true → exec (.inputAccepted n l) s = .next (moved s { at_ with chip := { at_.chip with pinHeld := false } }))
      ∧ (n = 0 → l = true → s.chip.pinHeld = false → was = false → exec (.inputAccepted n l) s = .next (moved s (countGlitch 0 at_)))
      ∧ (n = 0 → (l = false ∨ s.chip.pinHeld = false ∧ was = true) → exec (.inputAccepted n l) s = .next (moved s at_))
      ∧ (n = 1 → exec (.inputAccepted n l) s = .next (moved s (if was && !l then wakeBy 1 at_ else at_)))
      ∧ ((n = 2 ∨ n = 3) → exec (.inputAccepted n l) s = .next (moved s (if l && !was then hardAlarm (n.toNat - 1) at_ else at_)))
      ∧ (n = 4 → exec (.inputAccepted n l) s = .next (moved s at_))
      ∧ (ioBank s = true → 5 ≤ n.toNat → n.toNat ≤ 8 →
        let s1 := updInput n.toNat (fun x => { x with level := l, stuck := if l then false else x.stuck }) s
        exec (.inputAccepted n l) s = .next (moved s (if was && !l then startLimit (stuckLimit n.toNat) 10000000 (setFld .pinIrqStatus 0 (n.toNat - 5) 1 1 s1) else s1)))
      ∧ (ioBank s = true → 16 ≤ n.toNat → gpfInput s (n.toNat - 16) = true →
        let x := pin s (n.toNat - 16)
        let s1 := updPin (n.toNat - 16) (fun x => { x with
          level := l, stuck := if x.func = 3 && l = x.polarity then x.stuck else false, edges := if x.func = 5 && x.level && !l then x.edges + 1 else x.edges }) s
        exec (.inputAccepted n l) s = .next (moved s (if x.func = 3 && l = x.polarity && x.level != x.polarity then startLimit (stuckLimit (16 + (n.toNat - 16))) 10000000 (setFld .pinIrqStatus 0 (4 + (n.toNat - 16)) 1 1 s1) else s1)))
      ∧ (n.toNat ≤ 4 → exec (.inputGlitch n) s = .next (countGlitch n.toNat s))
      ∧ (ioBank s = true → 5 ≤ n.toNat → n.toNat ≤ 8 → (input s n.toNat).level = false → exec (.stuckTimer n) s = .next (updInput n.toNat (fun x => { x with stuck := true }) (limitOver (stuckLimit n.toNat) s)))
      ∧ (ioBank s = true → 16 ≤ n.toNat → (pin s (n.toNat - 16)).func = 3 → (pin s (n.toNat - 16)).safe = false → (pin s (n.toNat - 16)).level = (pin s (n.toNat - 16)).polarity →
          exec (.stuckTimer n) s = .next (updPin (n.toNat - 16) (fun x => { x with stuck := true }) (limitOver (stuckLimit n.toNat) s))))
  ∧ (∀ (n : BitVec 4) (s : State),
      (ioBank s = true → (pin s n.toNat).safe = true → gpfDrive s n.toNat = .level (safeLevel n.toNat))
      ∧ ((pin s n.toNat).func = 5 → exec (.tachUpdate n) s = .next (updPin n.toNat (fun x => { x with tach := min x.edges 65535, edges := 0 }) s))
      ∧ ((pin s n.toNat).safe = true →
          exec (.safeIntervalEnd n) s = .next (updPin n.toNat (fun x => { x with safe := false, level := x.func = 3 && !x.polarity, edges := 0, tach := 0, stuck := false }) s)))

/-! ### Rules of the whole machine -/

/-- R390: PERIOD_MS is 0 after every device reset, and while it is 0 the watchdog is disabled; 0x5A in KICK restarts the period of a watchdog that is enabled; while the reset pin holds the device in reset, and while the device sleeps, its expiry does nothing; otherwise the expiry is a device reset. -/
def Obligations.WatchdogRule : Prop :=
  (∀ (cause detail : Nat) (s : State), wdogPeriod (deviceReset cause detail s) = 0)
  ∧ (∀ s : State,
      ((wdogPeriod s = 0 ∨ s.chip.inReset = true ∨ s.chip.sleep ≠ 0) → exec .watchdogExpiry s = .next s)
      ∧ (wdogRuns s = true → ∃ t, exec .watchdogExpiry s = .next t ∧ t.chip.inReset = true ∧ t.chip.count = satAdd 32 s.chip.count 1 ∧ t.chip.causes.head? = some cWatchdog)
      ∧ (endpointUp s = true → writesServed s = true → wdogPeriod s ≠ 0 →
          ∃ now, s.now ≤ now ∧ exec .watchdogKick s = .next { s with freeIx := s.freeIx + 1, now := now, chip := { s.chip with wdog := now } })
      ∧ (wdogPeriod s = 0 → exec .watchdogKick s = .next s))

/-- R429: THERM_N is asserted by a highest reading at or above THERM_C and released by one below THERM_C − 5 °C; between the two it stays as it is. THERM_C is 100 °C after reset. -/
def Obligations.ThermRule : Prop :=
  fld State.reset .pinTherm 0 48 8 = 100
  ∧ ∀ (t : BitVec 16) (s : State), ∃ u,
      let c : Int := fld s .pinTherm 0 48 8
      (exec (.tempSample t) s = .next (drain u) ∨ exec (.tempSample t) s = .next (moved s (softAlarm true u)))
      ∧ (c * 16 ≤ t.toInt → u.chip.therm = true) ∧ (t.toInt < (c - 5) * 16 → u.chip.therm = false)
      ∧ ((c - 5) * 16 ≤ t.toInt → t.toInt < c * 16 → u.chip.therm = s.chip.therm)

/-- R169, R180 and R331: the instructions that compute, branch, or touch the cell's local memory change nothing outside the cell's own crew but the XLOCK count and the model's own free-value counter, in whatever state they run and however they end. -/
def Obligations.ComputingInstructionsStayInTheirCrew : Prop :=
  ∀ (c : CellId) (cc : CC) (d a b : BitVec 5) (p q r : BitVec 3) (i : BitVec 12) (j : BitVec 6) (u : BitVec 20) (v w x t : BitVec 4) (y z : BitVec 2) (n : Instr) (s : State),
    n ∈ burporForms c cc d a b p q r i j u v w x t y z →
    n ∉ [Instr.dsub c d a, .dwait c d, .dpoll c d, .cadd c d a b, .cld c d a, .cwait c d a b, .qput c d a b, .qget c d a b, .fence c, .bar c, .halt c] →
    ∃ crw csr k, (csr = s.csr ∨ csr = (countXlock (cellNum c / 32) s).csr)
      ∧ (let t : State := { s with crw := crw, csr := csr, freeIx := k }
         exec n s = .next t
         ∧ (∀ m, m / 32 ≠ cellNum c / 32 → cellOf t m = cellOf s m) ∧ ∀ m, m ≠ cellNum c / 32 → crewOf t m = crewOf s m)

/-- R49 and the reset values that the spec states: after reset the epoch is 0 and the map is empty; no region, tent, queue, window, guy line or command is there; every cell is IDLE; boot has not begun; and with epoch 0 a request of any port is refused. -/
def Obligations.StateAfterReset : Prop :=
  (let s := State.reset
   s.pending = [] ∧ s.gaf.epoch = 0 ∧ s.mapReg = [] ∧ s.fab.nodes = [] ∧ s.fab.decoders = [] ∧ s.fab.attach = [] ∧ s.fab.gate = [] ∧ s.fab.self = none ∧ s.pool.regions = []
     ∧ s.kpr.tents = [] ∧ s.kpr.guys = [] ∧ s.kpr.replicas = [] ∧ s.qm.queues = [] ∧ s.qm.shapers = [] ∧ s.gaf.cmdqs = [] ∧ s.gaf.takes = [] ∧ s.gaf.clappers = []
     ∧ s.gaf.claims = [] ∧ s.win = [] ∧ s.gaf.stage = 0 ∧ s.kpr.lockdown = false ∧ (∀ n, (cellOf s n).state = .idle))
  ∧ (∀ (s : State) (p : Nat), s.gaf.epoch = 0 → refusing s p = true)
end

