-- ==== Sys2Proof/Laws/Tables.lean ====
section
/-! SUPPORT. Laws of the sparse tables and byte tables: a read after a write, other keys kept, and the canonical form that every operation keeps. -/

namespace Sys2Proof.Machine

variable {α : Type}

@[simp] theorem find_nil (k : Nat) : find ([] : List (Nat × α)) k = none := rfl

@[simp] theorem find_put_same (t : List (Nat × α)) (k : Nat) (a : α) : find (put t k a) k = some a := by
  induction t with
  | nil => simp [put, find]
  | cons e t ih =>
    obtain ⟨j, b⟩ := e
    simp only [put]
    split
    · simp [find]
    · split
      · simp [find]
      · next h => simp [find, Ne.symm h, ih]

theorem find_put_other (t : List (Nat × α)) {k j : Nat} (a : α) (h : j ≠ k) : find (put t k a) j = find t j := by
  induction t with
  | nil => simp [put, find, Ne.symm h]
  | cons e t ih =>
    obtain ⟨i, b⟩ := e
    simp only [put]
    split
    · simp [find, Ne.symm h]
    · split
      · next hk => subst hk; simp [find, Ne.symm h]
      · simp [find, ih]

@[simp] theorem put_put (t : List (Nat × α)) (k : Nat) (a b : α) : put (put t k a) k b = put t k b := by
  induction t with
  | nil => simp [put]
  | cons e t ih =>
    obtain ⟨j, x⟩ := e
    simp only [put]
    split
    · simp [put]
    · split
      · simp [put]
      · next h1 h2 => simp [put, h1, h2, ih]

@[simp] theorem find_del_same (t : List (Nat × α)) (k : Nat) : find (del t k) k = none := by
  induction t with
  | nil => rfl
  | cons e t ih =>
    obtain ⟨i, b⟩ := e
    by_cases h : i = k
    · subst h; simpa [del] using ih
    · simpa [del, h, find] using ih

theorem find_del_other (t : List (Nat × α)) {k j : Nat} (h : j ≠ k) : find (del t k) j = find t j := by
  induction t with
  | nil => rfl
  | cons e t ih =>
    obtain ⟨i, b⟩ := e
    by_cases hk : i = k
    · subst hk; simpa [del, find, Ne.symm h] using ih
    · simp only [del] at ih
      simp [del, hk, find, ih]

theorem find_upd (t : List (Nat × α)) (k j : Nat) (f : α → α) :
    find (upd t k f) j = if j = k then (find t j).map f else find t j := by
  induction t with
  | nil => simp [upd, find]
  | cons e t ih =>
    obtain ⟨i, b⟩ := e
    simp only [upd] at ih
    by_cases h : i = k <;> by_cases hj : i = j <;> by_cases hjk : j = k <;> simp_all [upd, find]

@[simp] theorem byteAt_nil (a : Nat) : byteAt [] a = 0 := rfl

@[simp] theorem byteAt_setByte_same (m : List (Nat × Byte)) (a : Nat) (b : Byte) : byteAt (setByte m a b) a = b := by
  unfold byteAt setByte
  split <;> simp_all

theorem byteAt_setByte_other (m : List (Nat × Byte)) {a j : Nat} (b : Byte) (h : j ≠ a) : byteAt (setByte m a b) j = byteAt m j := by
  unfold byteAt setByte
  split
  · rw [find_del_other _ h]
  · rw [find_put_other _ _ h]

/-- A byte outside the stored range reads as before. -/
theorem byteAt_writeBytes_outside (bs : List Byte) (m : List (Nat × Byte)) {a j : Nat} (h : j < a ∨ a + bs.length ≤ j) :
    byteAt (writeBytes m a bs) j = byteAt m j := by
  induction bs generalizing m a with
  | nil => rfl
  | cons b bs ih =>
    simp only [List.length_cons] at h
    rw [writeBytes, ih _ (by omega), byteAt_setByte_other _ _ (by omega)]

/-- A byte of the stored range reads as it was stored. -/
theorem byteAt_writeBytes_inside (bs : List Byte) (m : List (Nat × Byte)) (a i : Nat) (h : i < bs.length) :
    byteAt (writeBytes m a bs) (a + i) = bs[i] := by
  induction bs generalizing m a i with
  | nil => simp at h
  | cons b bs ih =>
    cases i with
    | zero => rw [writeBytes, byteAt_writeBytes_outside _ _ (by omega)]; simp
    | succ i => rw [writeBytes, show a + (i + 1) = a + 1 + i by omega, ih _ _ _ (by simpa using h)]; simp

@[simp] theorem readBytes_length (m : List (Nat × Byte)) (a n : Nat) : (readBytes m a n).length = n := by
  induction n generalizing a with
  | zero => rfl
  | succ n ih => simp [readBytes, ih]

/-! ### The canonical form -/

theorem sorted_tail {e : Nat × α} {t : List (Nat × α)} (h : sorted (e :: t)) : sorted t := by
  cases t with
  | nil => rfl
  | cons f t => simp only [sorted, Bool.and_eq_true] at h; exact h.2

theorem sorted_cons (e : Nat × α) (t : List (Nat × α)) (h : sorted t) (hk : ∀ x ∈ t, e.1 < x.1) : sorted (e :: t) := by
  cases t with
  | nil => rfl
  | cons f t => simp only [sorted, Bool.and_eq_true, decide_eq_true_eq]; exact ⟨hk f (by simp), h⟩

theorem sorted_lt {e : Nat × α} {t : List (Nat × α)} (h : sorted (e :: t)) : ∀ x ∈ t, e.1 < x.1 := by
  induction t generalizing e with
  | nil => simp
  | cons f t ih =>
    simp only [sorted, Bool.and_eq_true, decide_eq_true_eq] at h
    intro x hx
    rcases List.mem_cons.1 hx with rfl | hx
    · exact h.1
    · exact Nat.lt_trans h.1 (ih h.2 x hx)

theorem sorted_filter (p : Nat × α → Bool) (t : List (Nat × α)) (h : sorted t) : sorted (t.filter p) := by
  induction t with
  | nil => rfl
  | cons e t ih =>
    by_cases hp : p e
    · rw [List.filter_cons_of_pos hp]
      exact sorted_cons _ _ (ih (sorted_tail h)) fun x hx => sorted_lt h x (List.mem_filter.1 hx).1
    · rw [List.filter_cons_of_neg hp]; exact ih (sorted_tail h)

theorem sorted_del (t : List (Nat × α)) (k : Nat) (h : sorted t) : sorted (del t k) := sorted_filter _ _ h

theorem sorted_map (f : Nat × α → Nat × α) (hf : ∀ e, (f e).1 = e.1) (t : List (Nat × α)) (h : sorted t) : sorted (t.map f) := by
  induction t with
  | nil => rfl
  | cons e t ih =>
    refine sorted_cons _ _ (ih (sorted_tail h)) fun x hx => ?_
    obtain ⟨y, hy, rfl⟩ := List.mem_map.1 hx
    rw [hf, hf]; exact sorted_lt h y hy

theorem sorted_upd (t : List (Nat × α)) (k : Nat) (f : α → α) (h : sorted t) : sorted (upd t k f) :=
  sorted_map _ (fun e => by split <;> rfl) _ h

theorem mem_put (t : List (Nat × α)) (k : Nat) (a : α) (e : Nat × α) (h : e ∈ put t k a) : e = (k, a) ∨ e ∈ t := by
  induction t with
  | nil => simpa [put] using h
  | cons f t ih =>
    obtain ⟨i, b⟩ := f
    simp only [put] at h
    split at h
    · simpa using h
    · split at h
      · rcases List.mem_cons.1 h with h | h <;> simp [h]
      · rcases List.mem_cons.1 h with h | h
        · simp [h]
        · rcases ih h with h | h <;> simp [h]

theorem sorted_put (t : List (Nat × α)) (k : Nat) (a : α) (h : sorted t) : sorted (put t k a) := by
  induction t with
  | nil => rfl
  | cons e t ih =>
    obtain ⟨i, b⟩ := e
    have hl := sorted_lt h
    simp only [put]
    split
    · next hk =>
      refine sorted_cons _ _ h fun x hx => ?_
      rcases List.mem_cons.1 hx with rfl | hx
      · exact hk
      · exact Nat.lt_trans hk (hl x hx)
    · split
      · next hk => subst hk; exact sorted_cons _ _ (sorted_tail h) hl
      · next h1 h2 =>
        refine sorted_cons _ _ (ih (sorted_tail h)) fun x hx => ?_
        rcases mem_put _ _ _ _ hx with rfl | hx
        · show i < k; omega
        · exact hl x hx

/-- Storing a byte keeps the canonical form. -/
theorem setByte_wf (m : List (Nat × Byte)) (a : Nat) (b : Byte) (h : Memory.wf m) : Memory.wf (setByte m a b) := by
  simp only [Memory.wf, Bool.and_eq_true, List.all_eq_true] at h ⊢
  unfold setByte
  split
  · exact ⟨sorted_del _ _ h.1, fun x hx => h.2 x (List.mem_filter.1 hx).1⟩
  · next hb =>
    refine ⟨sorted_put _ _ _ h.1, fun x hx => ?_⟩
    rcases mem_put _ _ _ _ hx with rfl | hx
    · simpa using hb
    · exact h.2 x hx

/-- Storing bytes keeps the canonical form. -/
theorem writeBytes_wf (bs : List Byte) (m : List (Nat × Byte)) (a : Nat) (h : Memory.wf m) : Memory.wf (writeBytes m a bs) := by
  induction bs generalizing m a with
  | nil => exact h
  | cons b bs ih => exact ih _ _ (setByte_wf _ _ _ h)

/-- Zeroing a range keeps the canonical form. -/
theorem zeroBytes_wf (m : List (Nat × Byte)) (a n : Nat) (h : Memory.wf m) : Memory.wf (zeroBytes m a n) := by
  simp only [Memory.wf, Bool.and_eq_true, List.all_eq_true] at h ⊢
  exact ⟨sorted_filter _ _ h.1, fun x hx => h.2 x (List.mem_filter.1 hx).1⟩

theorem find_none_of_lt (t : List (Nat × α)) (k : Nat) (h : ∀ x ∈ t, k < x.1) : find t k = none := by
  induction t with
  | nil => rfl
  | cons e t ih =>
    obtain ⟨i, b⟩ := e
    have := h (i, b) (by simp)
    simp only [find]
    rw [if_neg (by dsimp at this; omega)]
    exact ih fun x hx => h x (by simp [hx])

/-- The bytes read back from a range just stored are the bytes stored. -/
theorem readBytes_writeBytes (bs : List Byte) (m : List (Nat × Byte)) (a : Nat) : readBytes (writeBytes m a bs) a bs.length = bs := by
  have key : ∀ (l : List Byte) (t : List (Nat × Byte)) (b : Nat),
      (∀ i (h : i < l.length), byteAt t (b + i) = l[i]) → readBytes t b l.length = l := by
    intro l
    induction l with
    | nil => intros; rfl
    | cons x xs ih =>
      intro t b h
      simp only [List.length_cons, readBytes]
      congr 1
      · exact h 0 (by simp)
      · exact ih t (b + 1) fun i hi => by
          have := h (i + 1) (by simpa using hi)
          rw [show b + 1 + i = b + (i + 1) by omega, this]; simp
  exact key bs _ _ fun i hi => byteAt_writeBytes_inside bs m a i hi

/-- Reads that do not meet a stored range are kept. -/
theorem readBytes_writeBytes_disjoint (bs : List Byte) (m : List (Nat × Byte)) (a b n : Nat) (h : b + n ≤ a ∨ a + bs.length ≤ b) :
    readBytes (writeBytes m a bs) b n = readBytes m b n := by
  induction n generalizing b with
  | zero => rfl
  | succ n ih =>
    simp only [readBytes]
    rw [byteAt_writeBytes_outside _ _ (by omega), ih (b + 1) (by omega)]

end Sys2Proof.Machine
end

