-- ==== Sys2Proof/Laws/State.lean ====
section
/-! SUPPORT. For each update of State: the fields that it leaves as they are, what it reads back as, and register fields after a write. -/

namespace Sys2Proof.Machine

@[simp] theorem updCell_pending (n : Nat) (f : Cell → Cell) (s : State) : (updCell n f s).pending = s.pending := rfl
@[simp] theorem updCell_csr (n : Nat) (f : Cell → Cell) (s : State) : (updCell n f s).csr = s.csr := rfl
@[simp] theorem updCell_mapReg (n : Nat) (f : Cell → Cell) (s : State) : (updCell n f s).mapReg = s.mapReg := rfl
@[simp] theorem updCell_gaf (n : Nat) (f : Cell → Cell) (s : State) : (updCell n f s).gaf = s.gaf := rfl
@[simp] theorem updCell_fab (n : Nat) (f : Cell → Cell) (s : State) : (updCell n f s).fab = s.fab := rfl
@[simp] theorem updCell_pool (n : Nat) (f : Cell → Cell) (s : State) : (updCell n f s).pool = s.pool := rfl
@[simp] theorem updCell_qm (n : Nat) (f : Cell → Cell) (s : State) : (updCell n f s).qm = s.qm := rfl
@[simp] theorem updCell_coh (n : Nat) (f : Cell → Cell) (s : State) : (updCell n f s).coh = s.coh := rfl
@[simp] theorem updCell_kpr (n : Nat) (f : Cell → Cell) (s : State) : (updCell n f s).kpr = s.kpr := rfl
@[simp] theorem updCell_chip (n : Nat) (f : Cell → Cell) (s : State) : (updCell n f s).chip = s.chip := rfl
@[simp] theorem updCell_win (n : Nat) (f : Cell → Cell) (s : State) : (updCell n f s).win = s.win := rfl
@[simp] theorem updCell_gth (n : Nat) (f : Cell → Cell) (s : State) : (updCell n f s).gth = s.gth := rfl
@[simp] theorem updCell_nbu (n : Nat) (f : Cell → Cell) (s : State) : (updCell n f s).nbu = s.nbu := rfl
@[simp] theorem updCell_now (n : Nat) (f : Cell → Cell) (s : State) : (updCell n f s).now = s.now := rfl
@[simp] theorem updCell_freeIx (n : Nat) (f : Cell → Cell) (s : State) : (updCell n f s).freeIx = s.freeIx := rfl

@[simp] theorem updCrew_pending (k : Nat) (f : Crew → Crew) (s : State) : (updCrew k f s).pending = s.pending := rfl
@[simp] theorem updCrew_csr (k : Nat) (f : Crew → Crew) (s : State) : (updCrew k f s).csr = s.csr := rfl
@[simp] theorem updCrew_mapReg (k : Nat) (f : Crew → Crew) (s : State) : (updCrew k f s).mapReg = s.mapReg := rfl
@[simp] theorem updCrew_gaf (k : Nat) (f : Crew → Crew) (s : State) : (updCrew k f s).gaf = s.gaf := rfl
@[simp] theorem updCrew_fab (k : Nat) (f : Crew → Crew) (s : State) : (updCrew k f s).fab = s.fab := rfl
@[simp] theorem updCrew_pool (k : Nat) (f : Crew → Crew) (s : State) : (updCrew k f s).pool = s.pool := rfl
@[simp] theorem updCrew_qm (k : Nat) (f : Crew → Crew) (s : State) : (updCrew k f s).qm = s.qm := rfl
@[simp] theorem updCrew_coh (k : Nat) (f : Crew → Crew) (s : State) : (updCrew k f s).coh = s.coh := rfl
@[simp] theorem updCrew_kpr (k : Nat) (f : Crew → Crew) (s : State) : (updCrew k f s).kpr = s.kpr := rfl
@[simp] theorem updCrew_chip (k : Nat) (f : Crew → Crew) (s : State) : (updCrew k f s).chip = s.chip := rfl
@[simp] theorem updCrew_win (k : Nat) (f : Crew → Crew) (s : State) : (updCrew k f s).win = s.win := rfl
@[simp] theorem updCrew_gth (k : Nat) (f : Crew → Crew) (s : State) : (updCrew k f s).gth = s.gth := rfl
@[simp] theorem updCrew_nbu (k : Nat) (f : Crew → Crew) (s : State) : (updCrew k f s).nbu = s.nbu := rfl
@[simp] theorem updCrew_now (k : Nat) (f : Crew → Crew) (s : State) : (updCrew k f s).now = s.now := rfl
@[simp] theorem updCrew_freeIx (k : Nat) (f : Crew → Crew) (s : State) : (updCrew k f s).freeIx = s.freeIx := rfl

@[simp] theorem updRegion_pending (k : Nat) (f : Region → Region) (s : State) : (updRegion k f s).pending = s.pending := rfl
@[simp] theorem updRegion_csr (k : Nat) (f : Region → Region) (s : State) : (updRegion k f s).csr = s.csr := rfl
@[simp] theorem updRegion_mapReg (k : Nat) (f : Region → Region) (s : State) : (updRegion k f s).mapReg = s.mapReg := rfl
@[simp] theorem updRegion_gaf (k : Nat) (f : Region → Region) (s : State) : (updRegion k f s).gaf = s.gaf := rfl
@[simp] theorem updRegion_fab (k : Nat) (f : Region → Region) (s : State) : (updRegion k f s).fab = s.fab := rfl
@[simp] theorem updRegion_qm (k : Nat) (f : Region → Region) (s : State) : (updRegion k f s).qm = s.qm := rfl
@[simp] theorem updRegion_coh (k : Nat) (f : Region → Region) (s : State) : (updRegion k f s).coh = s.coh := rfl
@[simp] theorem updRegion_kpr (k : Nat) (f : Region → Region) (s : State) : (updRegion k f s).kpr = s.kpr := rfl
@[simp] theorem updRegion_chip (k : Nat) (f : Region → Region) (s : State) : (updRegion k f s).chip = s.chip := rfl
@[simp] theorem updRegion_crw (k : Nat) (f : Region → Region) (s : State) : (updRegion k f s).crw = s.crw := rfl
@[simp] theorem updRegion_win (k : Nat) (f : Region → Region) (s : State) : (updRegion k f s).win = s.win := rfl
@[simp] theorem updRegion_gth (k : Nat) (f : Region → Region) (s : State) : (updRegion k f s).gth = s.gth := rfl
@[simp] theorem updRegion_nbu (k : Nat) (f : Region → Region) (s : State) : (updRegion k f s).nbu = s.nbu := rfl
@[simp] theorem updRegion_now (k : Nat) (f : Region → Region) (s : State) : (updRegion k f s).now = s.now := rfl
@[simp] theorem updRegion_freeIx (k : Nat) (f : Region → Region) (s : State) : (updRegion k f s).freeIx = s.freeIx := rfl

@[simp] theorem updTake_pending (id : Nat) (f : Take → Take) (s : State) : (updTake id f s).pending = s.pending := rfl
@[simp] theorem updTake_csr (id : Nat) (f : Take → Take) (s : State) : (updTake id f s).csr = s.csr := rfl
@[simp] theorem updTake_mapReg (id : Nat) (f : Take → Take) (s : State) : (updTake id f s).mapReg = s.mapReg := rfl
@[simp] theorem updTake_fab (id : Nat) (f : Take → Take) (s : State) : (updTake id f s).fab = s.fab := rfl
@[simp] theorem updTake_pool (id : Nat) (f : Take → Take) (s : State) : (updTake id f s).pool = s.pool := rfl
@[simp] theorem updTake_qm (id : Nat) (f : Take → Take) (s : State) : (updTake id f s).qm = s.qm := rfl
@[simp] theorem updTake_coh (id : Nat) (f : Take → Take) (s : State) : (updTake id f s).coh = s.coh := rfl
@[simp] theorem updTake_kpr (id : Nat) (f : Take → Take) (s : State) : (updTake id f s).kpr = s.kpr := rfl
@[simp] theorem updTake_chip (id : Nat) (f : Take → Take) (s : State) : (updTake id f s).chip = s.chip := rfl
@[simp] theorem updTake_crw (id : Nat) (f : Take → Take) (s : State) : (updTake id f s).crw = s.crw := rfl
@[simp] theorem updTake_win (id : Nat) (f : Take → Take) (s : State) : (updTake id f s).win = s.win := rfl
@[simp] theorem updTake_gth (id : Nat) (f : Take → Take) (s : State) : (updTake id f s).gth = s.gth := rfl
@[simp] theorem updTake_nbu (id : Nat) (f : Take → Take) (s : State) : (updTake id f s).nbu = s.nbu := rfl
@[simp] theorem updTake_now (id : Nat) (f : Take → Take) (s : State) : (updTake id f s).now = s.now := rfl
@[simp] theorem updTake_freeIx (id : Nat) (f : Take → Take) (s : State) : (updTake id f s).freeIx = s.freeIx := rfl

@[simp] theorem updShaper_pending (k : Nat) (f : Shaper → Shaper) (s : State) : (updShaper k f s).pending = s.pending := rfl
@[simp] theorem updShaper_csr (k : Nat) (f : Shaper → Shaper) (s : State) : (updShaper k f s).csr = s.csr := rfl
@[simp] theorem updShaper_mapReg (k : Nat) (f : Shaper → Shaper) (s : State) : (updShaper k f s).mapReg = s.mapReg := rfl
@[simp] theorem updShaper_gaf (k : Nat) (f : Shaper → Shaper) (s : State) : (updShaper k f s).gaf = s.gaf := rfl
@[simp] theorem updShaper_fab (k : Nat) (f : Shaper → Shaper) (s : State) : (updShaper k f s).fab = s.fab := rfl
@[simp] theorem updShaper_pool (k : Nat) (f : Shaper → Shaper) (s : State) : (updShaper k f s).pool = s.pool := rfl
@[simp] theorem updShaper_coh (k : Nat) (f : Shaper → Shaper) (s : State) : (updShaper k f s).coh = s.coh := rfl
@[simp] theorem updShaper_kpr (k : Nat) (f : Shaper → Shaper) (s : State) : (updShaper k f s).kpr = s.kpr := rfl
@[simp] theorem updShaper_chip (k : Nat) (f : Shaper → Shaper) (s : State) : (updShaper k f s).chip = s.chip := rfl
@[simp] theorem updShaper_crw (k : Nat) (f : Shaper → Shaper) (s : State) : (updShaper k f s).crw = s.crw := rfl
@[simp] theorem updShaper_win (k : Nat) (f : Shaper → Shaper) (s : State) : (updShaper k f s).win = s.win := rfl
@[simp] theorem updShaper_gth (k : Nat) (f : Shaper → Shaper) (s : State) : (updShaper k f s).gth = s.gth := rfl
@[simp] theorem updShaper_nbu (k : Nat) (f : Shaper → Shaper) (s : State) : (updShaper k f s).nbu = s.nbu := rfl
@[simp] theorem updShaper_now (k : Nat) (f : Shaper → Shaper) (s : State) : (updShaper k f s).now = s.now := rfl
@[simp] theorem updShaper_freeIx (k : Nat) (f : Shaper → Shaper) (s : State) : (updShaper k f s).freeIx = s.freeIx := rfl

@[simp] theorem updArb_pending (code : Nat) (f : Arb → Arb) (s : State) : (updArb code f s).pending = s.pending := rfl
@[simp] theorem updArb_csr (code : Nat) (f : Arb → Arb) (s : State) : (updArb code f s).csr = s.csr := rfl
@[simp] theorem updArb_mapReg (code : Nat) (f : Arb → Arb) (s : State) : (updArb code f s).mapReg = s.mapReg := rfl
@[simp] theorem updArb_gaf (code : Nat) (f : Arb → Arb) (s : State) : (updArb code f s).gaf = s.gaf := rfl
@[simp] theorem updArb_fab (code : Nat) (f : Arb → Arb) (s : State) : (updArb code f s).fab = s.fab := rfl
@[simp] theorem updArb_pool (code : Nat) (f : Arb → Arb) (s : State) : (updArb code f s).pool = s.pool := rfl
@[simp] theorem updArb_coh (code : Nat) (f : Arb → Arb) (s : State) : (updArb code f s).coh = s.coh := rfl
@[simp] theorem updArb_kpr (code : Nat) (f : Arb → Arb) (s : State) : (updArb code f s).kpr = s.kpr := rfl
@[simp] theorem updArb_chip (code : Nat) (f : Arb → Arb) (s : State) : (updArb code f s).chip = s.chip := rfl
@[simp] theorem updArb_crw (code : Nat) (f : Arb → Arb) (s : State) : (updArb code f s).crw = s.crw := rfl
@[simp] theorem updArb_win (code : Nat) (f : Arb → Arb) (s : State) : (updArb code f s).win = s.win := rfl
@[simp] theorem updArb_gth (code : Nat) (f : Arb → Arb) (s : State) : (updArb code f s).gth = s.gth := rfl
@[simp] theorem updArb_nbu (code : Nat) (f : Arb → Arb) (s : State) : (updArb code f s).nbu = s.nbu := rfl
@[simp] theorem updArb_now (code : Nat) (f : Arb → Arb) (s : State) : (updArb code f s).now = s.now := rfl
@[simp] theorem updArb_freeIx (code : Nat) (f : Arb → Arb) (s : State) : (updArb code f s).freeIx = s.freeIx := rfl

@[simp] theorem updTxn_pending (id : Nat) (f : Txn → Txn) (s : State) : (updTxn id f s).pending = s.pending := rfl
@[simp] theorem updTxn_csr (id : Nat) (f : Txn → Txn) (s : State) : (updTxn id f s).csr = s.csr := rfl
@[simp] theorem updTxn_mapReg (id : Nat) (f : Txn → Txn) (s : State) : (updTxn id f s).mapReg = s.mapReg := rfl
@[simp] theorem updTxn_gaf (id : Nat) (f : Txn → Txn) (s : State) : (updTxn id f s).gaf = s.gaf := rfl
@[simp] theorem updTxn_pool (id : Nat) (f : Txn → Txn) (s : State) : (updTxn id f s).pool = s.pool := rfl
@[simp] theorem updTxn_qm (id : Nat) (f : Txn → Txn) (s : State) : (updTxn id f s).qm = s.qm := rfl
@[simp] theorem updTxn_coh (id : Nat) (f : Txn → Txn) (s : State) : (updTxn id f s).coh = s.coh := rfl
@[simp] theorem updTxn_kpr (id : Nat) (f : Txn → Txn) (s : State) : (updTxn id f s).kpr = s.kpr := rfl
@[simp] theorem updTxn_chip (id : Nat) (f : Txn → Txn) (s : State) : (updTxn id f s).chip = s.chip := rfl
@[simp] theorem updTxn_crw (id : Nat) (f : Txn → Txn) (s : State) : (updTxn id f s).crw = s.crw := rfl
@[simp] theorem updTxn_win (id : Nat) (f : Txn → Txn) (s : State) : (updTxn id f s).win = s.win := rfl
@[simp] theorem updTxn_gth (id : Nat) (f : Txn → Txn) (s : State) : (updTxn id f s).gth = s.gth := rfl
@[simp] theorem updTxn_nbu (id : Nat) (f : Txn → Txn) (s : State) : (updTxn id f s).nbu = s.nbu := rfl
@[simp] theorem updTxn_now (id : Nat) (f : Txn → Txn) (s : State) : (updTxn id f s).now = s.now := rfl
@[simp] theorem updTxn_freeIx (id : Nat) (f : Txn → Txn) (s : State) : (updTxn id f s).freeIx = s.freeIx := rfl

@[simp] theorem addTxn_pending (x : Txn) (s : State) : (addTxn x s).pending = s.pending := rfl
@[simp] theorem addTxn_csr (x : Txn) (s : State) : (addTxn x s).csr = s.csr := rfl
@[simp] theorem addTxn_mapReg (x : Txn) (s : State) : (addTxn x s).mapReg = s.mapReg := rfl
@[simp] theorem addTxn_gaf (x : Txn) (s : State) : (addTxn x s).gaf = s.gaf := rfl
@[simp] theorem addTxn_pool (x : Txn) (s : State) : (addTxn x s).pool = s.pool := rfl
@[simp] theorem addTxn_qm (x : Txn) (s : State) : (addTxn x s).qm = s.qm := rfl
@[simp] theorem addTxn_coh (x : Txn) (s : State) : (addTxn x s).coh = s.coh := rfl
@[simp] theorem addTxn_kpr (x : Txn) (s : State) : (addTxn x s).kpr = s.kpr := rfl
@[simp] theorem addTxn_chip (x : Txn) (s : State) : (addTxn x s).chip = s.chip := rfl
@[simp] theorem addTxn_crw (x : Txn) (s : State) : (addTxn x s).crw = s.crw := rfl
@[simp] theorem addTxn_win (x : Txn) (s : State) : (addTxn x s).win = s.win := rfl
@[simp] theorem addTxn_gth (x : Txn) (s : State) : (addTxn x s).gth = s.gth := rfl
@[simp] theorem addTxn_nbu (x : Txn) (s : State) : (addTxn x s).nbu = s.nbu := rfl
@[simp] theorem addTxn_now (x : Txn) (s : State) : (addTxn x s).now = s.now := rfl
@[simp] theorem addTxn_freeIx (x : Txn) (s : State) : (addTxn x s).freeIx = s.freeIx := rfl

@[simp] theorem updGth_pending (f : Gather → Gather) (s : State) : (updGth f s).pending = s.pending := rfl
@[simp] theorem updGth_csr (f : Gather → Gather) (s : State) : (updGth f s).csr = s.csr := rfl
@[simp] theorem updGth_mapReg (f : Gather → Gather) (s : State) : (updGth f s).mapReg = s.mapReg := rfl
@[simp] theorem updGth_gaf (f : Gather → Gather) (s : State) : (updGth f s).gaf = s.gaf := rfl
@[simp] theorem updGth_fab (f : Gather → Gather) (s : State) : (updGth f s).fab = s.fab := rfl
@[simp] theorem updGth_pool (f : Gather → Gather) (s : State) : (updGth f s).pool = s.pool := rfl
@[simp] theorem updGth_qm (f : Gather → Gather) (s : State) : (updGth f s).qm = s.qm := rfl
@[simp] theorem updGth_coh (f : Gather → Gather) (s : State) : (updGth f s).coh = s.coh := rfl
@[simp] theorem updGth_kpr (f : Gather → Gather) (s : State) : (updGth f s).kpr = s.kpr := rfl
@[simp] theorem updGth_chip (f : Gather → Gather) (s : State) : (updGth f s).chip = s.chip := rfl
@[simp] theorem updGth_crw (f : Gather → Gather) (s : State) : (updGth f s).crw = s.crw := rfl
@[simp] theorem updGth_win (f : Gather → Gather) (s : State) : (updGth f s).win = s.win := rfl
@[simp] theorem updGth_nbu (f : Gather → Gather) (s : State) : (updGth f s).nbu = s.nbu := rfl
@[simp] theorem updGth_now (f : Gather → Gather) (s : State) : (updGth f s).now = s.now := rfl
@[simp] theorem updGth_freeIx (f : Gather → Gather) (s : State) : (updGth f s).freeIx = s.freeIx := rfl

@[simp] theorem updDomain_pending (d : Nat) (f : Domain → Domain) (s : State) : (updDomain d f s).pending = s.pending := rfl
@[simp] theorem updDomain_csr (d : Nat) (f : Domain → Domain) (s : State) : (updDomain d f s).csr = s.csr := rfl
@[simp] theorem updDomain_mapReg (d : Nat) (f : Domain → Domain) (s : State) : (updDomain d f s).mapReg = s.mapReg := rfl
@[simp] theorem updDomain_gaf (d : Nat) (f : Domain → Domain) (s : State) : (updDomain d f s).gaf = s.gaf := rfl
@[simp] theorem updDomain_fab (d : Nat) (f : Domain → Domain) (s : State) : (updDomain d f s).fab = s.fab := rfl
@[simp] theorem updDomain_pool (d : Nat) (f : Domain → Domain) (s : State) : (updDomain d f s).pool = s.pool := rfl
@[simp] theorem updDomain_qm (d : Nat) (f : Domain → Domain) (s : State) : (updDomain d f s).qm = s.qm := rfl
@[simp] theorem updDomain_coh (d : Nat) (f : Domain → Domain) (s : State) : (updDomain d f s).coh = s.coh := rfl
@[simp] theorem updDomain_kpr (d : Nat) (f : Domain → Domain) (s : State) : (updDomain d f s).kpr = s.kpr := rfl
@[simp] theorem updDomain_crw (d : Nat) (f : Domain → Domain) (s : State) : (updDomain d f s).crw = s.crw := rfl
@[simp] theorem updDomain_win (d : Nat) (f : Domain → Domain) (s : State) : (updDomain d f s).win = s.win := rfl
@[simp] theorem updDomain_gth (d : Nat) (f : Domain → Domain) (s : State) : (updDomain d f s).gth = s.gth := rfl
@[simp] theorem updDomain_nbu (d : Nat) (f : Domain → Domain) (s : State) : (updDomain d f s).nbu = s.nbu := rfl
@[simp] theorem updDomain_now (d : Nat) (f : Domain → Domain) (s : State) : (updDomain d f s).now = s.now := rfl
@[simp] theorem updDomain_freeIx (d : Nat) (f : Domain → Domain) (s : State) : (updDomain d f s).freeIx = s.freeIx := rfl

@[simp] theorem updHw_pending (k : Nat) (f : HwQueue → HwQueue) (s : State) : (updHw k f s).pending = s.pending := rfl
@[simp] theorem updHw_csr (k : Nat) (f : HwQueue → HwQueue) (s : State) : (updHw k f s).csr = s.csr := rfl
@[simp] theorem updHw_mapReg (k : Nat) (f : HwQueue → HwQueue) (s : State) : (updHw k f s).mapReg = s.mapReg := rfl
@[simp] theorem updHw_gaf (k : Nat) (f : HwQueue → HwQueue) (s : State) : (updHw k f s).gaf = s.gaf := rfl
@[simp] theorem updHw_fab (k : Nat) (f : HwQueue → HwQueue) (s : State) : (updHw k f s).fab = s.fab := rfl
@[simp] theorem updHw_pool (k : Nat) (f : HwQueue → HwQueue) (s : State) : (updHw k f s).pool = s.pool := rfl
@[simp] theorem updHw_coh (k : Nat) (f : HwQueue → HwQueue) (s : State) : (updHw k f s).coh = s.coh := rfl
@[simp] theorem updHw_kpr (k : Nat) (f : HwQueue → HwQueue) (s : State) : (updHw k f s).kpr = s.kpr := rfl
@[simp] theorem updHw_chip (k : Nat) (f : HwQueue → HwQueue) (s : State) : (updHw k f s).chip = s.chip := rfl
@[simp] theorem updHw_crw (k : Nat) (f : HwQueue → HwQueue) (s : State) : (updHw k f s).crw = s.crw := rfl
@[simp] theorem updHw_win (k : Nat) (f : HwQueue → HwQueue) (s : State) : (updHw k f s).win = s.win := rfl
@[simp] theorem updHw_gth (k : Nat) (f : HwQueue → HwQueue) (s : State) : (updHw k f s).gth = s.gth := rfl
@[simp] theorem updHw_nbu (k : Nat) (f : HwQueue → HwQueue) (s : State) : (updHw k f s).nbu = s.nbu := rfl
@[simp] theorem updHw_now (k : Nat) (f : HwQueue → HwQueue) (s : State) : (updHw k f s).now = s.now := rfl
@[simp] theorem updHw_freeIx (k : Nat) (f : HwQueue → HwQueue) (s : State) : (updHw k f s).freeIx = s.freeIx := rfl

@[simp] theorem updPort_pending (p : Nat) (f : FPort → FPort) (s : State) : (updPort p f s).pending = s.pending := rfl
@[simp] theorem updPort_csr (p : Nat) (f : FPort → FPort) (s : State) : (updPort p f s).csr = s.csr := rfl
@[simp] theorem updPort_mapReg (p : Nat) (f : FPort → FPort) (s : State) : (updPort p f s).mapReg = s.mapReg := rfl
@[simp] theorem updPort_gaf (p : Nat) (f : FPort → FPort) (s : State) : (updPort p f s).gaf = s.gaf := rfl
@[simp] theorem updPort_pool (p : Nat) (f : FPort → FPort) (s : State) : (updPort p f s).pool = s.pool := rfl
@[simp] theorem updPort_qm (p : Nat) (f : FPort → FPort) (s : State) : (updPort p f s).qm = s.qm := rfl
@[simp] theorem updPort_coh (p : Nat) (f : FPort → FPort) (s : State) : (updPort p f s).coh = s.coh := rfl
@[simp] theorem updPort_kpr (p : Nat) (f : FPort → FPort) (s : State) : (updPort p f s).kpr = s.kpr := rfl
@[simp] theorem updPort_chip (p : Nat) (f : FPort → FPort) (s : State) : (updPort p f s).chip = s.chip := rfl
@[simp] theorem updPort_crw (p : Nat) (f : FPort → FPort) (s : State) : (updPort p f s).crw = s.crw := rfl
@[simp] theorem updPort_win (p : Nat) (f : FPort → FPort) (s : State) : (updPort p f s).win = s.win := rfl
@[simp] theorem updPort_gth (p : Nat) (f : FPort → FPort) (s : State) : (updPort p f s).gth = s.gth := rfl
@[simp] theorem updPort_nbu (p : Nat) (f : FPort → FPort) (s : State) : (updPort p f s).nbu = s.nbu := rfl
@[simp] theorem updPort_now (p : Nat) (f : FPort → FPort) (s : State) : (updPort p f s).now = s.now := rfl
@[simp] theorem updPort_freeIx (p : Nat) (f : FPort → FPort) (s : State) : (updPort p f s).freeIx = s.freeIx := rfl

@[simp] theorem updTent_pending (t : Nat) (f : Tent → Tent) (s : State) : (updTent t f s).pending = s.pending := rfl
@[simp] theorem updTent_csr (t : Nat) (f : Tent → Tent) (s : State) : (updTent t f s).csr = s.csr := rfl
@[simp] theorem updTent_mapReg (t : Nat) (f : Tent → Tent) (s : State) : (updTent t f s).mapReg = s.mapReg := rfl
@[simp] theorem updTent_gaf (t : Nat) (f : Tent → Tent) (s : State) : (updTent t f s).gaf = s.gaf := rfl
@[simp] theorem updTent_fab (t : Nat) (f : Tent → Tent) (s : State) : (updTent t f s).fab = s.fab := rfl
@[simp] theorem updTent_pool (t : Nat) (f : Tent → Tent) (s : State) : (updTent t f s).pool = s.pool := rfl
@[simp] theorem updTent_qm (t : Nat) (f : Tent → Tent) (s : State) : (updTent t f s).qm = s.qm := rfl
@[simp] theorem updTent_coh (t : Nat) (f : Tent → Tent) (s : State) : (updTent t f s).coh = s.coh := rfl
@[simp] theorem updTent_chip (t : Nat) (f : Tent → Tent) (s : State) : (updTent t f s).chip = s.chip := rfl
@[simp] theorem updTent_crw (t : Nat) (f : Tent → Tent) (s : State) : (updTent t f s).crw = s.crw := rfl
@[simp] theorem updTent_win (t : Nat) (f : Tent → Tent) (s : State) : (updTent t f s).win = s.win := rfl
@[simp] theorem updTent_gth (t : Nat) (f : Tent → Tent) (s : State) : (updTent t f s).gth = s.gth := rfl
@[simp] theorem updTent_nbu (t : Nat) (f : Tent → Tent) (s : State) : (updTent t f s).nbu = s.nbu := rfl
@[simp] theorem updTent_now (t : Nat) (f : Tent → Tent) (s : State) : (updTent t f s).now = s.now := rfl
@[simp] theorem updTent_freeIx (t : Nat) (f : Tent → Tent) (s : State) : (updTent t f s).freeIx = s.freeIx := rfl

@[simp] theorem windowWrite_pending (off : Nat) (bs : List Byte) (s : State) : (windowWrite off bs s).pending = s.pending := rfl
@[simp] theorem windowWrite_csr (off : Nat) (bs : List Byte) (s : State) : (windowWrite off bs s).csr = s.csr := rfl
@[simp] theorem windowWrite_mapReg (off : Nat) (bs : List Byte) (s : State) : (windowWrite off bs s).mapReg = s.mapReg := rfl
@[simp] theorem windowWrite_fab (off : Nat) (bs : List Byte) (s : State) : (windowWrite off bs s).fab = s.fab := rfl
@[simp] theorem windowWrite_pool (off : Nat) (bs : List Byte) (s : State) : (windowWrite off bs s).pool = s.pool := rfl
@[simp] theorem windowWrite_qm (off : Nat) (bs : List Byte) (s : State) : (windowWrite off bs s).qm = s.qm := rfl
@[simp] theorem windowWrite_coh (off : Nat) (bs : List Byte) (s : State) : (windowWrite off bs s).coh = s.coh := rfl
@[simp] theorem windowWrite_kpr (off : Nat) (bs : List Byte) (s : State) : (windowWrite off bs s).kpr = s.kpr := rfl
@[simp] theorem windowWrite_chip (off : Nat) (bs : List Byte) (s : State) : (windowWrite off bs s).chip = s.chip := rfl
@[simp] theorem windowWrite_crw (off : Nat) (bs : List Byte) (s : State) : (windowWrite off bs s).crw = s.crw := rfl
@[simp] theorem windowWrite_win (off : Nat) (bs : List Byte) (s : State) : (windowWrite off bs s).win = s.win := rfl
@[simp] theorem windowWrite_gth (off : Nat) (bs : List Byte) (s : State) : (windowWrite off bs s).gth = s.gth := rfl
@[simp] theorem windowWrite_nbu (off : Nat) (bs : List Byte) (s : State) : (windowWrite off bs s).nbu = s.nbu := rfl
@[simp] theorem windowWrite_now (off : Nat) (bs : List Byte) (s : State) : (windowWrite off bs s).now = s.now := rfl
@[simp] theorem windowWrite_freeIx (off : Nat) (bs : List Byte) (s : State) : (windowWrite off bs s).freeIx = s.freeIx := rfl

@[simp] theorem tileWrite_pending (tile off : Nat) (bs : List Byte) (s : State) : (tileWrite tile off bs s).pending = s.pending := rfl
@[simp] theorem tileWrite_csr (tile off : Nat) (bs : List Byte) (s : State) : (tileWrite tile off bs s).csr = s.csr := rfl
@[simp] theorem tileWrite_mapReg (tile off : Nat) (bs : List Byte) (s : State) : (tileWrite tile off bs s).mapReg = s.mapReg := rfl
@[simp] theorem tileWrite_gaf (tile off : Nat) (bs : List Byte) (s : State) : (tileWrite tile off bs s).gaf = s.gaf := rfl
@[simp] theorem tileWrite_fab (tile off : Nat) (bs : List Byte) (s : State) : (tileWrite tile off bs s).fab = s.fab := rfl
@[simp] theorem tileWrite_qm (tile off : Nat) (bs : List Byte) (s : State) : (tileWrite tile off bs s).qm = s.qm := rfl
@[simp] theorem tileWrite_coh (tile off : Nat) (bs : List Byte) (s : State) : (tileWrite tile off bs s).coh = s.coh := rfl
@[simp] theorem tileWrite_kpr (tile off : Nat) (bs : List Byte) (s : State) : (tileWrite tile off bs s).kpr = s.kpr := rfl
@[simp] theorem tileWrite_chip (tile off : Nat) (bs : List Byte) (s : State) : (tileWrite tile off bs s).chip = s.chip := rfl
@[simp] theorem tileWrite_crw (tile off : Nat) (bs : List Byte) (s : State) : (tileWrite tile off bs s).crw = s.crw := rfl
@[simp] theorem tileWrite_win (tile off : Nat) (bs : List Byte) (s : State) : (tileWrite tile off bs s).win = s.win := rfl
@[simp] theorem tileWrite_gth (tile off : Nat) (bs : List Byte) (s : State) : (tileWrite tile off bs s).gth = s.gth := rfl
@[simp] theorem tileWrite_nbu (tile off : Nat) (bs : List Byte) (s : State) : (tileWrite tile off bs s).nbu = s.nbu := rfl
@[simp] theorem tileWrite_now (tile off : Nat) (bs : List Byte) (s : State) : (tileWrite tile off bs s).now = s.now := rfl
@[simp] theorem tileWrite_freeIx (tile off : Nat) (bs : List Byte) (s : State) : (tileWrite tile off bs s).freeIx = s.freeIx := rfl

@[simp] theorem setPoison_pending (tile line : Nat) (b : Bool) (s : State) : (setPoison tile line b s).pending = s.pending := rfl
@[simp] theorem setPoison_csr (tile line : Nat) (b : Bool) (s : State) : (setPoison tile line b s).csr = s.csr := rfl
@[simp] theorem setPoison_mapReg (tile line : Nat) (b : Bool) (s : State) : (setPoison tile line b s).mapReg = s.mapReg := rfl
@[simp] theorem setPoison_gaf (tile line : Nat) (b : Bool) (s : State) : (setPoison tile line b s).gaf = s.gaf := rfl
@[simp] theorem setPoison_fab (tile line : Nat) (b : Bool) (s : State) : (setPoison tile line b s).fab = s.fab := rfl
@[simp] theorem setPoison_qm (tile line : Nat) (b : Bool) (s : State) : (setPoison tile line b s).qm = s.qm := rfl
@[simp] theorem setPoison_coh (tile line : Nat) (b : Bool) (s : State) : (setPoison tile line b s).coh = s.coh := rfl
@[simp] theorem setPoison_kpr (tile line : Nat) (b : Bool) (s : State) : (setPoison tile line b s).kpr = s.kpr := rfl
@[simp] theorem setPoison_chip (tile line : Nat) (b : Bool) (s : State) : (setPoison tile line b s).chip = s.chip := rfl
@[simp] theorem setPoison_crw (tile line : Nat) (b : Bool) (s : State) : (setPoison tile line b s).crw = s.crw := rfl
@[simp] theorem setPoison_win (tile line : Nat) (b : Bool) (s : State) : (setPoison tile line b s).win = s.win := rfl
@[simp] theorem setPoison_gth (tile line : Nat) (b : Bool) (s : State) : (setPoison tile line b s).gth = s.gth := rfl
@[simp] theorem setPoison_nbu (tile line : Nat) (b : Bool) (s : State) : (setPoison tile line b s).nbu = s.nbu := rfl
@[simp] theorem setPoison_now (tile line : Nat) (b : Bool) (s : State) : (setPoison tile line b s).now = s.now := rfl
@[simp] theorem setPoison_freeIx (tile line : Nat) (b : Bool) (s : State) : (setPoison tile line b s).freeIx = s.freeIx := rfl

@[simp] theorem updTray_pending (m : Nat) (f : Tray → Tray) (s : State) : (updTray m f s).pending = s.pending := rfl
@[simp] theorem updTray_csr (m : Nat) (f : Tray → Tray) (s : State) : (updTray m f s).csr = s.csr := rfl
@[simp] theorem updTray_mapReg (m : Nat) (f : Tray → Tray) (s : State) : (updTray m f s).mapReg = s.mapReg := rfl
@[simp] theorem updTray_gaf (m : Nat) (f : Tray → Tray) (s : State) : (updTray m f s).gaf = s.gaf := rfl
@[simp] theorem updTray_pool (m : Nat) (f : Tray → Tray) (s : State) : (updTray m f s).pool = s.pool := rfl
@[simp] theorem updTray_qm (m : Nat) (f : Tray → Tray) (s : State) : (updTray m f s).qm = s.qm := rfl
@[simp] theorem updTray_coh (m : Nat) (f : Tray → Tray) (s : State) : (updTray m f s).coh = s.coh := rfl
@[simp] theorem updTray_kpr (m : Nat) (f : Tray → Tray) (s : State) : (updTray m f s).kpr = s.kpr := rfl
@[simp] theorem updTray_chip (m : Nat) (f : Tray → Tray) (s : State) : (updTray m f s).chip = s.chip := rfl
@[simp] theorem updTray_crw (m : Nat) (f : Tray → Tray) (s : State) : (updTray m f s).crw = s.crw := rfl
@[simp] theorem updTray_win (m : Nat) (f : Tray → Tray) (s : State) : (updTray m f s).win = s.win := rfl
@[simp] theorem updTray_gth (m : Nat) (f : Tray → Tray) (s : State) : (updTray m f s).gth = s.gth := rfl
@[simp] theorem updTray_nbu (m : Nat) (f : Tray → Tray) (s : State) : (updTray m f s).nbu = s.nbu := rfl
@[simp] theorem updTray_now (m : Nat) (f : Tray → Tray) (s : State) : (updTray m f s).now = s.now := rfl
@[simp] theorem updTray_freeIx (m : Nat) (f : Tray → Tray) (s : State) : (updTray m f s).freeIx = s.freeIx := rfl

@[simp] theorem updNbu_pending (m : Nat) (f : Nbu → Nbu) (s : State) : (updNbu m f s).pending = s.pending := rfl
@[simp] theorem updNbu_csr (m : Nat) (f : Nbu → Nbu) (s : State) : (updNbu m f s).csr = s.csr := rfl
@[simp] theorem updNbu_mapReg (m : Nat) (f : Nbu → Nbu) (s : State) : (updNbu m f s).mapReg = s.mapReg := rfl
@[simp] theorem updNbu_gaf (m : Nat) (f : Nbu → Nbu) (s : State) : (updNbu m f s).gaf = s.gaf := rfl
@[simp] theorem updNbu_fab (m : Nat) (f : Nbu → Nbu) (s : State) : (updNbu m f s).fab = s.fab := rfl
@[simp] theorem updNbu_pool (m : Nat) (f : Nbu → Nbu) (s : State) : (updNbu m f s).pool = s.pool := rfl
@[simp] theorem updNbu_qm (m : Nat) (f : Nbu → Nbu) (s : State) : (updNbu m f s).qm = s.qm := rfl
@[simp] theorem updNbu_coh (m : Nat) (f : Nbu → Nbu) (s : State) : (updNbu m f s).coh = s.coh := rfl
@[simp] theorem updNbu_kpr (m : Nat) (f : Nbu → Nbu) (s : State) : (updNbu m f s).kpr = s.kpr := rfl
@[simp] theorem updNbu_chip (m : Nat) (f : Nbu → Nbu) (s : State) : (updNbu m f s).chip = s.chip := rfl
@[simp] theorem updNbu_crw (m : Nat) (f : Nbu → Nbu) (s : State) : (updNbu m f s).crw = s.crw := rfl
@[simp] theorem updNbu_win (m : Nat) (f : Nbu → Nbu) (s : State) : (updNbu m f s).win = s.win := rfl
@[simp] theorem updNbu_gth (m : Nat) (f : Nbu → Nbu) (s : State) : (updNbu m f s).gth = s.gth := rfl
@[simp] theorem updNbu_now (m : Nat) (f : Nbu → Nbu) (s : State) : (updNbu m f s).now = s.now := rfl
@[simp] theorem updNbu_freeIx (m : Nat) (f : Nbu → Nbu) (s : State) : (updNbu m f s).freeIx = s.freeIx := rfl

@[simp] theorem updInput_pending (c : Nat) (f : Pin → Pin) (s : State) : (updInput c f s).pending = s.pending := rfl
@[simp] theorem updInput_csr (c : Nat) (f : Pin → Pin) (s : State) : (updInput c f s).csr = s.csr := rfl
@[simp] theorem updInput_mapReg (c : Nat) (f : Pin → Pin) (s : State) : (updInput c f s).mapReg = s.mapReg := rfl
@[simp] theorem updInput_gaf (c : Nat) (f : Pin → Pin) (s : State) : (updInput c f s).gaf = s.gaf := rfl
@[simp] theorem updInput_fab (c : Nat) (f : Pin → Pin) (s : State) : (updInput c f s).fab = s.fab := rfl
@[simp] theorem updInput_pool (c : Nat) (f : Pin → Pin) (s : State) : (updInput c f s).pool = s.pool := rfl
@[simp] theorem updInput_qm (c : Nat) (f : Pin → Pin) (s : State) : (updInput c f s).qm = s.qm := rfl
@[simp] theorem updInput_coh (c : Nat) (f : Pin → Pin) (s : State) : (updInput c f s).coh = s.coh := rfl
@[simp] theorem updInput_kpr (c : Nat) (f : Pin → Pin) (s : State) : (updInput c f s).kpr = s.kpr := rfl
@[simp] theorem updInput_crw (c : Nat) (f : Pin → Pin) (s : State) : (updInput c f s).crw = s.crw := rfl
@[simp] theorem updInput_win (c : Nat) (f : Pin → Pin) (s : State) : (updInput c f s).win = s.win := rfl
@[simp] theorem updInput_gth (c : Nat) (f : Pin → Pin) (s : State) : (updInput c f s).gth = s.gth := rfl
@[simp] theorem updInput_nbu (c : Nat) (f : Pin → Pin) (s : State) : (updInput c f s).nbu = s.nbu := rfl
@[simp] theorem updInput_now (c : Nat) (f : Pin → Pin) (s : State) : (updInput c f s).now = s.now := rfl
@[simp] theorem updInput_freeIx (c : Nat) (f : Pin → Pin) (s : State) : (updInput c f s).freeIx = s.freeIx := rfl

@[simp] theorem updPin_pending (n : Nat) (f : Pin → Pin) (s : State) : (updPin n f s).pending = s.pending := rfl
@[simp] theorem updPin_csr (n : Nat) (f : Pin → Pin) (s : State) : (updPin n f s).csr = s.csr := rfl
@[simp] theorem updPin_mapReg (n : Nat) (f : Pin → Pin) (s : State) : (updPin n f s).mapReg = s.mapReg := rfl
@[simp] theorem updPin_gaf (n : Nat) (f : Pin → Pin) (s : State) : (updPin n f s).gaf = s.gaf := rfl
@[simp] theorem updPin_fab (n : Nat) (f : Pin → Pin) (s : State) : (updPin n f s).fab = s.fab := rfl
@[simp] theorem updPin_pool (n : Nat) (f : Pin → Pin) (s : State) : (updPin n f s).pool = s.pool := rfl
@[simp] theorem updPin_qm (n : Nat) (f : Pin → Pin) (s : State) : (updPin n f s).qm = s.qm := rfl
@[simp] theorem updPin_coh (n : Nat) (f : Pin → Pin) (s : State) : (updPin n f s).coh = s.coh := rfl
@[simp] theorem updPin_kpr (n : Nat) (f : Pin → Pin) (s : State) : (updPin n f s).kpr = s.kpr := rfl
@[simp] theorem updPin_crw (n : Nat) (f : Pin → Pin) (s : State) : (updPin n f s).crw = s.crw := rfl
@[simp] theorem updPin_win (n : Nat) (f : Pin → Pin) (s : State) : (updPin n f s).win = s.win := rfl
@[simp] theorem updPin_gth (n : Nat) (f : Pin → Pin) (s : State) : (updPin n f s).gth = s.gth := rfl
@[simp] theorem updPin_nbu (n : Nat) (f : Pin → Pin) (s : State) : (updPin n f s).nbu = s.nbu := rfl
@[simp] theorem updPin_now (n : Nat) (f : Pin → Pin) (s : State) : (updPin n f s).now = s.now := rfl
@[simp] theorem updPin_freeIx (n : Nat) (f : Pin → Pin) (s : State) : (updPin n f s).freeIx = s.freeIx := rfl

@[simp] theorem updPll_pending (i : Nat) (f : Pll → Pll) (s : State) : (updPll i f s).pending = s.pending := rfl
@[simp] theorem updPll_csr (i : Nat) (f : Pll → Pll) (s : State) : (updPll i f s).csr = s.csr := rfl
@[simp] theorem updPll_mapReg (i : Nat) (f : Pll → Pll) (s : State) : (updPll i f s).mapReg = s.mapReg := rfl
@[simp] theorem updPll_gaf (i : Nat) (f : Pll → Pll) (s : State) : (updPll i f s).gaf = s.gaf := rfl
@[simp] theorem updPll_fab (i : Nat) (f : Pll → Pll) (s : State) : (updPll i f s).fab = s.fab := rfl
@[simp] theorem updPll_pool (i : Nat) (f : Pll → Pll) (s : State) : (updPll i f s).pool = s.pool := rfl
@[simp] theorem updPll_qm (i : Nat) (f : Pll → Pll) (s : State) : (updPll i f s).qm = s.qm := rfl
@[simp] theorem updPll_coh (i : Nat) (f : Pll → Pll) (s : State) : (updPll i f s).coh = s.coh := rfl
@[simp] theorem updPll_kpr (i : Nat) (f : Pll → Pll) (s : State) : (updPll i f s).kpr = s.kpr := rfl
@[simp] theorem updPll_crw (i : Nat) (f : Pll → Pll) (s : State) : (updPll i f s).crw = s.crw := rfl
@[simp] theorem updPll_win (i : Nat) (f : Pll → Pll) (s : State) : (updPll i f s).win = s.win := rfl
@[simp] theorem updPll_gth (i : Nat) (f : Pll → Pll) (s : State) : (updPll i f s).gth = s.gth := rfl
@[simp] theorem updPll_nbu (i : Nat) (f : Pll → Pll) (s : State) : (updPll i f s).nbu = s.nbu := rfl
@[simp] theorem updPll_now (i : Nat) (f : Pll → Pll) (s : State) : (updPll i f s).now = s.now := rfl
@[simp] theorem updPll_freeIx (i : Nat) (f : Pll → Pll) (s : State) : (updPll i f s).freeIx = s.freeIx := rfl

@[simp] theorem putReset_pending (code : Nat) (b : BlockReset) (s : State) : (putReset code b s).pending = s.pending := rfl
@[simp] theorem putReset_csr (code : Nat) (b : BlockReset) (s : State) : (putReset code b s).csr = s.csr := rfl
@[simp] theorem putReset_mapReg (code : Nat) (b : BlockReset) (s : State) : (putReset code b s).mapReg = s.mapReg := rfl
@[simp] theorem putReset_gaf (code : Nat) (b : BlockReset) (s : State) : (putReset code b s).gaf = s.gaf := rfl
@[simp] theorem putReset_fab (code : Nat) (b : BlockReset) (s : State) : (putReset code b s).fab = s.fab := rfl
@[simp] theorem putReset_pool (code : Nat) (b : BlockReset) (s : State) : (putReset code b s).pool = s.pool := rfl
@[simp] theorem putReset_qm (code : Nat) (b : BlockReset) (s : State) : (putReset code b s).qm = s.qm := rfl
@[simp] theorem putReset_coh (code : Nat) (b : BlockReset) (s : State) : (putReset code b s).coh = s.coh := rfl
@[simp] theorem putReset_kpr (code : Nat) (b : BlockReset) (s : State) : (putReset code b s).kpr = s.kpr := rfl
@[simp] theorem putReset_crw (code : Nat) (b : BlockReset) (s : State) : (putReset code b s).crw = s.crw := rfl
@[simp] theorem putReset_win (code : Nat) (b : BlockReset) (s : State) : (putReset code b s).win = s.win := rfl
@[simp] theorem putReset_gth (code : Nat) (b : BlockReset) (s : State) : (putReset code b s).gth = s.gth := rfl
@[simp] theorem putReset_nbu (code : Nat) (b : BlockReset) (s : State) : (putReset code b s).nbu = s.nbu := rfl
@[simp] theorem putReset_now (code : Nat) (b : BlockReset) (s : State) : (putReset code b s).now = s.now := rfl
@[simp] theorem putReset_freeIx (code : Nat) (b : BlockReset) (s : State) : (putReset code b s).freeIx = s.freeIx := rfl

@[simp] theorem startLimit_pending (key ns : Nat) (s : State) : (startLimit key ns s).pending = s.pending := rfl
@[simp] theorem startLimit_csr (key ns : Nat) (s : State) : (startLimit key ns s).csr = s.csr := rfl
@[simp] theorem startLimit_mapReg (key ns : Nat) (s : State) : (startLimit key ns s).mapReg = s.mapReg := rfl
@[simp] theorem startLimit_gaf (key ns : Nat) (s : State) : (startLimit key ns s).gaf = s.gaf := rfl
@[simp] theorem startLimit_fab (key ns : Nat) (s : State) : (startLimit key ns s).fab = s.fab := rfl
@[simp] theorem startLimit_pool (key ns : Nat) (s : State) : (startLimit key ns s).pool = s.pool := rfl
@[simp] theorem startLimit_qm (key ns : Nat) (s : State) : (startLimit key ns s).qm = s.qm := rfl
@[simp] theorem startLimit_coh (key ns : Nat) (s : State) : (startLimit key ns s).coh = s.coh := rfl
@[simp] theorem startLimit_kpr (key ns : Nat) (s : State) : (startLimit key ns s).kpr = s.kpr := rfl
@[simp] theorem startLimit_crw (key ns : Nat) (s : State) : (startLimit key ns s).crw = s.crw := rfl
@[simp] theorem startLimit_win (key ns : Nat) (s : State) : (startLimit key ns s).win = s.win := rfl
@[simp] theorem startLimit_gth (key ns : Nat) (s : State) : (startLimit key ns s).gth = s.gth := rfl
@[simp] theorem startLimit_nbu (key ns : Nat) (s : State) : (startLimit key ns s).nbu = s.nbu := rfl
@[simp] theorem startLimit_now (key ns : Nat) (s : State) : (startLimit key ns s).now = s.now := rfl
@[simp] theorem startLimit_freeIx (key ns : Nat) (s : State) : (startLimit key ns s).freeIx = s.freeIx := rfl

@[simp] theorem endLimit_pending (key : Nat) (s : State) : (endLimit key s).pending = s.pending := rfl
@[simp] theorem endLimit_csr (key : Nat) (s : State) : (endLimit key s).csr = s.csr := rfl
@[simp] theorem endLimit_mapReg (key : Nat) (s : State) : (endLimit key s).mapReg = s.mapReg := rfl
@[simp] theorem endLimit_gaf (key : Nat) (s : State) : (endLimit key s).gaf = s.gaf := rfl
@[simp] theorem endLimit_fab (key : Nat) (s : State) : (endLimit key s).fab = s.fab := rfl
@[simp] theorem endLimit_pool (key : Nat) (s : State) : (endLimit key s).pool = s.pool := rfl
@[simp] theorem endLimit_qm (key : Nat) (s : State) : (endLimit key s).qm = s.qm := rfl
@[simp] theorem endLimit_coh (key : Nat) (s : State) : (endLimit key s).coh = s.coh := rfl
@[simp] theorem endLimit_kpr (key : Nat) (s : State) : (endLimit key s).kpr = s.kpr := rfl
@[simp] theorem endLimit_crw (key : Nat) (s : State) : (endLimit key s).crw = s.crw := rfl
@[simp] theorem endLimit_win (key : Nat) (s : State) : (endLimit key s).win = s.win := rfl
@[simp] theorem endLimit_gth (key : Nat) (s : State) : (endLimit key s).gth = s.gth := rfl
@[simp] theorem endLimit_nbu (key : Nat) (s : State) : (endLimit key s).nbu = s.nbu := rfl
@[simp] theorem endLimit_now (key : Nat) (s : State) : (endLimit key s).now = s.now := rfl
@[simp] theorem endLimit_freeIx (key : Nat) (s : State) : (endLimit key s).freeIx = s.freeIx := rfl

@[simp] theorem limitOver_pending (key : Nat) (s : State) : (limitOver key s).pending = s.pending := rfl
@[simp] theorem limitOver_csr (key : Nat) (s : State) : (limitOver key s).csr = s.csr := rfl
@[simp] theorem limitOver_mapReg (key : Nat) (s : State) : (limitOver key s).mapReg = s.mapReg := rfl
@[simp] theorem limitOver_gaf (key : Nat) (s : State) : (limitOver key s).gaf = s.gaf := rfl
@[simp] theorem limitOver_fab (key : Nat) (s : State) : (limitOver key s).fab = s.fab := rfl
@[simp] theorem limitOver_pool (key : Nat) (s : State) : (limitOver key s).pool = s.pool := rfl
@[simp] theorem limitOver_qm (key : Nat) (s : State) : (limitOver key s).qm = s.qm := rfl
@[simp] theorem limitOver_coh (key : Nat) (s : State) : (limitOver key s).coh = s.coh := rfl
@[simp] theorem limitOver_kpr (key : Nat) (s : State) : (limitOver key s).kpr = s.kpr := rfl
@[simp] theorem limitOver_crw (key : Nat) (s : State) : (limitOver key s).crw = s.crw := rfl
@[simp] theorem limitOver_win (key : Nat) (s : State) : (limitOver key s).win = s.win := rfl
@[simp] theorem limitOver_gth (key : Nat) (s : State) : (limitOver key s).gth = s.gth := rfl
@[simp] theorem limitOver_nbu (key : Nat) (s : State) : (limitOver key s).nbu = s.nbu := rfl
@[simp] theorem limitOver_freeIx (key : Nat) (s : State) : (limitOver key s).freeIx = s.freeIx := rfl

@[simp] theorem startLimit_limits (key ns : Nat) (s : State) : (startLimit key ns s).chip.limits = put s.chip.limits key (s.now + ns) := rfl
@[simp] theorem endLimit_limits (key : Nat) (s : State) : (endLimit key s).chip.limits = del s.chip.limits key := rfl
@[simp] theorem limitOver_now (key : Nat) (s : State) : (limitOver key s).now = max s.now ((find s.chip.limits key).getD 0) := rfl

@[simp] theorem updWin_pending (w : Nat) (f : Window → Window) (s : State) : (updWin w f s).pending = s.pending := rfl
@[simp] theorem updWin_csr (w : Nat) (f : Window → Window) (s : State) : (updWin w f s).csr = s.csr := rfl
@[simp] theorem updWin_mapReg (w : Nat) (f : Window → Window) (s : State) : (updWin w f s).mapReg = s.mapReg := rfl
@[simp] theorem updWin_gaf (w : Nat) (f : Window → Window) (s : State) : (updWin w f s).gaf = s.gaf := rfl
@[simp] theorem updWin_fab (w : Nat) (f : Window → Window) (s : State) : (updWin w f s).fab = s.fab := rfl
@[simp] theorem updWin_pool (w : Nat) (f : Window → Window) (s : State) : (updWin w f s).pool = s.pool := rfl
@[simp] theorem updWin_qm (w : Nat) (f : Window → Window) (s : State) : (updWin w f s).qm = s.qm := rfl
@[simp] theorem updWin_coh (w : Nat) (f : Window → Window) (s : State) : (updWin w f s).coh = s.coh := rfl
@[simp] theorem updWin_kpr (w : Nat) (f : Window → Window) (s : State) : (updWin w f s).kpr = s.kpr := rfl
@[simp] theorem updWin_chip (w : Nat) (f : Window → Window) (s : State) : (updWin w f s).chip = s.chip := rfl
@[simp] theorem updWin_crw (w : Nat) (f : Window → Window) (s : State) : (updWin w f s).crw = s.crw := rfl
@[simp] theorem updWin_gth (w : Nat) (f : Window → Window) (s : State) : (updWin w f s).gth = s.gth := rfl
@[simp] theorem updWin_nbu (w : Nat) (f : Window → Window) (s : State) : (updWin w f s).nbu = s.nbu := rfl
@[simp] theorem updWin_now (w : Nat) (f : Window → Window) (s : State) : (updWin w f s).now = s.now := rfl
@[simp] theorem updWin_freeIx (w : Nat) (f : Window → Window) (s : State) : (updWin w f s).freeIx = s.freeIx := rfl

@[simp] theorem updMember_pending (w i : Nat) (f : Member → Member) (s : State) : (updMember w i f s).pending = s.pending := rfl
@[simp] theorem updMember_csr (w i : Nat) (f : Member → Member) (s : State) : (updMember w i f s).csr = s.csr := rfl
@[simp] theorem updMember_mapReg (w i : Nat) (f : Member → Member) (s : State) : (updMember w i f s).mapReg = s.mapReg := rfl
@[simp] theorem updMember_gaf (w i : Nat) (f : Member → Member) (s : State) : (updMember w i f s).gaf = s.gaf := rfl
@[simp] theorem updMember_fab (w i : Nat) (f : Member → Member) (s : State) : (updMember w i f s).fab = s.fab := rfl
@[simp] theorem updMember_pool (w i : Nat) (f : Member → Member) (s : State) : (updMember w i f s).pool = s.pool := rfl
@[simp] theorem updMember_qm (w i : Nat) (f : Member → Member) (s : State) : (updMember w i f s).qm = s.qm := rfl
@[simp] theorem updMember_coh (w i : Nat) (f : Member → Member) (s : State) : (updMember w i f s).coh = s.coh := rfl
@[simp] theorem updMember_kpr (w i : Nat) (f : Member → Member) (s : State) : (updMember w i f s).kpr = s.kpr := rfl
@[simp] theorem updMember_chip (w i : Nat) (f : Member → Member) (s : State) : (updMember w i f s).chip = s.chip := rfl
@[simp] theorem updMember_crw (w i : Nat) (f : Member → Member) (s : State) : (updMember w i f s).crw = s.crw := rfl
@[simp] theorem updMember_gth (w i : Nat) (f : Member → Member) (s : State) : (updMember w i f s).gth = s.gth := rfl
@[simp] theorem updMember_nbu (w i : Nat) (f : Member → Member) (s : State) : (updMember w i f s).nbu = s.nbu := rfl
@[simp] theorem updMember_now (w i : Nat) (f : Member → Member) (s : State) : (updMember w i f s).now = s.now := rfl
@[simp] theorem updMember_freeIx (w i : Nat) (f : Member → Member) (s : State) : (updMember w i f s).freeIx = s.freeIx := rfl

@[simp] theorem updDest_pending (w i : Nat) (f : Dest → Dest) (s : State) : (updDest w i f s).pending = s.pending := rfl
@[simp] theorem updDest_csr (w i : Nat) (f : Dest → Dest) (s : State) : (updDest w i f s).csr = s.csr := rfl
@[simp] theorem updDest_mapReg (w i : Nat) (f : Dest → Dest) (s : State) : (updDest w i f s).mapReg = s.mapReg := rfl
@[simp] theorem updDest_gaf (w i : Nat) (f : Dest → Dest) (s : State) : (updDest w i f s).gaf = s.gaf := rfl
@[simp] theorem updDest_fab (w i : Nat) (f : Dest → Dest) (s : State) : (updDest w i f s).fab = s.fab := rfl
@[simp] theorem updDest_pool (w i : Nat) (f : Dest → Dest) (s : State) : (updDest w i f s).pool = s.pool := rfl
@[simp] theorem updDest_qm (w i : Nat) (f : Dest → Dest) (s : State) : (updDest w i f s).qm = s.qm := rfl
@[simp] theorem updDest_coh (w i : Nat) (f : Dest → Dest) (s : State) : (updDest w i f s).coh = s.coh := rfl
@[simp] theorem updDest_kpr (w i : Nat) (f : Dest → Dest) (s : State) : (updDest w i f s).kpr = s.kpr := rfl
@[simp] theorem updDest_chip (w i : Nat) (f : Dest → Dest) (s : State) : (updDest w i f s).chip = s.chip := rfl
@[simp] theorem updDest_crw (w i : Nat) (f : Dest → Dest) (s : State) : (updDest w i f s).crw = s.crw := rfl
@[simp] theorem updDest_gth (w i : Nat) (f : Dest → Dest) (s : State) : (updDest w i f s).gth = s.gth := rfl
@[simp] theorem updDest_nbu (w i : Nat) (f : Dest → Dest) (s : State) : (updDest w i f s).nbu = s.nbu := rfl
@[simp] theorem updDest_now (w i : Nat) (f : Dest → Dest) (s : State) : (updDest w i f s).now = s.now := rfl
@[simp] theorem updDest_freeIx (w i : Nat) (f : Dest → Dest) (s : State) : (updDest w i f s).freeIx = s.freeIx := rfl

@[simp] theorem emit_pending (o : Out) (s : State) : (emit o s).pending = s.pending := rfl
@[simp] theorem emit_csr (o : Out) (s : State) : (emit o s).csr = s.csr := rfl
@[simp] theorem emit_mapReg (o : Out) (s : State) : (emit o s).mapReg = s.mapReg := rfl
@[simp] theorem emit_gaf (o : Out) (s : State) : (emit o s).gaf = s.gaf := rfl
@[simp] theorem emit_pool (o : Out) (s : State) : (emit o s).pool = s.pool := rfl
@[simp] theorem emit_qm (o : Out) (s : State) : (emit o s).qm = s.qm := rfl
@[simp] theorem emit_coh (o : Out) (s : State) : (emit o s).coh = s.coh := rfl
@[simp] theorem emit_kpr (o : Out) (s : State) : (emit o s).kpr = s.kpr := rfl
@[simp] theorem emit_chip (o : Out) (s : State) : (emit o s).chip = s.chip := rfl
@[simp] theorem emit_crw (o : Out) (s : State) : (emit o s).crw = s.crw := rfl
@[simp] theorem emit_win (o : Out) (s : State) : (emit o s).win = s.win := rfl
@[simp] theorem emit_gth (o : Out) (s : State) : (emit o s).gth = s.gth := rfl
@[simp] theorem emit_nbu (o : Out) (s : State) : (emit o s).nbu = s.nbu := rfl
@[simp] theorem emit_now (o : Out) (s : State) : (emit o s).now = s.now := rfl
@[simp] theorem emit_freeIx (o : Out) (s : State) : (emit o s).freeIx = s.freeIx := rfl

@[simp] theorem store_pending (r : Reg) (i v : Nat) (s : State) : (store r i v s).pending = s.pending := rfl
@[simp] theorem store_mapReg (r : Reg) (i v : Nat) (s : State) : (store r i v s).mapReg = s.mapReg := rfl
@[simp] theorem store_gaf (r : Reg) (i v : Nat) (s : State) : (store r i v s).gaf = s.gaf := rfl
@[simp] theorem store_fab (r : Reg) (i v : Nat) (s : State) : (store r i v s).fab = s.fab := rfl
@[simp] theorem store_pool (r : Reg) (i v : Nat) (s : State) : (store r i v s).pool = s.pool := rfl
@[simp] theorem store_qm (r : Reg) (i v : Nat) (s : State) : (store r i v s).qm = s.qm := rfl
@[simp] theorem store_coh (r : Reg) (i v : Nat) (s : State) : (store r i v s).coh = s.coh := rfl
@[simp] theorem store_kpr (r : Reg) (i v : Nat) (s : State) : (store r i v s).kpr = s.kpr := rfl
@[simp] theorem store_chip (r : Reg) (i v : Nat) (s : State) : (store r i v s).chip = s.chip := rfl
@[simp] theorem store_crw (r : Reg) (i v : Nat) (s : State) : (store r i v s).crw = s.crw := rfl
@[simp] theorem store_win (r : Reg) (i v : Nat) (s : State) : (store r i v s).win = s.win := rfl
@[simp] theorem store_gth (r : Reg) (i v : Nat) (s : State) : (store r i v s).gth = s.gth := rfl
@[simp] theorem store_nbu (r : Reg) (i v : Nat) (s : State) : (store r i v s).nbu = s.nbu := rfl
@[simp] theorem store_now (r : Reg) (i v : Nat) (s : State) : (store r i v s).now = s.now := rfl
@[simp] theorem store_freeIx (r : Reg) (i v : Nat) (s : State) : (store r i v s).freeIx = s.freeIx := rfl

@[simp] theorem setFld_pending (r : Reg) (i lo w x : Nat) (s : State) : (setFld r i lo w x s).pending = s.pending := rfl
@[simp] theorem setFld_mapReg (r : Reg) (i lo w x : Nat) (s : State) : (setFld r i lo w x s).mapReg = s.mapReg := rfl
@[simp] theorem setFld_gaf (r : Reg) (i lo w x : Nat) (s : State) : (setFld r i lo w x s).gaf = s.gaf := rfl
@[simp] theorem setFld_fab (r : Reg) (i lo w x : Nat) (s : State) : (setFld r i lo w x s).fab = s.fab := rfl
@[simp] theorem setFld_pool (r : Reg) (i lo w x : Nat) (s : State) : (setFld r i lo w x s).pool = s.pool := rfl
@[simp] theorem setFld_qm (r : Reg) (i lo w x : Nat) (s : State) : (setFld r i lo w x s).qm = s.qm := rfl
@[simp] theorem setFld_coh (r : Reg) (i lo w x : Nat) (s : State) : (setFld r i lo w x s).coh = s.coh := rfl
@[simp] theorem setFld_kpr (r : Reg) (i lo w x : Nat) (s : State) : (setFld r i lo w x s).kpr = s.kpr := rfl
@[simp] theorem setFld_chip (r : Reg) (i lo w x : Nat) (s : State) : (setFld r i lo w x s).chip = s.chip := rfl
@[simp] theorem setFld_crw (r : Reg) (i lo w x : Nat) (s : State) : (setFld r i lo w x s).crw = s.crw := rfl
@[simp] theorem setFld_win (r : Reg) (i lo w x : Nat) (s : State) : (setFld r i lo w x s).win = s.win := rfl
@[simp] theorem setFld_gth (r : Reg) (i lo w x : Nat) (s : State) : (setFld r i lo w x s).gth = s.gth := rfl
@[simp] theorem setFld_nbu (r : Reg) (i lo w x : Nat) (s : State) : (setFld r i lo w x s).nbu = s.nbu := rfl
@[simp] theorem setFld_now (r : Reg) (i lo w x : Nat) (s : State) : (setFld r i lo w x s).now = s.now := rfl
@[simp] theorem setFld_freeIx (r : Reg) (i lo w x : Nat) (s : State) : (setFld r i lo w x s).freeIx = s.freeIx := rfl

@[simp] theorem bump_pending (r : Reg) (i lo w n : Nat) (s : State) : (bump r i lo w n s).pending = s.pending := rfl
@[simp] theorem bump_mapReg (r : Reg) (i lo w n : Nat) (s : State) : (bump r i lo w n s).mapReg = s.mapReg := rfl
@[simp] theorem bump_gaf (r : Reg) (i lo w n : Nat) (s : State) : (bump r i lo w n s).gaf = s.gaf := rfl
@[simp] theorem bump_fab (r : Reg) (i lo w n : Nat) (s : State) : (bump r i lo w n s).fab = s.fab := rfl
@[simp] theorem bump_pool (r : Reg) (i lo w n : Nat) (s : State) : (bump r i lo w n s).pool = s.pool := rfl
@[simp] theorem bump_qm (r : Reg) (i lo w n : Nat) (s : State) : (bump r i lo w n s).qm = s.qm := rfl
@[simp] theorem bump_coh (r : Reg) (i lo w n : Nat) (s : State) : (bump r i lo w n s).coh = s.coh := rfl
@[simp] theorem bump_kpr (r : Reg) (i lo w n : Nat) (s : State) : (bump r i lo w n s).kpr = s.kpr := rfl
@[simp] theorem bump_chip (r : Reg) (i lo w n : Nat) (s : State) : (bump r i lo w n s).chip = s.chip := rfl
@[simp] theorem bump_crw (r : Reg) (i lo w n : Nat) (s : State) : (bump r i lo w n s).crw = s.crw := rfl
@[simp] theorem bump_win (r : Reg) (i lo w n : Nat) (s : State) : (bump r i lo w n s).win = s.win := rfl
@[simp] theorem bump_gth (r : Reg) (i lo w n : Nat) (s : State) : (bump r i lo w n s).gth = s.gth := rfl
@[simp] theorem bump_nbu (r : Reg) (i lo w n : Nat) (s : State) : (bump r i lo w n s).nbu = s.nbu := rfl
@[simp] theorem bump_now (r : Reg) (i lo w n : Nat) (s : State) : (bump r i lo w n s).now = s.now := rfl
@[simp] theorem bump_freeIx (r : Reg) (i lo w n : Nat) (s : State) : (bump r i lo w n s).freeIx = s.freeIx := rfl

@[simp] theorem setMapVal_pending (r : Reg) (i v : Nat) (s : State) : (setMapVal r i v s).pending = s.pending := rfl
@[simp] theorem setMapVal_csr (r : Reg) (i v : Nat) (s : State) : (setMapVal r i v s).csr = s.csr := rfl
@[simp] theorem setMapVal_gaf (r : Reg) (i v : Nat) (s : State) : (setMapVal r i v s).gaf = s.gaf := rfl
@[simp] theorem setMapVal_fab (r : Reg) (i v : Nat) (s : State) : (setMapVal r i v s).fab = s.fab := rfl
@[simp] theorem setMapVal_pool (r : Reg) (i v : Nat) (s : State) : (setMapVal r i v s).pool = s.pool := rfl
@[simp] theorem setMapVal_qm (r : Reg) (i v : Nat) (s : State) : (setMapVal r i v s).qm = s.qm := rfl
@[simp] theorem setMapVal_coh (r : Reg) (i v : Nat) (s : State) : (setMapVal r i v s).coh = s.coh := rfl
@[simp] theorem setMapVal_kpr (r : Reg) (i v : Nat) (s : State) : (setMapVal r i v s).kpr = s.kpr := rfl
@[simp] theorem setMapVal_chip (r : Reg) (i v : Nat) (s : State) : (setMapVal r i v s).chip = s.chip := rfl
@[simp] theorem setMapVal_crw (r : Reg) (i v : Nat) (s : State) : (setMapVal r i v s).crw = s.crw := rfl
@[simp] theorem setMapVal_win (r : Reg) (i v : Nat) (s : State) : (setMapVal r i v s).win = s.win := rfl
@[simp] theorem setMapVal_gth (r : Reg) (i v : Nat) (s : State) : (setMapVal r i v s).gth = s.gth := rfl
@[simp] theorem setMapVal_nbu (r : Reg) (i v : Nat) (s : State) : (setMapVal r i v s).nbu = s.nbu := rfl
@[simp] theorem setMapVal_now (r : Reg) (i v : Nat) (s : State) : (setMapVal r i v s).now = s.now := rfl
@[simp] theorem setMapVal_freeIx (r : Reg) (i v : Nat) (s : State) : (setMapVal r i v s).freeIx = s.freeIx := rfl

@[simp] theorem clockTo_pending (t : Nat) (s : State) : (clockTo t s).pending = s.pending := rfl
@[simp] theorem clockTo_csr (t : Nat) (s : State) : (clockTo t s).csr = s.csr := rfl
@[simp] theorem clockTo_mapReg (t : Nat) (s : State) : (clockTo t s).mapReg = s.mapReg := rfl
@[simp] theorem clockTo_gaf (t : Nat) (s : State) : (clockTo t s).gaf = s.gaf := rfl
@[simp] theorem clockTo_fab (t : Nat) (s : State) : (clockTo t s).fab = s.fab := rfl
@[simp] theorem clockTo_pool (t : Nat) (s : State) : (clockTo t s).pool = s.pool := rfl
@[simp] theorem clockTo_qm (t : Nat) (s : State) : (clockTo t s).qm = s.qm := rfl
@[simp] theorem clockTo_coh (t : Nat) (s : State) : (clockTo t s).coh = s.coh := rfl
@[simp] theorem clockTo_kpr (t : Nat) (s : State) : (clockTo t s).kpr = s.kpr := rfl
@[simp] theorem clockTo_chip (t : Nat) (s : State) : (clockTo t s).chip = s.chip := rfl
@[simp] theorem clockTo_crw (t : Nat) (s : State) : (clockTo t s).crw = s.crw := rfl
@[simp] theorem clockTo_win (t : Nat) (s : State) : (clockTo t s).win = s.win := rfl
@[simp] theorem clockTo_gth (t : Nat) (s : State) : (clockTo t s).gth = s.gth := rfl
@[simp] theorem clockTo_nbu (t : Nat) (s : State) : (clockTo t s).nbu = s.nbu := rfl
@[simp] theorem clockTo_freeIx (t : Nat) (s : State) : (clockTo t s).freeIx = s.freeIx := rfl

@[simp] theorem pushCommit_pending (c : Commit) (s : State) : (pushCommit c s).pending = s.pending := rfl
@[simp] theorem pushCommit_csr (c : Commit) (s : State) : (pushCommit c s).csr = s.csr := rfl
@[simp] theorem pushCommit_mapReg (c : Commit) (s : State) : (pushCommit c s).mapReg = s.mapReg := rfl
@[simp] theorem pushCommit_fab (c : Commit) (s : State) : (pushCommit c s).fab = s.fab := rfl
@[simp] theorem pushCommit_pool (c : Commit) (s : State) : (pushCommit c s).pool = s.pool := rfl
@[simp] theorem pushCommit_qm (c : Commit) (s : State) : (pushCommit c s).qm = s.qm := rfl
@[simp] theorem pushCommit_coh (c : Commit) (s : State) : (pushCommit c s).coh = s.coh := rfl
@[simp] theorem pushCommit_kpr (c : Commit) (s : State) : (pushCommit c s).kpr = s.kpr := rfl
@[simp] theorem pushCommit_chip (c : Commit) (s : State) : (pushCommit c s).chip = s.chip := rfl
@[simp] theorem pushCommit_crw (c : Commit) (s : State) : (pushCommit c s).crw = s.crw := rfl
@[simp] theorem pushCommit_win (c : Commit) (s : State) : (pushCommit c s).win = s.win := rfl
@[simp] theorem pushCommit_gth (c : Commit) (s : State) : (pushCommit c s).gth = s.gth := rfl
@[simp] theorem pushCommit_nbu (c : Commit) (s : State) : (pushCommit c s).nbu = s.nbu := rfl
@[simp] theorem pushCommit_now (c : Commit) (s : State) : (pushCommit c s).now = s.now := rfl
@[simp] theorem pushCommit_freeIx (c : Commit) (s : State) : (pushCommit c s).freeIx = s.freeIx := rfl

@[simp] theorem dropTxn_pending (id : Nat) (s : State) : (dropTxn id s).pending = s.pending := rfl
@[simp] theorem dropTxn_csr (id : Nat) (s : State) : (dropTxn id s).csr = s.csr := rfl
@[simp] theorem dropTxn_mapReg (id : Nat) (s : State) : (dropTxn id s).mapReg = s.mapReg := rfl
@[simp] theorem dropTxn_gaf (id : Nat) (s : State) : (dropTxn id s).gaf = s.gaf := rfl
@[simp] theorem dropTxn_pool (id : Nat) (s : State) : (dropTxn id s).pool = s.pool := rfl
@[simp] theorem dropTxn_qm (id : Nat) (s : State) : (dropTxn id s).qm = s.qm := rfl
@[simp] theorem dropTxn_coh (id : Nat) (s : State) : (dropTxn id s).coh = s.coh := rfl
@[simp] theorem dropTxn_kpr (id : Nat) (s : State) : (dropTxn id s).kpr = s.kpr := rfl
@[simp] theorem dropTxn_chip (id : Nat) (s : State) : (dropTxn id s).chip = s.chip := rfl
@[simp] theorem dropTxn_crw (id : Nat) (s : State) : (dropTxn id s).crw = s.crw := rfl
@[simp] theorem dropTxn_win (id : Nat) (s : State) : (dropTxn id s).win = s.win := rfl
@[simp] theorem dropTxn_gth (id : Nat) (s : State) : (dropTxn id s).gth = s.gth := rfl
@[simp] theorem dropTxn_nbu (id : Nat) (s : State) : (dropTxn id s).nbu = s.nbu := rfl
@[simp] theorem dropTxn_now (id : Nat) (s : State) : (dropTxn id s).now = s.now := rfl
@[simp] theorem dropTxn_freeIx (id : Nat) (s : State) : (dropTxn id s).freeIx = s.freeIx := rfl

@[simp] theorem dropWait_pending (k : Nat) (s : State) : (dropWait k s).pending = s.pending := rfl
@[simp] theorem dropWait_csr (k : Nat) (s : State) : (dropWait k s).csr = s.csr := rfl
@[simp] theorem dropWait_mapReg (k : Nat) (s : State) : (dropWait k s).mapReg = s.mapReg := rfl
@[simp] theorem dropWait_fab (k : Nat) (s : State) : (dropWait k s).fab = s.fab := rfl
@[simp] theorem dropWait_pool (k : Nat) (s : State) : (dropWait k s).pool = s.pool := rfl
@[simp] theorem dropWait_qm (k : Nat) (s : State) : (dropWait k s).qm = s.qm := rfl
@[simp] theorem dropWait_coh (k : Nat) (s : State) : (dropWait k s).coh = s.coh := rfl
@[simp] theorem dropWait_kpr (k : Nat) (s : State) : (dropWait k s).kpr = s.kpr := rfl
@[simp] theorem dropWait_chip (k : Nat) (s : State) : (dropWait k s).chip = s.chip := rfl
@[simp] theorem dropWait_crw (k : Nat) (s : State) : (dropWait k s).crw = s.crw := rfl
@[simp] theorem dropWait_win (k : Nat) (s : State) : (dropWait k s).win = s.win := rfl
@[simp] theorem dropWait_gth (k : Nat) (s : State) : (dropWait k s).gth = s.gth := rfl
@[simp] theorem dropWait_nbu (k : Nat) (s : State) : (dropWait k s).nbu = s.nbu := rfl
@[simp] theorem dropWait_now (k : Nat) (s : State) : (dropWait k s).now = s.now := rfl
@[simp] theorem dropWait_freeIx (k : Nat) (s : State) : (dropWait k s).freeIx = s.freeIx := rfl

@[simp] theorem updGuy_pending (k : Nat) (f : Guy → Guy) (s : State) : (updGuy k f s).pending = s.pending := rfl
@[simp] theorem updGuy_csr (k : Nat) (f : Guy → Guy) (s : State) : (updGuy k f s).csr = s.csr := rfl
@[simp] theorem updGuy_mapReg (k : Nat) (f : Guy → Guy) (s : State) : (updGuy k f s).mapReg = s.mapReg := rfl
@[simp] theorem updGuy_gaf (k : Nat) (f : Guy → Guy) (s : State) : (updGuy k f s).gaf = s.gaf := rfl
@[simp] theorem updGuy_fab (k : Nat) (f : Guy → Guy) (s : State) : (updGuy k f s).fab = s.fab := rfl
@[simp] theorem updGuy_pool (k : Nat) (f : Guy → Guy) (s : State) : (updGuy k f s).pool = s.pool := rfl
@[simp] theorem updGuy_qm (k : Nat) (f : Guy → Guy) (s : State) : (updGuy k f s).qm = s.qm := rfl
@[simp] theorem updGuy_coh (k : Nat) (f : Guy → Guy) (s : State) : (updGuy k f s).coh = s.coh := rfl
@[simp] theorem updGuy_chip (k : Nat) (f : Guy → Guy) (s : State) : (updGuy k f s).chip = s.chip := rfl
@[simp] theorem updGuy_crw (k : Nat) (f : Guy → Guy) (s : State) : (updGuy k f s).crw = s.crw := rfl
@[simp] theorem updGuy_win (k : Nat) (f : Guy → Guy) (s : State) : (updGuy k f s).win = s.win := rfl
@[simp] theorem updGuy_gth (k : Nat) (f : Guy → Guy) (s : State) : (updGuy k f s).gth = s.gth := rfl
@[simp] theorem updGuy_nbu (k : Nat) (f : Guy → Guy) (s : State) : (updGuy k f s).nbu = s.nbu := rfl
@[simp] theorem updGuy_now (k : Nat) (f : Guy → Guy) (s : State) : (updGuy k f s).now = s.now := rfl
@[simp] theorem updGuy_freeIx (k : Nat) (f : Guy → Guy) (s : State) : (updGuy k f s).freeIx = s.freeIx := rfl

@[simp] theorem giveFree0_pending (n : Nat) (s : State) : (giveFree0 n s).pending = s.pending := rfl
@[simp] theorem giveFree0_csr (n : Nat) (s : State) : (giveFree0 n s).csr = s.csr := rfl
@[simp] theorem giveFree0_mapReg (n : Nat) (s : State) : (giveFree0 n s).mapReg = s.mapReg := rfl
@[simp] theorem giveFree0_gaf (n : Nat) (s : State) : (giveFree0 n s).gaf = s.gaf := rfl
@[simp] theorem giveFree0_fab (n : Nat) (s : State) : (giveFree0 n s).fab = s.fab := rfl
@[simp] theorem giveFree0_qm (n : Nat) (s : State) : (giveFree0 n s).qm = s.qm := rfl
@[simp] theorem giveFree0_coh (n : Nat) (s : State) : (giveFree0 n s).coh = s.coh := rfl
@[simp] theorem giveFree0_kpr (n : Nat) (s : State) : (giveFree0 n s).kpr = s.kpr := rfl
@[simp] theorem giveFree0_chip (n : Nat) (s : State) : (giveFree0 n s).chip = s.chip := rfl
@[simp] theorem giveFree0_crw (n : Nat) (s : State) : (giveFree0 n s).crw = s.crw := rfl
@[simp] theorem giveFree0_win (n : Nat) (s : State) : (giveFree0 n s).win = s.win := rfl
@[simp] theorem giveFree0_gth (n : Nat) (s : State) : (giveFree0 n s).gth = s.gth := rfl
@[simp] theorem giveFree0_nbu (n : Nat) (s : State) : (giveFree0 n s).nbu = s.nbu := rfl
@[simp] theorem giveFree0_now (n : Nat) (s : State) : (giveFree0 n s).now = s.now := rfl
@[simp] theorem giveFree0_freeIx (n : Nat) (s : State) : (giveFree0 n s).freeIx = s.freeIx := rfl

@[simp] theorem giveDirty0_pending (n : Nat) (s : State) : (giveDirty0 n s).pending = s.pending := rfl
@[simp] theorem giveDirty0_csr (n : Nat) (s : State) : (giveDirty0 n s).csr = s.csr := rfl
@[simp] theorem giveDirty0_mapReg (n : Nat) (s : State) : (giveDirty0 n s).mapReg = s.mapReg := rfl
@[simp] theorem giveDirty0_gaf (n : Nat) (s : State) : (giveDirty0 n s).gaf = s.gaf := rfl
@[simp] theorem giveDirty0_fab (n : Nat) (s : State) : (giveDirty0 n s).fab = s.fab := rfl
@[simp] theorem giveDirty0_qm (n : Nat) (s : State) : (giveDirty0 n s).qm = s.qm := rfl
@[simp] theorem giveDirty0_coh (n : Nat) (s : State) : (giveDirty0 n s).coh = s.coh := rfl
@[simp] theorem giveDirty0_kpr (n : Nat) (s : State) : (giveDirty0 n s).kpr = s.kpr := rfl
@[simp] theorem giveDirty0_chip (n : Nat) (s : State) : (giveDirty0 n s).chip = s.chip := rfl
@[simp] theorem giveDirty0_crw (n : Nat) (s : State) : (giveDirty0 n s).crw = s.crw := rfl
@[simp] theorem giveDirty0_win (n : Nat) (s : State) : (giveDirty0 n s).win = s.win := rfl
@[simp] theorem giveDirty0_gth (n : Nat) (s : State) : (giveDirty0 n s).gth = s.gth := rfl
@[simp] theorem giveDirty0_nbu (n : Nat) (s : State) : (giveDirty0 n s).nbu = s.nbu := rfl
@[simp] theorem giveDirty0_now (n : Nat) (s : State) : (giveDirty0 n s).now = s.now := rfl
@[simp] theorem giveDirty0_freeIx (n : Nat) (s : State) : (giveDirty0 n s).freeIx = s.freeIx := rfl

@[simp] theorem forgetLine_pending (line : Nat) (s : State) : (forgetLine line s).pending = s.pending := by unfold forgetLine; split <;> rfl
@[simp] theorem forgetLine_csr (line : Nat) (s : State) : (forgetLine line s).csr = s.csr := by unfold forgetLine; split <;> rfl
@[simp] theorem forgetLine_mapReg (line : Nat) (s : State) : (forgetLine line s).mapReg = s.mapReg := by unfold forgetLine; split <;> rfl
@[simp] theorem forgetLine_gaf (line : Nat) (s : State) : (forgetLine line s).gaf = s.gaf := by unfold forgetLine; split <;> rfl
@[simp] theorem forgetLine_fab (line : Nat) (s : State) : (forgetLine line s).fab = s.fab := by unfold forgetLine; split <;> rfl
@[simp] theorem forgetLine_pool (line : Nat) (s : State) : (forgetLine line s).pool = s.pool := by unfold forgetLine; split <;> rfl
@[simp] theorem forgetLine_qm (line : Nat) (s : State) : (forgetLine line s).qm = s.qm := by unfold forgetLine; split <;> rfl
@[simp] theorem forgetLine_kpr (line : Nat) (s : State) : (forgetLine line s).kpr = s.kpr := by unfold forgetLine; split <;> rfl
@[simp] theorem forgetLine_chip (line : Nat) (s : State) : (forgetLine line s).chip = s.chip := by unfold forgetLine; split <;> rfl
@[simp] theorem forgetLine_crw (line : Nat) (s : State) : (forgetLine line s).crw = s.crw := by unfold forgetLine; split <;> rfl
@[simp] theorem forgetLine_win (line : Nat) (s : State) : (forgetLine line s).win = s.win := by unfold forgetLine; split <;> rfl
@[simp] theorem forgetLine_gth (line : Nat) (s : State) : (forgetLine line s).gth = s.gth := by unfold forgetLine; split <;> rfl
@[simp] theorem forgetLine_nbu (line : Nat) (s : State) : (forgetLine line s).nbu = s.nbu := by unfold forgetLine; split <;> rfl
@[simp] theorem forgetLine_now (line : Nat) (s : State) : (forgetLine line s).now = s.now := by unfold forgetLine; split <;> rfl
@[simp] theorem forgetLine_freeIx (line : Nat) (s : State) : (forgetLine line s).freeIx = s.freeIx := by unfold forgetLine; split <;> rfl

@[simp] theorem setDir_pending (line : Nat) (e : DirEntry) (s : State) : (setDir line e s).pending = s.pending := by
  unfold setDir; split <;> simp
@[simp] theorem setDir_csr (line : Nat) (e : DirEntry) (s : State) : (setDir line e s).csr = s.csr := by
  unfold setDir; split <;> simp
@[simp] theorem setDir_mapReg (line : Nat) (e : DirEntry) (s : State) : (setDir line e s).mapReg = s.mapReg := by
  unfold setDir; split <;> simp
@[simp] theorem setDir_gaf (line : Nat) (e : DirEntry) (s : State) : (setDir line e s).gaf = s.gaf := by
  unfold setDir; split <;> simp
@[simp] theorem setDir_fab (line : Nat) (e : DirEntry) (s : State) : (setDir line e s).fab = s.fab := by
  unfold setDir; split <;> simp
@[simp] theorem setDir_pool (line : Nat) (e : DirEntry) (s : State) : (setDir line e s).pool = s.pool := by
  unfold setDir; split <;> simp
@[simp] theorem setDir_qm (line : Nat) (e : DirEntry) (s : State) : (setDir line e s).qm = s.qm := by
  unfold setDir; split <;> simp
@[simp] theorem setDir_kpr (line : Nat) (e : DirEntry) (s : State) : (setDir line e s).kpr = s.kpr := by
  unfold setDir; split <;> simp
@[simp] theorem setDir_chip (line : Nat) (e : DirEntry) (s : State) : (setDir line e s).chip = s.chip := by
  unfold setDir; split <;> simp
@[simp] theorem setDir_crw (line : Nat) (e : DirEntry) (s : State) : (setDir line e s).crw = s.crw := by
  unfold setDir; split <;> simp
@[simp] theorem setDir_win (line : Nat) (e : DirEntry) (s : State) : (setDir line e s).win = s.win := by
  unfold setDir; split <;> simp
@[simp] theorem setDir_gth (line : Nat) (e : DirEntry) (s : State) : (setDir line e s).gth = s.gth := by
  unfold setDir; split <;> simp
@[simp] theorem setDir_nbu (line : Nat) (e : DirEntry) (s : State) : (setDir line e s).nbu = s.nbu := by
  unfold setDir; split <;> simp
@[simp] theorem setDir_now (line : Nat) (e : DirEntry) (s : State) : (setDir line e s).now = s.now := by
  unfold setDir; split <;> simp
@[simp] theorem setDir_freeIx (line : Nat) (e : DirEntry) (s : State) : (setDir line e s).freeIx = s.freeIx := by
  unfold setDir; split <;> simp

@[simp] theorem countGlitch_pending (c : Nat) (s : State) : (countGlitch c s).pending = s.pending := rfl
@[simp] theorem countGlitch_csr (c : Nat) (s : State) : (countGlitch c s).csr = s.csr := rfl
@[simp] theorem countGlitch_mapReg (c : Nat) (s : State) : (countGlitch c s).mapReg = s.mapReg := rfl
@[simp] theorem countGlitch_gaf (c : Nat) (s : State) : (countGlitch c s).gaf = s.gaf := rfl
@[simp] theorem countGlitch_fab (c : Nat) (s : State) : (countGlitch c s).fab = s.fab := rfl
@[simp] theorem countGlitch_pool (c : Nat) (s : State) : (countGlitch c s).pool = s.pool := rfl
@[simp] theorem countGlitch_qm (c : Nat) (s : State) : (countGlitch c s).qm = s.qm := rfl
@[simp] theorem countGlitch_coh (c : Nat) (s : State) : (countGlitch c s).coh = s.coh := rfl
@[simp] theorem countGlitch_kpr (c : Nat) (s : State) : (countGlitch c s).kpr = s.kpr := rfl
@[simp] theorem countGlitch_crw (c : Nat) (s : State) : (countGlitch c s).crw = s.crw := rfl
@[simp] theorem countGlitch_win (c : Nat) (s : State) : (countGlitch c s).win = s.win := rfl
@[simp] theorem countGlitch_gth (c : Nat) (s : State) : (countGlitch c s).gth = s.gth := rfl
@[simp] theorem countGlitch_nbu (c : Nat) (s : State) : (countGlitch c s).nbu = s.nbu := rfl
@[simp] theorem countGlitch_now (c : Nat) (s : State) : (countGlitch c s).now = s.now := rfl
@[simp] theorem countGlitch_freeIx (c : Nat) (s : State) : (countGlitch c s).freeIx = s.freeIx := rfl

@[simp] theorem stageTxn_pending (id : Nat) (g : Stage) (s : State) : (stageTxn id g s).pending = s.pending := rfl
@[simp] theorem stageTxn_csr (id : Nat) (g : Stage) (s : State) : (stageTxn id g s).csr = s.csr := rfl
@[simp] theorem stageTxn_mapReg (id : Nat) (g : Stage) (s : State) : (stageTxn id g s).mapReg = s.mapReg := rfl
@[simp] theorem stageTxn_gaf (id : Nat) (g : Stage) (s : State) : (stageTxn id g s).gaf = s.gaf := rfl
@[simp] theorem stageTxn_pool (id : Nat) (g : Stage) (s : State) : (stageTxn id g s).pool = s.pool := rfl
@[simp] theorem stageTxn_qm (id : Nat) (g : Stage) (s : State) : (stageTxn id g s).qm = s.qm := rfl
@[simp] theorem stageTxn_coh (id : Nat) (g : Stage) (s : State) : (stageTxn id g s).coh = s.coh := rfl
@[simp] theorem stageTxn_kpr (id : Nat) (g : Stage) (s : State) : (stageTxn id g s).kpr = s.kpr := rfl
@[simp] theorem stageTxn_chip (id : Nat) (g : Stage) (s : State) : (stageTxn id g s).chip = s.chip := rfl
@[simp] theorem stageTxn_crw (id : Nat) (g : Stage) (s : State) : (stageTxn id g s).crw = s.crw := rfl
@[simp] theorem stageTxn_win (id : Nat) (g : Stage) (s : State) : (stageTxn id g s).win = s.win := rfl
@[simp] theorem stageTxn_gth (id : Nat) (g : Stage) (s : State) : (stageTxn id g s).gth = s.gth := rfl
@[simp] theorem stageTxn_nbu (id : Nat) (g : Stage) (s : State) : (stageTxn id g s).nbu = s.nbu := rfl
@[simp] theorem stageTxn_now (id : Nat) (g : Stage) (s : State) : (stageTxn id g s).now = s.now := rfl
@[simp] theorem stageTxn_freeIx (id : Nat) (g : Stage) (s : State) : (stageTxn id g s).freeIx = s.freeIx := rfl

@[simp] theorem updQ_pending (q : QId) (f : CmdQueue → CmdQueue) (s : State) : (updQ q f s).pending = s.pending := by cases q <;> rfl
@[simp] theorem updQ_csr (q : QId) (f : CmdQueue → CmdQueue) (s : State) : (updQ q f s).csr = s.csr := by cases q <;> rfl
@[simp] theorem updQ_mapReg (q : QId) (f : CmdQueue → CmdQueue) (s : State) : (updQ q f s).mapReg = s.mapReg := by cases q <;> rfl
@[simp] theorem updQ_fab (q : QId) (f : CmdQueue → CmdQueue) (s : State) : (updQ q f s).fab = s.fab := by cases q <;> rfl
@[simp] theorem updQ_pool (q : QId) (f : CmdQueue → CmdQueue) (s : State) : (updQ q f s).pool = s.pool := by cases q <;> rfl
@[simp] theorem updQ_qm (q : QId) (f : CmdQueue → CmdQueue) (s : State) : (updQ q f s).qm = s.qm := by cases q <;> rfl
@[simp] theorem updQ_coh (q : QId) (f : CmdQueue → CmdQueue) (s : State) : (updQ q f s).coh = s.coh := by cases q <;> rfl
@[simp] theorem updQ_kpr (q : QId) (f : CmdQueue → CmdQueue) (s : State) : (updQ q f s).kpr = s.kpr := by cases q <;> rfl
@[simp] theorem updQ_chip (q : QId) (f : CmdQueue → CmdQueue) (s : State) : (updQ q f s).chip = s.chip := by cases q <;> rfl
@[simp] theorem updQ_crw (q : QId) (f : CmdQueue → CmdQueue) (s : State) : (updQ q f s).crw = s.crw := by cases q <;> rfl
@[simp] theorem updQ_win (q : QId) (f : CmdQueue → CmdQueue) (s : State) : (updQ q f s).win = s.win := by cases q <;> rfl
@[simp] theorem updQ_gth (q : QId) (f : CmdQueue → CmdQueue) (s : State) : (updQ q f s).gth = s.gth := by cases q <;> rfl
@[simp] theorem updQ_nbu (q : QId) (f : CmdQueue → CmdQueue) (s : State) : (updQ q f s).nbu = s.nbu := by cases q <;> rfl
@[simp] theorem updQ_now (q : QId) (f : CmdQueue → CmdQueue) (s : State) : (updQ q f s).now = s.now := by cases q <;> rfl
@[simp] theorem updQ_freeIx (q : QId) (f : CmdQueue → CmdQueue) (s : State) : (updQ q f s).freeIx = s.freeIx := by cases q <;> rfl

/-! ### What an update reads back as -/

@[simp] theorem cellOf_updCell_same (n : Nat) (f : Cell → Cell) (s : State) : cellOf (updCell n f s) n = f (cellOf s n) := by
  simp [cellOf, updCell]

theorem cellOf_updCell_other {n m : Nat} (f : Cell → Cell) (s : State) (h : m ≠ n) : cellOf (updCell n f s) m = cellOf s m := by
  simp [cellOf, updCell, find_put_other _ _ h]

@[simp] theorem crewOf_updCell (n k : Nat) (f : Cell → Cell) (s : State) : crewOf (updCell n f s) k = crewOf s k := rfl

@[simp] theorem cellOf_updCrew (n k : Nat) (f : Crew → Crew) (s : State) : cellOf (updCrew k f s) n = cellOf s n := rfl

@[simp] theorem crewOf_updCrew_same (k : Nat) (f : Crew → Crew) (s : State) : crewOf (updCrew k f s) k = f (crewOf s k) := by
  simp [crewOf, updCrew]

theorem crewOf_updCrew_other {k j : Nat} (f : Crew → Crew) (s : State) (h : j ≠ k) : crewOf (updCrew k f s) j = crewOf s j := by
  simp [crewOf, updCrew, find_put_other _ _ h]

@[simp] theorem port_updPort_same (p : Nat) (f : FPort → FPort) (s : State) : port (updPort p f s) p = f (port s p) := by
  simp [port, updPort]

theorem port_updPort_other {p q : Nat} (f : FPort → FPort) (s : State) (h : q ≠ p) : port (updPort p f s) q = port s q := by
  simp [port, updPort, find_put_other _ _ h]

@[simp] theorem tray_updTray_same (m : Nat) (f : Tray → Tray) (s : State) : tray (updTray m f s) m = f (tray s m) := by
  simp [tray, updTray]

theorem tray_updTray_other {m k : Nat} (f : Tray → Tray) (s : State) (h : k ≠ m) : tray (updTray m f s) k = tray s k := by
  simp [tray, updTray, find_put_other _ _ h]

@[simp] theorem nbuOf_updNbu_same (m : Nat) (f : Nbu → Nbu) (s : State) : nbuOf (updNbu m f s) m = f (nbuOf s m) := by
  simp [nbuOf, updNbu]

theorem nbuOf_updNbu_other {m k : Nat} (f : Nbu → Nbu) (s : State) (h : k ≠ m) : nbuOf (updNbu m f s) k = nbuOf s k := by
  simp [nbuOf, updNbu, find_put_other _ _ h]

@[simp] theorem pin_updPin_same (n : Nat) (f : Pin → Pin) (s : State) : pin (updPin n f s) n = f (pin s n) := by
  simp [pin, updPin]

theorem region_updRegion (k j : Nat) (f : Region → Region) (s : State) :
    region (updRegion k f s) j = if j = k then (region s j).map f else region s j := by
  simp [region, updRegion, find_upd]

theorem tent_updTent (t u : Nat) (f : Tent → Tent) (s : State) :
    tent (updTent t f s) u = if u = t then (tent s u).map f else tent s u := by
  simp [tent, updTent, find_upd]

@[simp] theorem getQ_updQ_same (q : QId) (f : CmdQueue → CmdQueue) (s : State) : getQ (updQ q f s) q = (getQ s q).map f := by
  cases q <;> simp [getQ, updQ, find_upd]

/-! ### Register fields -/

@[simp] theorem stored_store_same (r : Reg) (i v : Nat) (s : State) : stored (store r i v s) r i = v := by
  unfold stored store
  split <;> simp_all

theorem stored_store_other {r q : Reg} {i j : Nat} (v : Nat) (s : State) (h : q.addr j ≠ r.addr i) :
    stored (store r i v s) q j = stored s q j := by
  unfold stored store
  split <;> simp [find_put_other _ _ h, find_del_other _ h]

theorem testBit_maskOf (lo w i : Nat) : (maskOf lo w).testBit i = (decide (lo ≤ i) && decide (i < lo + w)) := by
  simp only [maskOf, Nat.testBit_shiftLeft, Nat.testBit_two_pow_sub_one]
  by_cases h : lo ≤ i <;> simp [h]
  omega

theorem testBit_setBitsOf (v lo w x i : Nat) :
    (setBitsOf v lo w x).testBit i = if lo ≤ i ∧ i < lo + w then x.testBit (i - lo) else v.testBit i := by
  simp only [setBitsOf, place, Nat.testBit_or, Nat.testBit_xor, testBit_maskOf, Nat.testBit_shiftLeft, Nat.testBit_mod_two_pow]
  by_cases h : lo ≤ i <;> by_cases h2 : i < lo + w <;> simp [h, h2]
  · omega
  · omega

/-- The bits just set. -/
theorem bits_setBitsOf_same (v lo w x : Nat) : bits (setBitsOf v lo w x) lo w = x % 2 ^ w := by
  apply Nat.eq_of_testBit_eq
  intro i
  simp only [bits, Nat.testBit_mod_two_pow, Nat.testBit_shiftRight, testBit_setBitsOf]
  by_cases h : i < w
  · simp [h, show lo ≤ lo + i by omega]
  · simp [h]

/-- Bits apart from those set. -/
theorem bits_setBitsOf_other (v lo w x l n : Nat) (h : l + n ≤ lo ∨ lo + w ≤ l) : bits (setBitsOf v lo w x) l n = bits v l n := by
  apply Nat.eq_of_testBit_eq
  intro i
  simp only [bits, Nat.testBit_mod_two_pow, Nat.testBit_shiftRight, testBit_setBitsOf]
  by_cases hi : i < n
  · rw [if_neg (by omega)]
  · simp [hi]

theorem fld_setFld_same (r : Reg) (i lo w x : Nat) (s : State) : fld (setFld r i lo w x s) r i lo w = x % 2 ^ w := by
  simp [fld, setFld, bits_setBitsOf_same]

theorem fld_setFld_field (r : Reg) (i lo w x l n : Nat) (s : State) (h : l + n ≤ lo ∨ lo + w ≤ l) :
    fld (setFld r i lo w x s) r i l n = fld s r i l n := by
  simp [fld, setFld, bits_setBitsOf_other _ _ _ _ _ _ h]

theorem fld_setFld_other {r q : Reg} {i j : Nat} (lo w x l n : Nat) (s : State) (h : q.addr j ≠ r.addr i) :
    fld (setFld r i lo w x s) q j l n = fld s q j l n := by
  simp [fld, setFld, stored_store_other _ _ h]

end Sys2Proof.Machine
end

