-- ==== Sys2Proof/Laws/Cells.lean ====
section
/-! SUPPORT. What the shared operations of the cells do: running an instruction on a cell that is ready, its exceptions and waits, local loads and stores. -/

namespace Sys2Proof.Machine

variable {c : CellId} {s : State}

/-- The fetch of a cell that is ready passes. -/
theorem fetchable_of_ready (h : Ready c s) : fetchable? s (cellNum c) (cellOf s (cellNum c)).pc.toNat = true := by
  obtain ⟨-, -, -, hl, hc, -⟩ := h
  simp [fetchable?, hl, hc]

/-- On a cell that is ready, an instruction does exactly what its meaning says. -/
theorem runCell_ready (h : Ready c s) (i : Instr) (body : Cell → State → CellOut × State) :
    runCell c i body s = applyOut (cellNum c) (wordOf i) (body (cellOf s (cellNum c)) s).1 (body (cellOf s (cellNum c)) s).2 := by
  have hf := fetchable_of_ready h
  obtain ⟨hr, hd, hk, -, -, ha⟩ := h
  simp [runCell, hr, hd, hk, hf, ha]

/-- See `runCell_ready`, for an instruction that changes only its own cell. -/
theorem runPure_ready (h : Ready c s) (i : Instr) (f : Cell → CellOut) :
    runPure c i f s = applyOut (cellNum c) (wordOf i) (f (cellOf s (cellNum c))) s := runCell_ready h i _

@[simp] theorem Cell.wg_pc (x : Cell) (d : BitVec 5) (v : U64) : (x.wg d v).pc = x.pc := by unfold Cell.wg; split <;> rfl
@[simp] theorem Cell.wg_instrs (x : Cell) (d : BitVec 5) (v : U64) : (x.wg d v).instrs = x.instrs := by unfold Cell.wg; split <;> rfl
@[simp] theorem Cell.wp_pc (x : Cell) (d : BitVec 3) (v : BitVec 32) : (x.wp d v).pc = x.pc := by unfold Cell.wp; split <;> rfl
@[simp] theorem Cell.wp_instrs (x : Cell) (d : BitVec 3) (v : BitVec 32) : (x.wp d v).instrs = x.instrs := by unfold Cell.wp; split <;> rfl
@[simp] theorem Cell.wv_pc (x : Cell) (d : BitVec 4) (v : BitVec 256) : (x.wv d v).pc = x.pc := rfl
@[simp] theorem Cell.wv_instrs (x : Cell) (d : BitVec 4) (v : BitVec 256) : (x.wv d v).instrs = x.instrs := rfl
@[simp] theorem Cell.wx_pc (x : Cell) (d : BitVec 2) (v : Accum) : (x.wx d v).pc = x.pc := rfl
@[simp] theorem Cell.wx_instrs (x : Cell) (d : BitVec 2) (v : Accum) : (x.wx d v).instrs = x.instrs := rfl

/-- An instruction that retires with new registers. -/
theorem applyOut_done (n w : Nat) (f : Cell → Cell) (s : State) (hp : ∀ x, (f x).pc = x.pc) (hi : ∀ x, (f x).instrs = x.instrs) :
    applyOut n w (.done (f (cellOf s n))) s = updCell n (fun x => { f x with pc := x.pc + 4, instrs := x.instrs + 1 }) s := by
  simp [applyOut, updCell, Cell.next, hp, hi]

/-- A result for a g register. -/
theorem runG_ready (h : Ready c s) (i : Instr) (d : BitVec 5) (f : Cell → U64) : runG c i d f s = retiredG c d f s := by
  rw [runG, runPure_ready h]
  exact applyOut_done _ _ (fun x => x.wg d (f x)) s (by simp) (by simp)

/-- A result for a predicate. -/
theorem runP_ready (h : Ready c s) (i : Instr) (d : BitVec 3) (f : Cell → BitVec 32) : runP c i d f s = retiredP c d f s := by
  rw [runP, runPure_ready h]
  exact applyOut_done _ _ (fun x => x.wp d (f x)) s (by simp) (by simp)

/-- A branch, taken or not. -/
theorem runBranch_ready (h : Ready c s) (i : Instr) (off : BitVec 12) (t : Cell → Bool) :
    runBranch c i off t s = jumped c id (fun y => if t (cellOf s (cellNum c)) then y.pc + sx12 off * 4 else y.pc + 4) s := by
  rw [runBranch, runPure_ready h]
  cases ht : t (cellOf s (cellNum c)) <;> simp [applyOut, jumped, updCell, Cell.next]

/-- An instruction that raises an exception. -/
theorem runPure_raise (h : Ready c s) (i : Instr) (f : Cell → CellOut) (e a v : Nat) (hf : f (cellOf s (cellNum c)) = .raise e a v) :
    runPure c i f s = faulted c e (wordOf i) a v s := by
  rw [runPure_ready h, hf]; rfl

/-- The checks of a load that can be made. -/
theorem loadCheck_ok {a len : Nat} {l : Loc} (h : Loadable s c a len l) : loadCheck s (cellNum c) a len len = .ok l := by
  obtain ⟨h1, h2, h3, h4⟩ := h
  simp [loadCheck, h1, h2, h3, h4]

/-- The checks of a store that can be made. -/
theorem storeCheck_ok {a len : Nat} {l : Loc} (h : Storable s c a len l) : storeCheck s (cellNum c) a len len = .ok l := by
  obtain ⟨h1, h2, h3, h4⟩ := h
  simp [storeCheck, h1, h2, h3, h4]

/-- A load with its bytes. -/
theorem loadThen_ok {a len : Nat} {l : Loc} (h : Loadable s c a len l) (k : List Byte → CellOut) :
    loadThen (cellNum c) a len len k s = (k (locRead s (cellNum c) l len), s) := by
  simp [loadThen, loadCheck_ok h]

/-- Two changes of one cell are one change. -/
theorem updCell_updCell (n : Nat) (f g : Cell → Cell) (s : State) : updCell n f (updCell n g s) = updCell n (fun x => f (g x)) s := by
  simp [updCell, cellOf]

/-- A wait that nothing ends at once leaves the cell waiting. -/
theorem applyOut_wait (n w : Nat) (k : CellWait) (s : State) :
    applyOut n w (.wait k) s = settle n (updCell n (fun x => { x with state := .waiting, wait := some k }) s) := rfl

/-- Loads that a check refuses raise its cause. -/
theorem loadThen_fault {n a len align e : Nat} (h : loadCheck s n a len align = .error e) (k : List Byte → CellOut) :
    loadThen n a len align k s = accessFault n e a s := by simp [loadThen, h]

/-- Stores that a check refuses raise its cause. -/
theorem storeThen_fault {n a align e : Nat} {bs : List Byte} (h : storeCheck s n a bs.length align = .error e) (x : Cell) :
    storeThen n a align bs x s = accessFault n e a s := by simp [storeThen, h]

@[simp] theorem leBytes_length (n v : Nat) : (leBytes n v).length = n := by
  induction n generalizing v with
  | zero => rfl
  | succ n ih => simp [leBytes, ih]

end Sys2Proof.Machine
end

