-- ==== Sys2Proof/Laws/Commands.lean ====
section
/-! SUPPORT. What the shared operations of command queues do: running a descriptor, staging it, committing it alone or in a take. -/

namespace Sys2Proof.Machine

variable {q : QId} {d : Desc} {r : Rule} {s s1 : State}

/-- A command marked I whose descriptor runs and whose fields are in order does exactly what its body says. -/
theorem runI_runs (h : Runs r q d s s1) (fields : Desc → Option Nat) (body : CRef → State → State) (hf : fields d = none) :
    runI q d r fields body s = body (crefOf q d s1) s1 := by
  obtain ⟨⟨h1, h0, h2, rfl⟩, ⟨h3, h4, h5⟩, h6⟩ := h
  simp [runI, h0, h1, h2, h3, h4, h5, h6, hf, firstStatus]

/-- A command marked I that is fetched and whose common checks or field check give a status completes with it. -/
theorem runI_refused (h : Fetched q d s s1) (fields : Desc → Option Nat) (body : CRef → State → State) {st : Nat}
    (hs : firstStatus [haltCheck s1 r, headerCheck d r, if d.stage then some stBadField else none, issuerCheck s1 q d r, fields d] = some st) :
    runI q d r fields body s = completes q d st 0 0 s1 := by
  obtain ⟨h1, h0, h2, rfl⟩ := h
  simp only [runI, h0, h1, h2, Bool.not_true, Bool.false_eq_true, if_false]
  rw [hs]; rfl

/-- A descriptor that cannot be fetched changes nothing. -/
theorem runI_unfetched (h : canFetch s q d.fence = false) (fields : Desc → Option Nat) (body : CRef → State → State) :
    runI q d r fields body s = s := by simp [runI, h]

/-- See `runI_unfetched`, for a command that applies at a boundary. -/
theorem runE_unfetched (h : canFetch s q d.fence = false) (m : Bool) (fields : State → Desc → Option Nat) (copy : State → List Byte) (i : Instr)
    (al : Staged → CRef → State → State) : runE q d r m fields copy i al s = s := by simp [runE, h]

/-- A command issued alone whose fields are in order goes to its commit. -/
theorem runE_alone (h : Runs r q d s s1) (fields : State → Desc → Option Nat) (copy : State → List Byte) (i : Instr)
    (al : Staged → CRef → State → State) (hf : fields s1 d = none) :
    runE q d r false fields copy i al s = al ⟨i, copy s1⟩ (crefOf q d s1) s1 := by
  obtain ⟨⟨h1, h0, h2, rfl⟩, ⟨h3, h4, h5⟩, h6⟩ := h
  simp [runE, h0, h1, h2, h3, h4, h5, h6, hf, firstStatus]

/-- A staged command goes to its take. -/
theorem runE_staged (h : Fetched q d s s1) (hh : haltCheck s1 r = none) (hs : d.stage = true) (m : Bool) (fields : State → Desc → Option Nat)
    (copy : State → List Byte) (i : Instr) (al : Staged → CRef → State → State) :
    runE q d r m fields copy i al s
      = stageCmd q d i (firstStatus [headerCheck d r, issuerCheck s1 q d r, fields s1 d]) (copy s1) (crefOf q d s1) s1 := by
  obtain ⟨h1, h0, h2, rfl⟩ := h
  simp [runE, h0, h1, h2, hh, hs]

/-- Staging into an open take with room. -/
theorem stageCmd_open {i : Instr} {copied : List Byte} {c : CRef} {k : Take} (ht : takeOf s q d.takeId.toNat = some k) (ho : k.state = .open)
    (hl : k.cmds.length < 4096) :
    stageCmd q d i none copied c s = complete c stStaged 0 0 (updTake d.takeId.toNat (fun k => { k with cmds := k.cmds ++ [⟨i, copied⟩] }) s) := by
  have hn : ¬ 4096 ≤ k.cmds.length := by omega
  simp [stageCmd, ht, ho, hn]

/-- A commit that the gaffer can perform, and whose validation passes, is performed. -/
theorem gafferWork_commit {C : Commit} {s2 : State} {own : Nat} (h : CommitReady C s) (hp : C.passed = false) (hv : validate C s = .ok (s2, own))
    (hne : C.cmds ≠ []) : gafferWork s = committed C s s2 own := by
  obtain ⟨h1, h2, h3⟩ := h
  have hn : C.cmds.isEmpty = false := by simpa using hne
  simp [gafferWork, commitAll, h1, runCommits, h2, hv, hn, h3, hp, committed]

/-- A commit of one command validates where the command applies and the state it makes is whole. -/
theorem validate_one {C : Commit} {x : Staged} {s2 : State} {own : Nat} (hc : C.cmds = [x]) (hd : C.drain = none)
    (ha : applyStaged x s = .ok (s2, own)) (hw : wholeFault [x] s s2 = none) : validate C s = .ok (s2, own) := by
  simp [validate, hd, hc, applyAll, ha, hw]

/-- What a completion echoes is the same in a state whose queues are the same. -/
theorem crefOf_congr {t : State} (h1 : t.gaf.opq = s.gaf.opq) (h2 : t.gaf.cmdqs = s.gaf.cmdqs) : crefOf q d t = crefOf q d s := by
  cases q <;> simp [crefOf, genOf, getQ, h1, h2]

/-- A fabric event's work is done unless a load of it waits. -/
theorem fabricDo_eq (f : State → State) : fabricDo f s = .next (moved s (f s)) := rfl

/-- See `fabricDo_eq`, for a command whose body's loads may have to wait. -/
theorem runI_orLater (h : Runs r q d s s1) (fields : Desc → Option Nat) (body : CRef → State → State) (hf : fields d = none) :
    runI q d r fields (orLater s body) s = held s s1 (body (crefOf q d s1) s1) := runI_runs h fields _ hf

/-- A command issued alone takes its effect. -/
theorem alone_applies {i : Instr} {s0 s2 : State} {own : Nat} (h : AppliesAlone r q d i s s0 s2) (fields : State → Desc → Option Nat)
    (hf : ∀ t, fields t d = none) (ha : applyStaged ⟨i, []⟩ s0 = .ok (s2, own)) :
    fabricDo (runE q d r false fields (fun _ => []) i alone) s = .next (moved s (doneAlone q d i s0 s2 own)) := by
  obtain ⟨s1, hr, rfl, hc, hw⟩ := h
  have he : crefOf q d (pushCommit (soloCommit q d i [] s1) s1) = crefOf q d s1 := crefOf_congr rfl rfl
  rw [fabricDo_eq, runE_alone hr _ _ _ _ (hf s1), doneAlone]
  have hg := gafferWork_commit hc rfl (validate_one (C := soloCommit q d i [] s1) rfl rfl ha hw) (List.cons_ne_nil _ _)
  rw [show soloCommit q d i [] (pushCommit (soloCommit q d i [] s1) s1) = soloCommit q d i [] s1 from congrArg (newCommit none _ · none) he, ← hg]
  rfl

/-- TAKE.COMMIT of a take of one command gives that command's effect. -/
theorem commit_applies {x : Staged} {s0 s2 : State} {own : Nat} (h : CommitsOne q d x s s0 s2) (ha : applyStaged x s0 = .ok (s2, own)) (h0 : own = 0) :
    exec (.takeCommit q d) s = .next (moved s (committedOne q d x s0 s2)) := by
  subst h0
  obtain ⟨s1, k, hr, ho, hn, ht, hk, hx, rfl, hc, hw⟩ := h
  have hf : (if onlyFields d [(16, 0, 32)] then none else some stBadField) = (none : Option Nat) := by simp [ho]
  rw [show exec (.takeCommit q d) s = fabricDo (runI q d takeRule (fun d => if onlyFields d [(16, 0, 32)] then none else some stBadField) (bodyTakeCommit q d)) s from rfl,
    fabricDo_eq, runI_runs hr _ _ hf]
  have hv := validate_one (C := newCommit (some d.takeId.toNat) [x] (crefOf q d s1) none) rfl rfl ha hw
  have hg := gafferWork_commit (C := newCommit (some d.takeId.toNat) [x] (crefOf q d s1) none) (by
    rwa [crefOf_congr (s := s1) rfl rfl] at hc) rfl hv (List.cons_ne_nil x [])
  rw [show bodyTakeCommit q d (crefOf q d s1) s1 = gafferWork (pushCommit (newCommit (some d.takeId.toNat) [x] (crefOf q d s1) none)
      (updTake d.takeId.toNat (fun y => { y with state := .committing, frozen := leaseLeft y (clock s1).1 }) (clock s1).2)) by
    rw [bodyTakeCommit]; simp only [ht, hk, hx, hn], hg, committedOne]
  exact congrArg (fun c => Host.Outcome.next (moved s (committed (newCommit (some d.takeId.toNat) [x] c none) _ s2 0))) (crefOf_congr (s := s1) rfl rfl).symm

/-- The common checks of a command marked I, in order: what bars it, what is wrong with its header, who may not send it. -/
theorem runI_common (h : Fetched q d s s1) (fields : Desc → Option Nat) (body : CRef → State → State) :
    let barred := (s1.kpr.lockdown || s1.gaf.bootHalt) && !r.inLock
    let halted := s1.gaf.errorHalt && !r.inHalt
    let ragged := d.rsv != 0 || d.stage || (d.takeId != 0 && !r.takeCmd)
    (barred = true → runI q d r fields body s = completes q d stTamperLock 0 0 s1)
    ∧ (barred = false → halted = true → runI q d r fields body s = completes q d stInternalError 0 0 s1)
    ∧ (barred = false → halted = false → ragged = true → runI q d r fields body s = completes q d stBadField 0 0 s1)
    ∧ (barred = false → halted = false → ragged = false → foreign r q d s1 = true → runI q d r fields body s = completes q d stNotPermitted 0 0 s1) := by
  intro barred halted ragged
  refine ⟨fun hb => ?_, fun hb hh => ?_, fun hb hh hr => ?_, fun hb hh hr hf => ?_⟩
  · have h1 : haltCheck s1 r = some stTamperLock := by unfold haltCheck; rw [if_pos (by simpa [barred] using hb)]
    exact runI_refused h _ _ (by rw [h1]; rfl)
  · have h1 : haltCheck s1 r = some stInternalError := by
      unfold haltCheck; rw [if_neg (by simpa [barred] using hb), if_pos (by simpa [halted] using hh)]
    exact runI_refused h _ _ (by rw [h1]; rfl)
  · have h1 : haltCheck s1 r = none := by
      unfold haltCheck; rw [if_neg (by simpa [barred] using hb), if_neg (by simpa [halted] using hh)]
    refine runI_refused h _ _ ?_
    rw [h1]
    cases hs : d.stage
    · have h2 : headerCheck d r = some stBadField := by
        unfold headerCheck
        by_cases hrs : d.rsv = 0
        · rw [if_neg (by simp [hrs]), if_pos (by simpa [ragged, hrs, hs] using hr)]
        · rw [if_pos (by simpa using hrs)]
      rw [h2]; rfl
    · by_cases hrs : d.rsv = 0
      · have h2 : headerCheck d r = none := by simp [headerCheck, hrs, hs]
        rw [h2]; rfl
      · have h2 : headerCheck d r = some stBadField := if_pos (by simpa using hrs)
        rw [h2]; rfl
  · have h1 : haltCheck s1 r = none := by
      unfold haltCheck; rw [if_neg (by simpa [barred] using hb), if_neg (by simpa [halted] using hh)]
    have hr' : (d.rsv = 0 ∧ d.stage = false) ∧ (¬d.takeId = 0 → r.takeCmd = true) := by simpa [ragged, Bool.or_eq_false_iff] using hr
    obtain ⟨⟨e1, e2⟩, e3⟩ := hr'
    have h2 : headerCheck d r = none := by
      simpa [headerCheck, e1, e2] using e3
    have h3 : issuerCheck s1 q d r = some stNotPermitted := by
      cases q with
      | operator => exact if_pos hf
      | tent t k => exact if_pos hf
    exact runI_refused h _ _ (by rw [h1, h2, h3, e2]; rfl)

/-- The model clock moves on by a free number of ns. -/
theorem clock_eq (s : State) : clock s = (s.now + Config.free s.freeIx, { s with freeIx := s.freeIx + 1, now := s.now + Config.free s.freeIx }) := rfl

/-- Walking a range finds a number that passes the test wherever the range holds one. -/
theorem seek_some {ok : Nat → Bool} (n : Nat) : ∀ lo, (∃ k, lo ≤ k ∧ k < lo + n ∧ ok k = true) →
    ∃ k, lo ≤ k ∧ k < lo + n ∧ ok k = true ∧ seek ok lo n = some k := by
  induction n with
  | zero => rintro lo ⟨k, h1, h2, _⟩; omega
  | succ n ih =>
    rintro lo ⟨k, h1, h2, h3⟩
    by_cases h : ok lo = true
    · exact ⟨lo, by omega, by omega, h, if_pos h⟩
    · have hne : k ≠ lo := fun e => h (e ▸ h3)
      obtain ⟨j, a, b, c, e⟩ := ih (lo + 1) ⟨k, by omega, by omega, h3⟩
      exact ⟨j, by omega, by omega, c, (if_neg h).trans e⟩

/-- A free choice among numbers of which one passes the test. -/
theorem drawFree_some {ok : Nat → Bool} {lo n : Nat} (hn : 0 < n) (h : ∃ k, lo ≤ k ∧ k < lo + n ∧ ok k = true) :
    ∃ k, lo ≤ k ∧ k < lo + n ∧ ok k = true ∧ drawFree ok lo n s = some (k, { s with freeIx := s.freeIx + 1 }) := by
  by_cases h1 : ok (lo + Config.free s.freeIx % n) = true
  · exact ⟨_, by omega, by have := Nat.mod_lt (Config.free s.freeIx) hn; omega, h1, if_pos h1⟩
  · obtain ⟨k, a, b, c, e⟩ := seek_some n lo h
    exact ⟨k, a, b, c, (if_neg h1).trans (by rw [e]; rfl)⟩

end Sys2Proof.Machine
end

