-- ==== Sys2Proof/Laws/Fabric.lean ====
section
/-! SUPPORT. What the shared operations of the fabric do: a port takes a message, an agent answers, a caching request of a quiet line starts at once; and what leaves the coherence state as it is. -/

namespace Sys2Proof.Machine

/-- A port that takes a message hands it on as `Takes` says. -/
theorem receive_takes {p chan : Nat} {m m1 : Msg} {s s1 : State} (h : Takes p chan m s m1 s1) (k : Msg → State → State) :
    receive p chan m k s = k m1 s1 := by
  obtain ⟨h1, rfl, h2⟩ := h
  rcases h2 with ⟨h2, rfl⟩ | ⟨h2, h3, rfl⟩
  · simp [receive, h1, h2]
  · have : ¬ (port s p).credits.recv.getD chan 0 < units (framed m) := by omega
    simp only [receive, h1, h2, this]; simp

/-- An agent's answer is handed on with its line and its agent. -/
theorem agentAnswers_from {p chan : Nat} {cid : BitVec 4} {m m1 : Msg} {s s1 : State} {a l : Nat} (h : FromAgent p chan cid m s a l m1 s1)
   (k : Nat → Nat → Msg → State → State) : agentAnswers p chan cid m k s = k l a m1 s1 := by
  obtain ⟨h1, h2, h3⟩ := h
  simp [agentAnswers, receive_takes h1, h2, h3]

/-- Sending a coherence message leaves the directory and its queue as they are. -/
theorem cohSend_coh (a ty op line tag : Nat) (flow : Nat × Nat) (data : List Byte) (poison : Bool) (s : State) :
   (cohSend a ty op line tag flow data poison s).coh = s.coh := by
  unfold cohSend; simp only []; split <;> rfl

theorem cohKick_empty (n : Nat) (s : State) (h : s.coh.queue = []) : cohKick n s = s := by
  cases n with
  | zero => rfl
  | succ n => simp [cohKick, h, takeFirst]

theorem coh_queue_eta {s : State} (h : s.coh.queue = []) : ({ s with coh := { s.coh with queue := ([] : List (Nat × CohReq)) } } : State) = s := by
  obtain ⟨_, _, _, _, _, _, _, ⟨⟩, _⟩ := s; simp only at h; subst h; rfl

/-- A request of a quiet line, with no other waiting, starts: its snoops leave, or it takes effect at once (R115). -/
theorem cohStart_one {s : State} {l : Nat} {req : CohReq} (hq : s.coh.queue = []) (hb : cohBusy s l = none) (hr : cohBarred s l req = none) :
   (∀ op w, cohPlan s l req (dirOf s l) = (op, w) → w ≠ 0 → cohStart [(l, req)] s =
      (setBits 32 w).foldl (fun s b => cohSend b 0x21 op l 0 (cohFlow s b req) [] false s) (awaitSnoop l { s with coh := { s.coh with txns := s.coh.txns ++ [⟨l, req, w, op, none, none⟩] } }))
   ∧ (∀ op t, cohPlan s l req (dirOf s l) = (op, 0) → cohEnd l req none s = ([], t) → t.coh.queue = [] → cohStart [(l, req)] s = t) := by
  have e := coh_queue_eta hq
  have e1 : takeFirst (fun q : Nat × CohReq => (cohBusy ({ s with coh := { s.coh with queue := [(l, req)] } } : State) q.1).isNone) [(l, req)] = some ((l,req), []) := by
    have : cohBusy ({ s with coh := { s.coh with queue := [(l, req)] } } : State) l = none := hb
    simp [takeFirst, this]
  constructor
  · intro op w hp hw
    unfold cohStart
    simp only [hq, List.nil_append, List.length_cons, List.length_nil]
    rw [show cohFuel s + (0+1) = cohFuel s + 1 from rfl, cohKick]
    simp only [e1, e, hr, hp]
    rw [if_pos (by simpa using hw)]
    apply cohKick_empty
    have : ∀ (L : List Nat) (s : State), (L.foldl (fun s b => cohSend b 0x21 op l 0 (cohFlow s b req) [] false s) s).coh.queue = s.coh.queue := by
      intro L; induction L with
      | nil => intro s; rfl
      | cons x L ih => intro s; rw [List.foldl_cons, ih, cohSend_coh]
    rw [this]
    rfl
  · intro op t hp he ht
    unfold cohStart
    simp only [hq, List.nil_append, List.length_cons, List.length_nil]
    rw [show cohFuel s + (0+1) = cohFuel s + 1 from rfl, cohKick]
    simp only [e1, e, hr, hp]
    rw [if_neg (by simp)]
    simp only [he, List.append_nil, ht]
    rw [cohKick_empty _ _ (by rfl)]
    exact coh_queue_eta ht

theorem countTier_coh (t a n : Nat) (s : State) : (countTier t a n s).coh = s.coh := by
  rfl

theorem countReads_coh (r v) (t n off : Nat) (s : State) : (countReads r v t n off s).coh = s.coh := by
  induction n generalizing off s with
  | zero => rfl
  | succ n ih => rw [countReads, ih, countTier_coh]

theorem cohCount_coh (t l g) (s : State) : (cohCount t l g s).coh = s.coh := by
  unfold cohCount; split
  · exact countReads_coh ..
  · rfl

theorem forgetLine_queue (l) (s : State) : (forgetLine l s).coh.queue = s.coh.queue := by
  unfold forgetLine; split <;> rfl
theorem setDir_queue (l e) (s : State) : (setDir l e s).coh.queue = s.coh.queue := by
  unfold setDir; simp only []; split <;> simp [forgetLine_queue]
theorem dropHolder_queue (l a) (s : State) : (dropHolder l a s).coh.queue = s.coh.queue := by
  unfold dropHolder; simp only []; split
  · split <;> simp [setDir_queue]
  · rw [setDir_queue]
  · rfl
theorem setDir_txns (l e) (s : State) : (setDir l e s).coh.txns = s.coh.txns := by
  unfold setDir forgetLine; simp only []; split
  · split <;> rfl
  · rfl

theorem freePlace_coh (p) (s : State) : (freePlace p s).coh = s.coh := by
  unfold freePlace; repeat' split
  all_goals rfl
theorem fireWaits_coh (k) (s : State) : (fireWaits k s).coh = s.coh := by
  unfold fireWaits; (repeat' split) <;> rfl
theorem clapAdd_coh (k n) (s : State) : (clapAdd k n s).coh = s.coh := by
  unfold clapAdd; rw [fireWaits_coh]
theorem clapOpt_coh (k n) (s : State) : (clapOpt k n s).coh = s.coh := by
  unfold clapOpt; split
  · exact clapAdd_coh ..
  · rfl
theorem endHint_coh (h) (s : State) : (endHint h s).coh = s.coh := by
  unfold endHint; split
  · split
    · exact clapOpt_coh ..
    · rfl
  · rfl
theorem wakeCopies_coh (s : State) : (wakeCopies s).coh = s.coh := by
  unfold wakeCopies; split <;> rfl
theorem foldl_coh {α} (f : State → α → State) (h : ∀ s x, (f s x).coh = s.coh) (L : List α) (s : State) : (L.foldl f s).coh = s.coh := by
  induction L generalizing s with
  | nil => rfl
  | cons x L ih => rw [List.foldl_cons, ih, h]
theorem abandon_coh (h p a b) (s : State) : (abandon h p a b s).coh = s.coh := by
  unfold abandon; split
  · rfl
  · split
    · rfl
    · simp only []; rw [wakeCopies_coh, endHint_coh]; simp only []
      split
      · rw [show ∀ (l n) (s : State), (countAbort l n s).coh = s.coh from fun l n s => by unfold countAbort; split <;> rfl, foldl_coh (fun s (m : TileMove) => freeTarget m.target s) (fun s x => freePlace_coh _ _)]
      · rw [foldl_coh (fun s (m : TileMove) => freeTarget m.target s) (fun s x => freePlace_coh _ _)]
theorem lineWrite_coh (a b c d e) (s : State) : (lineWrite a b c d e s).coh = s.coh := by
  unfold lineWrite; simp only []; (repeat' split) <;> rfl
theorem ras_coh (a b t c d e) (s : State) : (ras a b t c d e s).coh = s.coh := by
  unfold ras; simp only [clock, drawNat]; by_cases h : s.kpr.ras.length ≥ 4096 <;> simp only [h, if_true, if_false] <;> split <;> simp [attn, setFld] <;> (try split) <;> rfl
theorem notePoison_coh (a b c) (s : State) : (notePoison a b c s).coh = s.coh := by
  cases a <;> simp only [notePoison, ras_coh, drawNat]
theorem applyLines_coh (k n bs off en ps) (s : State) : (applyLines k n bs off en ps s).coh = s.coh := by
  induction n generalizing bs off en ps s with
  | zero => rfl
  | succ n ih =>
    unfold applyLines; split
    · rfl
    · simp only []; rw [ih]
      show (if _ then _ else _ : State).coh = _
      split
      · rw [notePoison_coh, lineWrite_coh]; unfold writeAborts abandonIn; rw [foldl_coh _ (fun s x => abandon_coh ..)]
      · rw [lineWrite_coh]; unfold writeAborts abandonIn; rw [foldl_coh _ (fun s x => abandon_coh ..)]
theorem cohPut_queue (l b m p) (s : State) : (cohPut l b m p s).coh.queue = s.coh.queue := by
  unfold cohPut; split
  · split
    · rw [applyLines_coh, forgetLine_queue]
    · rfl
  · rfl

/-- A healthy agent may cache a line of a region that is not being flushed (R118, R119). -/
theorem cohBarred_none {s : State} {a l k r tag f} (hr : regionAt s (l * 64) = some (k, r)) (hf : agentFailed s a = false) (h1 : regionFlushing s k = false) (h2 : agentFlushing s a = false) :
   cohBarred s l (.rdShared a tag f) = none ∧ cohBarred s l (.rdOwn a tag f) = none ∧ cohBarred s l (.ownNoData a tag f) = none := by
  simp [cohBarred, mayCache, hr, hf, h1, h2]

/-- A caching request that nothing turns away is the directory's next (R111). -/
theorem cacheRequest_starts {p : Nat} {c} {m m1 : Msg} {s s1 : State} {a l k r} {op} {rd wr ev} {req} {g : Nat} (h : FromAgent p 2 c m s a l m1 s1) (hp : refusing s1 p = false) (ho : op ≠ 5)
   (hr : regionAt s1 (l * 64) = some (k, r)) (hc : r.coherent = true) (hf : agentFailed s1 a = false) (hrs : resetting s1 0x52 = false)
   (hfl : ev = true ∨ regionFlushing s1 k = false ∧ agentFlushing s1 a = false)
   (t u : Nat) (hg : (if rd then gatePool s1 (agNode (agentEntry s1 a)) (l * 64) 64 false false 0 else .ok 0) = .ok t)
   (hu : (if wr then gatePool s1 (agNode (agentEntry s1 a)) (l * 64) 64 true false 0 else .ok 0) = .ok u) (e : g = if rd then t else u) :
   cacheRequest p c m op rd wr ev req s = cohStart [(l, req a m1 (g, classOf m1))] s1 := by
  obtain ⟨h1, h2, h3⟩ := h
  unfold cacheRequest
  rw [receive_takes h1]
  simp only [hp, h2, h3, hr]
  simp only [hg, hu, ← e]
  rcases hfl with rfl | ⟨e1, e2⟩
  · simp [hc, hf, hrs, ho]
  · simp [hc, hf, hrs, e1, e2, ho]


/-- RD_SHARED where no snoop is needed (Table 5.5). -/
theorem cohEnd_rdShared {s l a tag f} (hf : agentFailed s a = false) (e : DirEntry) (he : dirOf s l = e) :
   ((e.state = .invalid ∨ e.state = .owned ∧ e.owner = a) → cohEnd l (.rdShared a tag f) none s = ([], cohSend a 0x24 0 l tag f (cohMem s l).1 (cohMem s l).2 (cohSend a 0x23 0 l tag f [] false (setDir l { state := .owned, owner := a } (cohCount f.1 l none s)))))
   ∧ (e.state = .shared → cohEnd l (.rdShared a tag f) none s = ([], cohSend a 0x24 0 l tag f (cohMem s l).1 (cohMem s l).2 (cohSend a 0x23 1 l tag f [] false (setDir l { state := .shared, sharers := e.sharers ||| 1 <<< a } (cohCount f.1 l none s))))) := by
  subst he
  constructor
  · intro h
    have : (decide ((dirOf s l).state = .invalid) || decide ((dirOf s l).state = .owned) && decide ((dirOf s l).owner = a)) = true := by
      rcases h with h | ⟨h, h'⟩ <;> simp [*]
    simp [cohEnd, hf, this]
  · intro h
    simp [cohEnd, hf, h]

/-- Work that asks for no line is done at once (log entry 48). -/
theorem held_done {s0 s t : State} (h : t.coh.need = s.coh.need) : held s0 s t = t := by simp [held, h]

theorem formFlit_coh (p : Nat) (s : State) : (formFlit p s).coh = s.coh := rfl
theorem formFlits_coh (p : Nat) (more : FPort → Bool) (n : Nat) (s : State) : (formFlits p more n s).coh = s.coh := by
  induction n generalizing s with
  | zero => rfl
  | succ n ih => rw [formFlits]; split
                 · rw [ih, formFlit_coh]
                 · rfl
theorem packBytes_coh (p : Nat) (bs : List Byte) (s : State) : (packBytes p bs s).coh = s.coh := by
  unfold packBytes fullFlits; split
  · rfl
  · rw [formFlits_coh]; rfl
theorem linkSend_coh (p ty : Nat) (m : Msg) (s : State) : (linkSend p ty m s).coh = s.coh := packBytes_coh ..
theorem linkHears_coh (p : Nat) (s : State) : (linkHears p s).coh = s.coh := by
  unfold linkHears fullFlits; split
  · rfl
  · simp only [drawNat]; rw [formFlits_coh]; rfl
/-- Taking a message leaves the coherence state as it is. -/
theorem takes_coh {p chan : Nat} {m m1 : Msg} {s s1 : State} (h : Takes p chan m s m1 s1) : s1.coh = s.coh := by
  obtain ⟨-, -, ⟨-, rfl⟩ | ⟨-, -, rfl⟩⟩ := h
  · rfl
  · rw [linkSend_coh, linkHears_coh]
theorem drawBytes_coh (n : Nat) (s : State) : (drawBytes n s).2.coh = s.coh := rfl
theorem unwire_coh (m : Msg) (s : State) : (unwire m s).2.coh = s.coh := by
  unfold unwire; split
  · rfl
  · split
    · rfl
    · rfl
theorem addRequest_coh (p ty : Nat) (m : Msg) (a b : Nat) (s : State) : (addRequest p ty m a b s).coh = s.coh := by
  unfold addRequest; by_cases h : edgeRole (port s p).role = true <;> simp only [h] <;> rfl
/-- A request that arrives and is not turned away is in flight, and the rest of the machine goes on from there. -/
theorem arrives_drains {p ty : Nat} {m : Msg} {s s1 : State} (h : Arrives p ty m s s1) : requestArrives p ty m s = s1 ∧ held s s s1 = s1 := by
  obtain ⟨m1, s0, m2, s2, src, a, h1, h2, h3, h4, h5, h6, h7, h8, rfl⟩ := h
  have h7' : ¬ 2 ^ 62 ≤ a := by omega
  have h8' : ¬ ((m2.proto = .native && decide (m2.hops = 0)) = true) := by simpa using h8
  constructor
  · unfold requestArrives
    rw [receive_takes h1]
    simp only [h2, h3, h4, h5, h6, h7', h8', if_false, Bool.false_eq_true]
  · apply held_done
    rw [addRequest_coh, show s2.coh = s0.coh by rw [show s2 = (unwire m1 s0).2 by rw [h3], unwire_coh], takes_coh h1]

end Sys2Proof.Machine
end

