-- ==== Sys2Proof/Tests/Slice0.lean ====
section
/-! SUPPORT. The model's own tests: ill-formed commands refused, words of the encoding tables, the spec's worked examples, and, for each statement with hypotheses, states and operands that meet them. -/

namespace Sys2Proof.Tests
open Sys2Proof Sys2Proof.Machine
set_option Elab.async false

/-! ### Ill-formed commands -/

/-- A descriptor with the operand fields listed as byte, bit, value. -/
def desc (fs : List (Nat × Nat × Nat) := []) (tent : Nat := 0) (takeId : Nat := 0) (stage : Bool := false) : Desc :=
  ⟨stage, false, false, 0, 7, BitVec.ofNat 32 takeId, BitVec.ofNat 7 tent, BitVec.ofNat 384 (fs.foldl (fun a f => a + f.2.2 * 2 ^ (8 * (f.1 - 16) + f.2.1)) 0)⟩

theorem test_wf_fabricPort : (Instr.read 20 {}).wf = false ∧ (Instr.read 19 {}).wf = true := by decide
theorem test_listedOpcode : listedOpcode 0x0001 = true ∧ listedOpcode 0xFFFF = false := by decide
theorem test_wf_message : (Instr.write 0 { length := 4097 }).wf = false ∧ (Instr.write 0 { length := 4096 }).wf = true := by decide
theorem test_wf_linkPort : (Instr.linkUp true 8 1 8 0).wf = false ∧ (Instr.linkUp true 7 1 8 0).wf = true ∧ (Instr.linkUp false 20 1 8 0).wf = false := by decide
theorem test_wf_blockCode : (Instr.resetHoldEnd 0x14).wf = false ∧ (Instr.resetHoldEnd 0x53).wf = false ∧ (Instr.resetHoldEnd 0x52).wf = true := by decide
theorem test_wf_pinCode : (Instr.stuckTimer 9).wf = false ∧ (Instr.stuckTimer 8).wf = true := by decide
theorem test_wf_registerLength : (Instr.registerWrite 0 0 0).wf = false ∧ (Instr.registerWrite 0 8 0).wf = true := by decide
theorem test_wf_window : (Instr.operatorWindowAccess true 0 4 [1]).wf = false ∧ (Instr.operatorWindowAccess true 0 1 [1]).wf = true := by decide
theorem test_wf_digest : (Instr.spdmResponse false 0 true [1]).wf = false ∧ (Instr.spdmResponse false 0 true []).wf = true := by decide

/-! ### Words of the encodings -/

/-- Cell 0 of crew 0, and the last cell. -/
def c0 : CellId := ⟨0, 0⟩
def cLast : CellId := ⟨127, 31⟩

/-- Table 8.25. -/
theorem test_decode_loop : decodeBurpor c0 0x1092B000#32 = some (.ld c0 9 5 0) ∧ decodeBurpor c0 0x02842400#32 = some (.add c0 8 8 9)
    ∧ decodeBurpor c0 0x08528008#32 = some (.addi c0 5 5 8) ∧ decodeBurpor c0 0x18531FFD#32 = some (.bne c0 5 6 0xFFD) := by decide
/-- Tables 8.3, 8.7 and 9.7: a predicate word, a system word, a vector word and an accumulator word, bit by bit. -/
theorem test_decode_vdot : decodeBurpor c0 0x82625880#32 = some (.vdot c0 3 1 2 0xC 2) := by decide
theorem test_decode_store : decodeBurpor c0 (0b0001001#7 ++ 8#5 ++ 6#5 ++ 3#3 ++ 0#12) = some (.st c0 8 6 0) := by decide
theorem test_decode_lui : decodeBurpor c0 (0b0010000#7 ++ 7#5 ++ 1#20) = some (.lui c0 7 1) := by decide
/-- R168: the all-zero word is ILLEGAL. -/
theorem test_decode_zero : decodeBurpor c0 0 = none := by decide
/-- The row table gives no bits to a command. -/
theorem test_decodeTableWord : decodeTableWord 32 0x02842400 = none := rfl

/-! ### Worked examples of the spec -/

/-- The example of R67: channel 0x4C, stack 2. -/
theorem test_channel : channelHash 0x006000123400 0x5A = 0x4C ∧ stackOfC 0x4C 0 0 = 2 ∧ channelHash 0x006000123500 0x5A = 0x4D := by decide
/-- The example after R80: P = 0x06. -/
theorem test_path : pathHash 0x0123 0x006000123400 = 0x06 := by decide
/-- The example after R374: the header of member 5's contribution. -/
theorem test_header : headerBytes 2 { contrib := true, snode := 0x0106, tag := 0x0042, addr := 0x0041802A00001000, length := 0x1000 }
    = [0x02, 0x80, 0xC0, 0x00, 0x06, 0x01, 0x42, 0x00, 0x00, 0x10, 0x00, 0x00, 0x2A, 0x80, 0x41, 0x00,
       0x00, 0x10, 0, 0, 0, 0, 0, 0, 0, 0, 0, 0, 0, 0, 0, 0] := by decide +kernel

/-- The BITMAP example of chapter 7: six bf16 elements of 1,024. -/
def bitmapBlock : List Byte :=
  [0x80, 0x3F, 0x80, 0xBF] ++ List.replicate 6 0 ++ [0x00, 0x40] ++ List.replicate 588 0 ++ [0x40, 0x40] ++ List.replicate 798 0
    ++ [0x80, 0x3E] ++ List.replicate 598 0 ++ [0x00, 0xC0] ++ List.replicate 46 0
theorem test_bitmap : (gsbEncode 1 bitmapBlock 0).length = 172 ∧ (gsbEncode 1 bitmapBlock 0).take 8 = [0xB5, 0x14, 0x8C, 0, 6, 0, 0, 0]
    ∧ (gsbEncode 1 bitmapBlock 0).drop 160 = [0x80, 0x3F, 0x80, 0xBF, 0, 0x40, 0x40, 0x40, 0x80, 0x3E, 0, 0xC0] := by decide +kernel
theorem test_bitmap_decodes : bitmapDecode 2 [0x23] 8 0 [0x80, 0x3F, 0x80, 0xBF, 0x00, 0x40] = [0x80, 0x3F, 0x80, 0xBF, 0, 0, 0, 0, 0, 0, 0, 0x40, 0, 0, 0, 0] := by decide

/-- The MXFP4 example of chapter 9: lane 0 is 0.25 + 2 * 5 = 10.25. -/
theorem test_mxfp4 : dotLane 0xC 0x7F817F7E 0x6307D142 0x14592624 0x3E800000 0 = 0x41240000 := by decide +kernel

/-- The bag of chapter 11: element 0 before and after row 42 is replaced. -/
def bagRow (x : Nat) : RowVal := ⟨[x], [false]⟩
def bagTable : Table := { tent := 9, code := 0, outFmt := 1, dim := 1, stride := 64, rows := 1, codeBase := 0, paramBase := 0 }
theorem test_bag : outRowBytes bagTable (pooled bagTable true [bagRow 0x3F400000, bagRow 0, bagRow 0x40300000]) = [0x95, 0x3F]
    ∧ outRowBytes bagTable (pooled bagTable true [bagRow 0x3F400000, bagRow 0, bagRow 0x40800000]) = [0xCB, 0x3F] := by decide +kernel

/-- The filter of Tables 10.19 and 10.20. -/
def top2 : Filter := { steps := [⟨5, 0, 0, 10, 4, 0, 0x3F000000, 0⟩, ⟨6, 0, 0, 1, 8, 0, 10, 19⟩, ⟨0, 0, 1, 2, 0, 0, 7, 0⟩]
                       smallest := false, indices := true, recLen := 16, k := 2, keyOff := 4, keyType := 10, outAddr := 0, outMax := 2, blooms := [] }
def filterRec (id score cat : Nat) : List Byte := leBytes 4 id ++ leBytes 4 score ++ leBytes 2 cat ++ List.replicate 6 0
theorem test_filter_passes : (([filterRec 3 0x3F400000 12, filterRec 4 0x3ECCCCCD 15, filterRec 7 0x3DCCCCCD 30, filterRec 9 0x3F666666 25,
      filterRec 11 0x3F19999A 10, filterRec 12 0x7FC00000 11, filterRec 15 0x3F400000 19, filterRec 21 0x3F733333 9]).map (passes top2))
    = [true, false, true, false, true, false, true, false] := by decide +kernel
theorem test_filter_rank : ((rank top2 ⟨6, [], keyOf 10 0x3F400000, false⟩ (rank top2 ⟨4, [], keyOf 10 0x3F19999A, false⟩
    (rank top2 ⟨0, [], keyOf 10 0x3F400000, false⟩ [⟨2, [], keyOf 10 0x3DCCCCCD, false⟩]))).map (·.index)) = [0, 6, 4, 2] := by decide +kernel

/-! ### States that meet the hypotheses: cells -/

/-- A machine whose cell 0 of crew 0, and last cell of the last crew, run at a word of a loaded text. -/
def cells (f : Cell → Cell) (k : Crew := {}) (clappers : List (Nat × Clapper) := []) : State :=
  let crew : Crew := { k with loaded := true, textBase := 0x1000, textLen := 64 }
  let cell (pc : U64) : Cell := f { state := .running, pc := pc }
  { crw := { crews := [(0, crew), (127, crew)], cells := [(0, cell 0x101000), (4095, cell 0x10103C)] }, gaf := { clappers := clappers } }

/-- `Ready` by evaluation. -/
theorem ready_of {c : CellId} {s : State} (h : ((cellOf s (cellNum c)).state == .running && (crewOf s (cellNum c / 32)).decode == none && !relocking s (cellNum c / 512)
    && (crewOf s (cellNum c / 32)).loaded && covers (crewBase + (crewOf s (cellNum c / 32)).textBase) (crewOf s (cellNum c / 32)).textLen (cellOf s (cellNum c)).pc.toNat 4
    && !inArea (crewOf s (cellNum c / 32)) ((cellOf s (cellNum c)).pc.toNat - crewBase) 4) = true) : Ready c s := by
  simp only [Bool.and_eq_true, Bool.not_eq_true', beq_iff_eq] at h
  exact ⟨h.1.1.1.1.1, h.1.1.1.1.2, h.1.1.1.2, h.1.1.2, h.1.2, h.2⟩

/-- For every statement about an instruction on a ready cell: the first cell at the first word of its text, and the last cell at the last word. -/
theorem test_hyps_ready : Ready c0 (cells id) ∧ Ready cLast (cells id) := ⟨ready_of (by decide), ready_of (by decide)⟩
/-- BranchAndJumpResults: a jalr target that is a multiple of 4, and one that is not. -/
theorem test_hyps_jalr : let s := cells fun x => x.wg 1 0x101004
    Ready c0 s ∧ (((cellOf s (cellNum c0)).rg 1 + BitVec.ofInt 64 (0#12).toInt).toNat % 4 = 0) ∧ (((cellOf s (cellNum c0)).rg 1 + BitVec.ofInt 64 (0xFFF#12).toInt).toNat % 4 ≠ 0) :=
  ⟨ready_of (by decide), by decide, by decide⟩
/-- LoadAndStoreResults, DotProductAndConversionResults, ReductionMoveAndVectorMemoryResults: the last byte of scratch, the last doubleword of crew memory, the last line of each, the word after the text. -/
theorem test_hyps_loadable : let s := cells id
    Loadable s c0 0xFFFF 1 (.scratch 0xFFFF) ∧ Loadable s c0 0x2FFFF8 8 (.crew 0x1FFFF8) ∧ Loadable s c0 0xFFE0 32 (.scratch 0xFFE0) ∧ Loadable s c0 0x2FFFC0 64 (.crew 0x1FFFC0) := by
  refine ⟨⟨?_, ?_, ?_, ?_⟩, ⟨?_, ?_, ?_, ?_⟩, ⟨?_, ?_, ?_, ?_⟩, ?_, ?_, ?_, ?_⟩ <;> decide
theorem test_hyps_storable : let s := cells id
    Storable s c0 0 1 (.scratch 0) ∧ Storable s c0 0x101040 8 (.crew 0x1040) ∧ Storable s c0 0xFFC0 64 (.scratch 0xFFC0) ∧ Storable s c0 0x2FFFE0 32 (.crew 0x1FFFE0) := by
  refine ⟨⟨?_, ?_, ?_, ?_⟩, ⟨?_, ?_, ?_, ?_⟩, ⟨?_, ?_, ?_, ?_⟩, ?_, ?_, ?_, ?_⟩ <;> decide

/-- A transfer of one line from scratch 0x400 to the fabric, with clapper 5. -/
def xferBytes : List Byte :=
  leBytes 8 0x400 ++ leBytes 8 0x0041001000000000 ++ leBytes 4 64 ++ leBytes 2 1 ++ [0x40, 0] ++ leBytes 4 0 ++ leBytes 4 0 ++ leBytes 4 5 ++ List.replicate 28 0
def dollyState (n : Nat) : State :=
  cells (fun x => { x.wg 1 64 with scratch := writeBytes [] 64 xferBytes, retired := 64, xfers := List.replicate n ⟨1, 0, 0, 0, 64, 1, false, true, 0, 0, none, 1, 0, 1, false, 0, 0, 0, []⟩ })
    { tent := some 9 } [(5, ⟨some 9, 0, false⟩)]
/-- DollyInstructionResults: a good descriptor with a free place and with none, a bad one, and both sides of dwait. -/
theorem test_hyps_dsub : let s := dollyState 15
    Ready c0 s ∧ (∃ t, locOf 64 64 = some (.scratch 64) ∧ locArea s 0 (.scratch 64) 64 = false ∧ parseXfer 64 (locRead s 0 (.scratch 64) 64) = some t ∧ rowsOk s 0 t = true
      ∧ (∀ k, t.clapper = some k → ownsClap s (some (cellTent s 0)) k = true)) ∧ (cellOf s 0).xfers.length < 16 ∧ 16 ≤ (cellOf (dollyState 16) 0).xfers.length :=
  ⟨ready_of (by decide), ⟨_, by decide, by decide, rfl, by decide +kernel, fun k h => by cases (show some 5 = some k from h); decide⟩, by decide, by decide⟩
theorem test_hyps_dsub_bad : let s := cells fun x => x.wg 1 64
    Ready c0 s ∧ locOf 64 64 = some (.scratch 64) ∧ locArea s 0 (.scratch 64) 64 = false ∧ parseXfer 64 (locRead s 0 (.scratch 64) 64) = none := ⟨ready_of (by decide), by decide, by decide, by decide +kernel⟩
theorem test_hyps_dwait : let s := dollyState 15
    Ready c0 s ∧ ((cellOf s 0).rg 1).toNat ≤ (cellOf s 0).retired ∧ (cellOf (cells fun x => x.wg 1 64) 0).retired < ((cellOf (cells fun x => x.wg 1 64) 0).rg 1).toNat :=
  ⟨ready_of (by decide), by decide, by decide⟩

def clapState (v : U64) : State := cells (fun x => (x.wg 1 131071).wg 2 100) { tent := some 9 } [(131071, ⟨some 9, v, false⟩), (5, ⟨some 8, 0, false⟩)]
/-- ClapperInstructionResults: the last clapper, reached and not reached, saturating and not; one past it, and another tent's. -/
theorem test_hyps_clapper : Ready c0 (clapState 100) ∧ ((cellOf (clapState 100) 0).rg 1).toNat < 131072 ∧ clapper (clapState 100) 131071 = some ⟨some (cellTent (clapState 100) 0), 100, false⟩
    ∧ ((cellOf (clapState 99) 0).rg 2).toNat ≤ (100 : U64).toNat ∧ (99 : U64).toNat < ((cellOf (clapState 99) 0).rg 2).toNat := ⟨ready_of (by decide), by decide, by decide, by decide, by decide⟩
theorem test_hyps_clapper_absent : (131072 ≤ 131072) ∧ Ready c0 (cells fun x => x.wg 1 5)
    ∧ (∀ v, clapper (clapState 0) 5 = some v → v.owner ≠ some (cellTent (clapState 0) 0)) :=
  ⟨by decide, ready_of (by decide), fun v h => by cases (show some ⟨some 8, 0, false⟩ = some v from h); decide⟩
theorem test_hyps_saturation : clapper (clapState (BitVec.allOnes 64)) 131071 = some ⟨some 9, BitVec.allOnes 64, false⟩ ∧ (BitVec.allOnes 64).toNat + 1 = 2 ^ 64 := by decide

/-- A hardware queue of 2^1 entries of 64 bytes of tent 9, on a region that its source may read and write as an engine. -/
def hw (h t : BitVec 32) : HwQueue := { tent := 9, cls := 0, weight := 0, n := 1, e := 6, source := 5, put := none, get := none, base := 0x200000, head := h, tail := t }
def region9 (writer : Option Writer := none) : Region :=
  { owner := 9, base := 0x200000, size := 0x200000, ext := 1, runs := [⟨0, 32, 0, []⟩], span := 0, stackSel := 0, seed := 0, slot := 0, keyGen := 0, keyDead := false
    current := 1, reels := [⟨1, []⟩], writer := writer, waiting := none, gsb := none, conv := none, coherent := false, lastMod1 := none, lastMod2 := none }
def allOn : List (Nat × Domain) := (List.range 25).map fun n => (n, { state := .on })
def writer9 : Writer := ⟨1, [], 4, 4, 0, false, 0, none⟩
def pooled9 (s : State) (writer : Option Writer := none) : State :=
  { s with pool := { s.pool with regions := [(3, region9 writer)], free0 := 100000 }
           fab := { s.fab with self := some 0x41, gate := [(0, ⟨5, 9, false, 0, true, true, true, 0x200000, 0x200000⟩)] }
           gaf := { s.gaf with stage := 7, epoch := 1, blobValid := true }
           chip := { s.chip with domains := allOn, rails := true, inReset := false }
           kpr := { s.kpr with tents := [(9, { state := .active, isSealed := false, span := 0, stackSel := 0, seed := 0, slot := 0, sources := [⟨5, 0, .pending, none⟩], tenantKey := none })], slots := [(0, 0)] } }
def queueState (h t : BitVec 32) : State :=
  let s := pooled9 (cells (fun x => (x.wg 1 7).wg 2 64) { tent := some 9 }) (some writer9)
  { s with qm := { queues := [(7, hw h t)] } }
/-- QueueFenceAndBarrierResults: a full queue, one with room whose ring can be written, an empty one, one whose entry can be read. -/
theorem test_hyps_qput_full : let s := queueState 0 2
    Ready c0 s ∧ find s.qm.queues 7 = some (hw 0 2) ∧ (hw 0 2).tent = cellTent s 0 ∧ locOf 64 (2 ^ 6) = some (.scratch 64) ∧ locArea s 0 (.scratch 64) (2 ^ 6) = false ∧ ((hw 0 2).tail - (hw 0 2).head).toNat = 2 ^ 1 :=
  ⟨ready_of (by decide), by decide, by decide, by decide, by decide, by decide⟩
theorem test_hyps_qput : ((hw 0xFFFFFFFF 0).tail - (hw 0xFFFFFFFF 0).head).toNat ≠ 2 ^ 1
    ∧ ∃ s1, engWriteS 5 9 (0x200000 + (0 % 2 ^ 1) * 2 ^ 6) (locRead (queueState 0xFFFFFFFF 0) 0 (.scratch 64) 64) (touchHot 7 (queueState 0xFFFFFFFF 0)) 0 = (true, s1) :=
  ⟨by decide, _, Prod.ext (by decide +kernel) rfl⟩
theorem test_hyps_qget : (hw 4 4).tail = (hw 4 4).head ∧ locText (queueState 0 1) 0 (.scratch 64) 64 = false ∧ (hw 0 1).tail ≠ (hw 0 1).head
    ∧ ∃ r s1, engRead 5 9 0x200000 64 (touchHot 7 (queueState 0 1)) = (some r, s1) := by
  refine ⟨by decide, by decide, by decide, ((engRead 5 9 0x200000 64 (touchHot 7 (queueState 0 1))).1.get (by decide +kernel)), _, Prod.ext (Option.some_get _).symm rfl⟩

def twoCells (w : Option CellWait) : State :=
  let s := cells (fun x => { x with group := 1 }) { tent := some 9 }
  { s with crw := { s.crw with cells := s.crw.cells ++ [(1, { state := if w.isSome then .waiting else .running, wait := w, group := 1 })] } }
/-- QueueFenceAndBarrierResults: transfers in flight and none; a member still to come, and all arrived. -/
theorem test_hyps_fence : (cellOf (cells id) 0).xfers = [] ∧ (cellOf (dollyState 1) 0).xfers ≠ [] := by decide
theorem test_hyps_bar_waits : Ready c0 (twoCells none) ∧ ∃ m ∈ barMembers (twoCells none) 0 1, m ≠ 0 ∧ (cellOf (twoCells none) m).wait ≠ some .bar := ⟨ready_of (by decide), 1, by decide +kernel⟩
theorem test_hyps_bar_opens : Ready c0 (twoCells (some .bar)) ∧ ∀ m ∈ barMembers (twoCells (some .bar)) 0 1, m ≠ 0 → (cellOf (twoCells (some .bar)) m).wait = some .bar := ⟨ready_of (by decide), by decide +kernel⟩

/-- ExceptionResults: a word of no instruction, a cell that does not run, a fetch past the text and in a bound area, and each kind of bad access. -/
theorem test_hyps_illegal : Ready c0 (cells id) ∧ decodeBurpor c0 0 = none ∧ (cellOf (cells fun x => { x with state := .idle }) 0).state ≠ .running := ⟨ready_of (by decide), by decide, by decide⟩
theorem test_hyps_fetch : let s := cells fun x => { x with pc := 0x101040 }
    (cellOf s 0).state = .running ∧ (crewOf s 0).decode = none ∧ relocking s 0 = false ∧ ¬((crewOf s 0).loaded = true ∧ covers (crewBase + (crewOf s 0).textBase) (crewOf s 0).textLen (cellOf s 0).pc.toNat 4 = true) := by
  decide
theorem test_hyps_fetch_area : let s := cells id { area := some ⟨0x1000, 1, 0⟩ }
    (crewOf s 0).loaded = true ∧ covers (crewBase + (crewOf s 0).textBase) (crewOf s 0).textLen (cellOf s 0).pc.toNat 4 = true ∧ inArea (crewOf s 0) ((cellOf s 0).pc.toNat - crewBase) 4 = true := by
  decide
theorem test_hyps_access : let s := cells (fun x => { x with marks := [1] }) { area := some ⟨0x2000, 1, 0⟩ }
    Ready c0 s ∧ 0x10001 % 2 ≠ 0 ∧ locOf 0x10000 4 = none ∧ locOf 0xFFFFFFFFFFFFFFF8 8 = none ∧ locOf 0x102000 8 = some (.crew 0x2000) ∧ locArea s 0 (.crew 0x2000) 8 = true
    ∧ locArea s 0 (.scratch 64) 64 = false ∧ locMarked s 0 (.scratch 64) 64 = true ∧ locText s 0 (.crew 0x103F) 1 = true ∧ locText s 0 (.crew 0x2000) 8 = false := ⟨ready_of (by decide), by decide⟩

/-- Vector statements: a tag of each kind, and tags that are not accepted. -/
theorem test_hyps_tags : (tagFF 0 = some .f32 ∧ tagF 0 = true) ∧ tagI 5 = true ∧ tagFn 0 = true ∧ tagDot 0xC = true ∧ dotOk 0xC 2 = true ∧ dotOk 0xF 0 = false ∧ cvtOk 0 1 0 0 = true
    ∧ cvtOk 0xC 0xD 2 0 = false ∧ tagSplat 0 = true ∧ tagSplat 0xC = false ∧ tagMX 0xC = true ∧ tagMX 0 = false ∧ tagX 0 = true ∧ tagX 5 = false ∧ tagXrd 0 = true ∧ tagXrd 0xC = false
    ∧ (tagF 0xC || tagI 0xC) = false ∧ tagI 0 = false ∧ tagFn 5 = false := by decide
/-- AccumulatorResults: a readout without and with POISON. -/
theorem test_hyps_xrd : Ready c0 (cells fun x => x.wx 1 ⟨1, 1, 0x10⟩) ∧ ((cellOf (cells fun x => x.wx 1 ⟨1, 1, 0x10⟩) 0).rx 1).has flPoison = true ∧ ((cellOf (cells id) 0).rx 1).has flPoison = false :=
  ⟨ready_of (by decide), by decide, by decide⟩
/-- UngovernedElementsKeepTheirValue: the last element of the narrowest tag. -/
theorem test_hyps_element : 7 < tagCount 0 ∧ tagCount 0 = 8 := by decide

/-! ### States that meet the hypotheses: commands -/

/-- A booted machine with one descriptor waiting in the operator queue, or in queue 0 of tent 9. -/
def op9 (f : State → State := id) (w : Option Writer := none) : State := f (pooled9 { gaf := { opq := { enable := true, head := 63, tail := 0 } } } w)
def qOp : QId := .operator
def q9 : QId := .tent 9 0
def tq9 (f : State → State := id) (w : Option Writer := none) : State :=
  f (pooled9 { gaf := { cmdqs := [(144, { enable := true, base := 0x200000, source := 5, tail := 1 })] } } w)
/-- The state after the fetch. -/
def after (q : QId) (s : State) : State := fetchAdvance q (fetchOk q s).2

theorem fetched_of {q : QId} {d : Desc} {s : State} (h : (canFetch s q d.fence && !ringWaits q s && (fetchOk q s).1) = true) : Fetched q d s (after q s) := by
  simp only [Bool.and_eq_true, Bool.not_eq_true'] at h; exact ⟨h.1.1, h.1.2, h.2, rfl⟩
theorem runs_of {r : Rule} {q : QId} {d : Desc} {s : State} (h : (canFetch s q d.fence && !ringWaits q s && (fetchOk q s).1 && (haltCheck (after q s) r).isNone && (headerCheck d r).isNone
    && (issuerCheck (after q s) q d r).isNone && !d.stage) = true) : Runs r q d s (after q s) := by
  simp only [Bool.and_eq_true, Option.isNone_iff_eq_none, Bool.not_eq_true'] at h
  exact ⟨⟨h.1.1.1.1.1.1, h.1.1.1.1.1.2, h.1.1.1.1.2, rfl⟩, ⟨h.1.1.1.2, h.1.1.2, h.1.2⟩, h.2⟩

/-- QueueFetchAndCompletion: the last entry of the ring, without and with FENCE; a completion at the last entry. -/
theorem test_hyps_fetch_wraps : Fetched qOp (desc) op9 (after qOp op9) ∧ op9.gaf.opq.head = 63 ∧ Fetched qOp { desc with fence := true } op9 (after qOp op9) := ⟨fetched_of (by decide), rfl, fetched_of (by decide)⟩
theorem test_hyps_completion : (op9 fun s => { s with gaf := { s.gaf with opq := { s.gaf.opq with cqTail := 63 } } }).gaf.opq.cqTail + 1 = 2 ^ 6 := by decide
/-- CommonChecksRefuseCommands: lockdown, a halt, a reserved bit, a stray take identifier, a tent's operator-only command, the operator acting for a sealed tent. -/
def sealedUp (s : State) : State := { s with kpr := { s.kpr with tents := s.kpr.tents.map fun e => (e.1, { e.2 with isSealed := true }) } }
theorem test_hyps_checks :
    (let s := op9 fun s => { s with kpr := { s.kpr with lockdown := true } }; Fetched qOp desc s (after qOp s) ∧ ((after qOp s).kpr.lockdown && !opRule.inLock) = true)
    ∧ (let s := op9 fun s => { s with gaf := { s.gaf with errorHalt := true } }; Fetched qOp desc s (after qOp s) ∧ ((after qOp s).gaf.errorHalt && !opRule.inHalt) = true ∧ ((after qOp s).kpr.lockdown || (after qOp s).gaf.bootHalt) = false)
    ∧ (Fetched qOp { desc with rsv := 1 } op9 (after qOp op9) ∧ Fetched qOp (desc [] 0 1) op9 (after qOp op9) ∧ haltCheck (after qOp op9) opRule = none)
    ∧ (Fetched q9 (desc [] 9) tq9 (after q9 tq9) ∧ foreign opRule q9 (desc [] 9) (after q9 tq9) = true ∧ foreign anyRule q9 (desc [] 8) (after q9 tq9) = true)
    ∧ (Fetched qOp (desc [] 9) (op9 sealedUp) (after qOp (op9 sealedUp)) ∧ foreign anyRule qOp (desc [] 9) (after qOp (op9 sealedUp)) = true) := by
  refine ⟨⟨fetched_of ?_, ?_⟩, ⟨fetched_of ?_, ?_, ?_⟩, ⟨fetched_of ?_, fetched_of ?_, ?_⟩, ⟨fetched_of ?_, ?_, ?_⟩, fetched_of ?_, ?_⟩ <;> decide +kernel
/-- The three lists of commands are not empty, and a staged command with a fault finds an open take. -/
def taken (st : TakeState) (n : Nat := 0) (s : State) : State :=
  { s with gaf := { s.gaf with takes := [(4, ⟨none, st, List.replicate n ⟨.rngRemove qOp desc, []⟩, 3, 5, 0⟩)] } }
theorem test_hyps_staged_reserved : let s := op9 (taken .open 4095)
    Fetched qOp { desc [] 0 4 true with rsv := 1 } s (after qOp s) ∧ ∃ k, takeOf (after qOp s) qOp 4 = some k ∧ k.state = .open ∧ k.cmds.length < 4096 := ⟨fetched_of (by decide +kernel), _, rfl, rfl, by decide +kernel⟩
/-- UnfetchedAndUnlistedCommands. -/
theorem test_hyps_unfetched : canFetch State.reset qOp false = false ∧ canFetch (op9 fun s => { s with gaf := { s.gaf with opq := { s.gaf.opq with running := 1, head := 62 } } }) qOp true = false := by decide
theorem test_hyps_unlisted : Fetched qOp desc op9 (after qOp op9) ∧ (after qOp op9).kpr.lockdown = false ∧ (after qOp op9).gaf.bootHalt = false ∧ (after qOp op9).gaf.errorHalt = false := ⟨fetched_of (by decide), by decide⟩
/-- DoorbellAndEnableResults: the same TAIL, one short of a full turn and one beyond the ring; CQ_HEAD up to the last completion; a queue enabled and disabled. -/
theorem test_hyps_doorbell : let x := op9.gaf.opq
    getQ op9 qOp = some x ∧ (x.tail + 2 ^ x.n - x.head) % 2 ^ x.n ≤ ((0 : BitVec 64).toNat + 2 ^ x.n - x.head) % 2 ^ x.n ∧ (x.tail + 2 ^ x.n - x.head) % 2 ^ x.n ≤ ((62 : BitVec 64).toNat + 2 ^ x.n - x.head) % 2 ^ x.n
    ∧ ¬((64 : BitVec 64).toNat < 2 ^ x.n) ∧ ¬((x.tail + 2 ^ x.n - x.head) % 2 ^ x.n ≤ ((63 : BitVec 64).toNat + 2 ^ x.n - x.head) % 2 ^ x.n) := by decide
theorem test_hyps_cqHead : let x := (op9 fun s => { s with gaf := { s.gaf with opq := { s.gaf.opq with cqHead := 63, posted := 2 } } }).gaf.opq
    ((1 : BitVec 64).toNat < 2 ^ x.n ∧ ((1 : BitVec 64).toNat + 2 ^ x.n - x.cqHead) % 2 ^ x.n ≤ x.posted) ∧ ((63 : BitVec 64).toNat + 2 ^ x.n - x.cqHead) % 2 ^ x.n ≤ x.posted := by decide
theorem test_hyps_enable : ∃ x y, getQ tq9 q9 = some x ∧ getQ (updQ q9 (fun x => { x with enable := false }) tq9) q9 = some y ∧ y.enable = false := ⟨_, _, rfl, rfl, rfl⟩
/-- TakeLifeCycle: the longest lease with fifteen takes; an open take, a failed and a committing one. -/
theorem test_hyps_takeBegin : let s := op9 fun s => { s with gaf := { s.gaf with takes := (List.range 15).map fun i => (i + 1, ⟨none, .open, [], 0, 5, 0⟩) } }
    let d := desc [(16, 0, 60000)]
    Runs takeRule qOp d s (after qOp s) ∧ onlyFields d [(16, 0, 32)] = true ∧ opf d 16 0 32 = 60000 ∧ (after qOp s).gaf.takes.length = 15 ∧ has (after qOp s).gaf.takes 16 = false := ⟨runs_of (by decide +kernel), by decide +kernel⟩
theorem test_hyps_take (st : TakeState) : let s := op9 (taken st)
    Runs takeRule qOp (desc [] 0 4) s (after qOp s) ∧ (desc [] 0 4).ops = 0 ∧ onlyFields (desc [] 0 4) [(16, 0, 32)] = true ∧ takeOf (after qOp s) qOp 4 = some ⟨none, st, [], 3, 5, 0⟩
    ∧ find s.gaf.takes (4 : BitVec 32).toNat = some ⟨none, st, [], 3, 5, 0⟩ ∧ takeOf (after qOp s) qOp 5 = none := by cases st <;> exact ⟨runs_of (by decide +kernel), by decide +kernel⟩
/-- StagingACommand: RNG.REMOVE into an open take, in order and with a field it does not have; TENT.DESTROY, which must be staged. -/
theorem test_hyps_staging : let s := op9 (taken .open)
    let d := desc [(16, 0, 1)] 9 4 true
    let b : BoundaryCommand := ⟨.rngRemove qOp d, opRule, false, stageRngRemove d, []⟩
    Fetched qOp d s (after qOp s) ∧ b ∈ boundaryCommands qOp d (after qOp s) ∧ haltCheck (after qOp s) b.rule = none ∧ (∃ k, takeOf (after qOp s) qOp 4 = some k ∧ k.state = .open ∧ k.cmds.length < 4096)
    ∧ headerCheck d opRule = none ∧ issuerCheck (after qOp s) qOp d opRule = none ∧ b.fields = none ∧ stageRngRemove (desc [(20, 0, 1)] 9 4 true) = some 0x0102 :=
  ⟨fetched_of (by decide +kernel), by simp [boundaryCommands], by decide +kernel, ⟨_, rfl, rfl, by decide⟩, by decide +kernel⟩
theorem test_hyps_mustStage : let d := desc [] 9
    let b : BoundaryCommand := ⟨.tentDestroy qOp d, opRule, true, fieldsNone d, []⟩
    Fetched qOp d op9 (after qOp op9) ∧ b ∈ boundaryCommands qOp d (after qOp op9) ∧ haltCheck (after qOp op9) b.rule = none ∧ b.mustStage = true := ⟨fetched_of (by decide), by simp [boundaryCommands], by decide, rfl⟩
/-- EpochBoundaryResult. -/
theorem test_hyps_boundary : (∀ a, a < 32 → agValid (mapVal op9 .cohAgent a) = false) ∧ (∀ e ∈ op9.pool.regions, e.2.coherent = false) := by decide +kernel

/-- QueryAndConsentResults. -/
theorem test_hyps_status : Runs { any := true, inLock := true, inHalt := true, sealedOk := true } qOp desc op9 (after qOp op9) ∧ Runs anySealedRule q9 (desc [] 9) tq9 (after q9 tq9) ∧ desc.ops = 0 := ⟨runs_of (by decide), runs_of (by decide +kernel), by decide⟩
theorem test_hyps_identify : let d := desc [(16, 0, 0xFFFF000)]
    Runs anyRule qOp d op9 (after qOp op9) ∧ onlyFields d [(16, 0, 64)] = true ∧ opf d 16 0 64 + 4096 = 0x10000000 := ⟨runs_of (by decide +kernel), by decide +kernel⟩
theorem test_hyps_identify_tent : let d := desc [(16, 0, 0x3FF000)] 9
    let s := tq9 id (some writer9)
    Runs anyRule q9 d s (after q9 s) ∧ onlyFields d [(16, 0, 64)] = true ∧ ringOwned (after q9 s) 9 0x3FF000 4096 = true
    ∧ gatePool (after q9 s) 5 0x3FF000 4096 true true 9 = .ok 9 ∧ writeRefused (after q9 s) 3 (region9 (some writer9)) 5 = none := ⟨runs_of (by decide +kernel), by decide +kernel⟩
theorem test_hyps_logRead : let d := desc [(20, 0, 4096), (24, 0, 0xFFE0000)]
    Runs { any := false, inHalt := true } qOp d op9 (after qOp op9) ∧ fieldsLogRead d = none ∧ opf d 16 0 8 = 0 := ⟨runs_of (by decide +kernel), by decide +kernel⟩
theorem test_hyps_consent : let d := desc [(16, 0, 0xFFFFF40)] 9
    Runs anySealedRule qOp d op9 (after qOp op9) ∧ fieldsConsent qOp d = none ∧ (∃ bs s2 x, tokenBytes qOp (opf d 16 0 64) (after qOp op9) = (some bs, s2) ∧ tent s2 9 = some x ∧ x.state = .active ∧ x.consent = none) :=
  ⟨runs_of (by decide +kernel), by decide +kernel, _, _, _, rfl, rfl, rfl, rfl⟩
def consented (s : State) : State := { s with kpr := { s.kpr with tents := s.kpr.tents.map fun e => (e.1, { e.2 with consent := some (5, 1, 1) }) } }
theorem test_hyps_revoke : let s := op9 consented
    Runs anySealedRule qOp (desc [] 9) s (after qOp s) ∧ ∃ x, tent (after qOp s) 9 = some x ∧ x.consent = some (5, 1, 1) ∧ tent s (9 : BitVec 7).toNat = some x := ⟨runs_of (by decide +kernel), _, rfl, rfl, rfl⟩

/-- CsrCommandResults: a register read; a direct register written; a map register written alone. -/
theorem test_hyps_csrRead : let d := desc [(16, 0, 0x060010)]
    regAt (opf d 16 0 24) = some (.rngRouteStatus, 0) ∧ Runs { any := false, inHalt := true, sealedOk := true } qOp d op9 (after qOp op9) ∧ onlyFields d [(16, 0, 24)] = true ∧ regAbsent .rngRouteStatus = false ∧ regOff (after qOp op9) .rngRouteStatus 0 = false :=
  ⟨by decide +kernel, runs_of (by decide +kernel), by decide +kernel⟩
theorem test_hyps_csrWrite : let d := desc [(16, 0, 0x080100), (24, 0, 20), (32, 0, 0xFFFF)]
    regAt (opf d 16 0 24) = some (.snpRegionSel, 0) ∧ Reg.snpRegionSel.isMap = false ∧ Runs opSealedRule qOp d op9 (after qOp op9) ∧ fieldsCsrWrite (after qOp op9) d = none ∧ opf d 32 0 64 ≠ 0 ∧ (after qOp op9).chip.inReset = false :=
  ⟨by decide +kernel, rfl, runs_of (by decide +kernel), by decide +kernel⟩
/-- ClapperCommandResults: a free clapper, an owned one below and above the threshold, a fired and an expiring wait. -/
def clapped (s : State) : State := { s with gaf := { s.gaf with clappers := [(131071, ⟨none, 7, false⟩)], waits := [(262143, ⟨131071, 7, some 5, ⟨qOp, 7, false, 0⟩⟩)] } }
theorem test_hyps_clapCommands : let s := op9 clapped
    let d (v : Nat) := desc [(16, 0, 131071), (24, 0, v)]
    (Runs anySealedRule qOp (d 7) s (after qOp s) ∧ Runs anySealedRule qOp (d 8) s (after qOp s) ∧ clapAct (after qOp s) qOp (d 7) 131071 = none ∧ onlyFields (d 7) [(16, 0, 17), (20, 0, 32), (24, 0, 64)] = true)
    ∧ opf (d 7) 24 0 64 ≤ counter (after qOp s) 131071 ∧ counter (after qOp s) 131071 < opf (d 8) 24 0 64 ∧ firstFree (after qOp s).gaf.waits 0 262144 = some 0 :=
  ⟨⟨runs_of (by decide +kernel), runs_of (by decide +kernel), by decide +kernel⟩, by decide +kernel⟩
theorem test_hyps_clapAlloc : let d := desc [(24, 0, 2 ^ 64 - 1)]
    Runs anySealedRule qOp d op9 (after qOp op9) ∧ fieldsClapAlloc qOp d = none ∧ (after qOp op9).gaf.clappers.length < 131072 ∧ has (after qOp op9).gaf.clappers 0 = false ∧ clapper (after qOp op9) 131071 = none :=
  ⟨runs_of (by decide +kernel), by decide +kernel⟩
theorem test_hyps_clapWaits : find (op9 clapped).gaf.waits (262143 : BitVec 18).toNat = some ⟨131071, 7, some 5, ⟨qOp, 7, false, 0⟩⟩ ∧ has (op9 clapped).gaf.fired 262143 = false
    ∧ find (op9 fun s => { clapped s with gaf := { (clapped s).gaf with fired := [(262143, 7)] } }).gaf.fired 262143 = some 7 := by decide +kernel

/-- ReelResults: a read open, a write open, a commit, the closes, and each kind of waiting. -/
theorem test_hyps_reelRead : let d := desc [(16, 0, 3), (22, 0, 5)] 9
    Runs anyRule q9 d tq9 (after q9 tq9) ∧ fieldsReelOpen d = none ∧ region (after q9 tq9) 3 = some region9 ∧ has (after q9 tq9).pool.handles 65535 = false
    ∧ (∃ e ∈ (after q9 tq9).fab.gate, e.2.edge = false ∧ e.2.source = 5 ∧ e.2.tent = 9 ∧ e.2.rd = true ∧ covers e.2.base e.2.size 0x200000 0x200000 = true) ∧ readEntry (after q9 tq9) 3 5 = none
    ∧ (∀ g ∈ (after q9 tq9).kpr.guys, ¬(g.1 = 3 ∧ g.2.secondary = true ∧ g.2.state = .syncing)) :=
  ⟨runs_of (by decide +kernel), by decide +kernel⟩
theorem test_hyps_reelWrite : let d := desc [(16, 0, 3), (20, 0, 1), (28, 0, 100000)] 9
    Runs anyRule q9 d tq9 (after q9 tq9) ∧ fieldsReelOpen d = none ∧ opf d 20 0 1 = 1 ∧ opf d 28 0 18 = (after q9 tq9).pool.free0 ∧ region9.writer = none ∧ region9.reels.length < 8 := ⟨runs_of (by decide +kernel), by decide +kernel⟩
def handled (wr : Bool) (s : State) : State := { s with pool := { s.pool with handles := [(1, ⟨3, 9, wr, 5, 1⟩)] } }
theorem test_hyps_reelCommit : let s := tq9 (handled true) (some writer9)
    let d := desc [(16, 0, 1)] 9
    Runs anyRule q9 d s (after q9 s) ∧ Runs anySealedRule q9 d s (after q9 s) ∧ onlyFields d [(16, 0, 16), (18, 0, 1)] = true ∧ find (after q9 s).pool.handles 1 = some ⟨3, 9, true, 5, 1⟩ ∧ issuer q9 = some 9
    ∧ region (after q9 s) 3 = some (region9 (some writer9)) ∧ writer9.commitWait = none
    ∧ guyCommit 3 ⟨q9, 7, false, 0⟩ 2 (commitHead 3 false (after q9 s)) = none := ⟨runs_of (by decide +kernel), runs_of (by decide +kernel), by decide +kernel⟩
theorem test_hyps_reelClose : let s := tq9 (handled false)
    Runs anySealedRule q9 (desc [(16, 0, 1)] 9) s (after q9 s) ∧ find (after q9 s).pool.handles 1 = some ⟨3, 9, false, 5, 1⟩ := ⟨runs_of (by decide +kernel), by decide +kernel⟩
def waitingReel (ow : Option OpenWait) (w : Option Writer) : State := { pool := { regions := [(3, { region9 w with waiting := ow })] } }
theorem test_hyps_reelWaits : let c : CRef := ⟨q9, 7, false, 0⟩
    let w : OpenWait := ⟨1, 4, 5, some 5, c⟩
    let v : Writer := { writer9 with commitWait := some (some 5, c) }
    (∃ r, region (waitingReel (some w) none) (3 : BitVec 18).toNat = some r ∧ r.waiting = some w ∧ w.deadline = some 5 ∧ liveCount r < 8)
    ∧ (∃ r, region (waitingReel none (some v)) (3 : BitVec 18).toNat = some r ∧ r.writer = some v ∧ v.commitWait = some (some 5, c) ∧ liveAfterReopen (waitingReel none (some v)) 3 r ≤ 8
      ∧ guyCommit 3 c 2 (commitHead 3 true (waitingReel none (some v))) = none) :=
  ⟨⟨_, rfl, rfl, rfl, by decide⟩, _, rfl, rfl, rfl, by decide +kernel, by decide +kernel⟩

/-! ### States that meet the hypotheses: commands that apply at a boundary -/

/-- The state that the commit of a command issued alone validates against. -/
def solo (q : QId) (d : Desc) (i : Instr) (s : State) : State := pushCommit (soloCommit q d i [] (after q s)) (after q s)
theorem alone_of {r : Rule} {q : QId} {d : Desc} {i : Instr} {s s2 : State} (h : Runs r q d s (after q s)) (hc : (after q s).gaf.commits = [])
    (ht : transition (after q s) = false ∧ (after q s).gaf.oldMap = none) (hw : wholeFault [⟨i, []⟩] (solo q d i s) s2 = none) : AppliesAlone r q d i s (solo q d i s) s2 :=
  ⟨_, h, rfl, ⟨by simp [solo, pushCommit, hc], ht.1, ht.2⟩, hw⟩

/-- CsrCommandResults: QMG_WEIGHT of the last tent. -/
theorem test_hyps_csrMap : let d := desc [(16, 0, 0x0713F8), (24, 0, 3), (32, 0, 255)]
    let s0 := solo qOp d (.csrWrite qOp d) op9
    regAt (opf d 16 0 24) = some (.qmgWeight, 127) ∧ Reg.qmgWeight.isMap = true ∧ fieldsCsrWrite (after qOp op9) d = none
    ∧ (∃ s2, applyMapValue .qmgWeight 127 (clampMap .qmgWeight (maskedWrite .qmgWeight (mapVal s0 .qmgWeight 127) 3 255)) s0 = .ok (s2, 0) ∧ AppliesAlone opSealedRule qOp d (.csrWrite qOp d) op9 s0 s2) :=
  ⟨by decide +kernel, rfl, by decide +kernel, _, rfl, alone_of (runs_of (by decide +kernel)) rfl ⟨by decide, rfl⟩ (by decide +kernel)⟩

/-- GateAndRouteCommandResults: a pool entry in the last index, an edge entry, one removed, one changed. -/
def attached (s : State) : State := { s with fab := { s.fab with attach := [(19, 5)], ports := [(19, { role := 1, mode := 1, enable := true, link := .l0 })] } }
theorem test_hyps_rngAdd : let d := desc [(16, 0, 16383), (18, 0, 5), (20, 0, 7), (24, 0, 0x400000), (32, 0, 0x10000)] 9
    let e : RngEntry := ⟨5, 9, false, 0, true, true, true, 0x400000, 0x10000⟩
    let s0 := solo qOp d (.rngAdd qOp d) op9
    stageRngAdd d = none ∧ (∃ t, tent s0 9 = some t ∧ t.state = .active) ∧ has s0.fab.gate 16383 = false
    ∧ (∀ x ∈ s0.fab.gate, ¬(x.2.edge = false ∧ x.2.source = e.source ∧ x.2.tent = e.tent ∧ overlaps x.2.base x.2.size e.base e.size = true))
    ∧ (∀ r ∈ s0.pool.regions, r.2.owner = e.tent ∨ overlaps r.2.base r.2.size e.base e.size = false)
    ∧ AppliesAlone opRule qOp d (.rngAdd qOp d) op9 s0 { s0 with fab := { s0.fab with gate := put s0.fab.gate 16383 e } } :=
  ⟨by decide +kernel, ⟨_, rfl, rfl⟩, by decide +kernel, by decide +kernel, by decide +kernel, alone_of (runs_of (by decide +kernel)) rfl ⟨by decide, rfl⟩ (by decide +kernel)⟩
theorem test_hyps_rngAdd_edge : let d := desc [(16, 0, 1), (18, 0, 5), (20, 0, 9), (22, 0, 5), (24, 0, 0), (32, 0, 0x10000)] 9
    let s0 := solo qOp d (.rngAdd qOp d) (op9 attached)
    stageRngAdd d = none ∧ (edgePortOf s0 5).isSome = true ∧ (∀ x ∈ s0.fab.gate, x.2.edge = false) := by decide +kernel
theorem test_hyps_rngRemove : let d := desc [(16, 0, 0)] 9
    let s0 := solo qOp d (.rngRemove qOp d) op9
    onlyFields d [(16, 0, 14)] = true ∧ (∃ x, find s0.fab.gate (opf d 16 0 14) = some x ∧ x.tent = 9) ∧ AppliesAlone opRule qOp d (.rngRemove qOp d) op9 s0 { s0 with fab := { s0.fab with gate := del s0.fab.gate 0 } } :=
  ⟨by decide +kernel, ⟨_, rfl, rfl⟩, alone_of (runs_of (by decide +kernel)) rfl ⟨by decide, rfl⟩ (by decide +kernel)⟩
theorem test_hyps_rngModify : onlyFields (desc [(16, 0, 0), (20, 0, 0)] 9) [(16, 0, 14), (20, 0, 3)] = true ∧ onlyFields (desc [(16, 0, 0), (20, 0, 7)] 9) [(16, 0, 14), (20, 0, 3)] = true := by decide +kernel

/-- ROUTE.SET of each kind, ROUTE.CLEAR of each kind, PORT.ENABLE. -/
def routed (s : State) : State := let s := attached s
  { s with fab := { s.fab with nodes := [(4095, ⟨0x1000, 0x1FFF, 3⟩)], decoders := [(19 * 16 + 15, ⟨0x41, 0, 0x10000, 0⟩)] } }
theorem test_hyps_routeSet : let d := desc [(16, 0, 0), (18, 0, 4095), (20, 0, 1), (22, 0, 2), (24, 0, 0x80000)]
    let s0 := solo qOp d (.routeSet qOp d) op9
    let s2 := { s0 with fab := { s0.fab with nodes := put s0.fab.nodes 4095 ⟨1, 2, 0x80000⟩ } }
    stageRouteSet d = none ∧ routeFault s2 = none ∧ AppliesAlone opRule qOp d (.routeSet qOp d) op9 s0 s2 :=
  ⟨by decide +kernel, by decide +kernel, alone_of (runs_of (by decide +kernel)) rfl ⟨by decide, rfl⟩ (by decide +kernel)⟩
theorem test_hyps_routeSet_kinds : stageRouteSet (desc [(16, 0, 1), (17, 0, 19), (18, 0, 15), (20, 0, 0x41), (32, 0, 0), (40, 0, 0x10000), (48, 0, 0xFFFFFFFF0000)]) = none
    ∧ stageRouteSet (desc [(16, 0, 2), (17, 0, 19), (20, 0, 16383)]) = none ∧ stageRouteSet (desc [(16, 0, 3), (20, 0, 0)]) = none ∧ sealedPort op9 19 = false
    ∧ routeFault { op9 with fab := { op9.fab with self := some 0 } } = none ∧ routeFault { op9 with fab := { op9.fab with attach := [(19, 16383)] } } = none
    ∧ routeFault { op9 with fab := { op9.fab with decoders := [(19 * 16 + 15, ⟨0x41, 0, 0x10000, 0xFFFFFFFF0000⟩)] } } = none := by decide +kernel
theorem test_hyps_routeClear : let s := op9 routed
    (stageRouteClear (desc [(16, 0, 0), (18, 0, 4095)]) = none ∧ find s.fab.nodes 4095 = some ⟨0x1000, 0x1FFF, 3⟩) ∧ (stageRouteClear (desc [(16, 0, 1), (17, 0, 19), (18, 0, 15)]) = none ∧ has s.fab.decoders 319 = true)
    ∧ (stageRouteClear (desc [(16, 0, 2), (17, 0, 19)]) = none ∧ has s.fab.attach 19 = true) ∧ stageRouteClear (desc [(16, 0, 3)]) = none ∧ s.fab.self.isSome = true := by decide +kernel
theorem test_hyps_portEnable : let d := desc [(16, 0, 19), (17, 0, 1)]
    let s0 := solo qOp d (.portEnable qOp d) op9
    stagePortEnable d = none ∧ pdOff s0 (pdFabric 19) = false ∧ AppliesAlone opRule qOp d (.portEnable qOp d) op9 s0 (holdDiff s0 (updPort 19 (fun x => { x with enable := opf d 17 0 1 = 1 }) s0)) :=
  ⟨by decide +kernel, by decide +kernel, alone_of (runs_of (by decide +kernel)) rfl ⟨by decide, rfl⟩ (by decide +kernel)⟩

/-- RegionCommandResults: a region in tier 0, one in tier 1, one released, one handed over, compression turned on. -/
theorem test_hyps_regionCreate : let d := desc [(16, 0, 262143), (24, 0, 0x7FFFFFE00000), (32, 0, 0x200000)] 9
    let s0 := solo qOp d (.regionCreate qOp d) op9
    ∃ t, stageRegionCreate d = none ∧ has s0.pool.regions 262143 = false ∧ (∀ e ∈ s0.pool.regions, overlaps e.2.base e.2.size 0x7FFFFFE00000 0x200000 = false) ∧ tent s0 9 = some t ∧ 0x200000 / tileBytes ≤ s0.pool.free0
    ∧ AppliesAlone opRule qOp d (.regionCreate qOp d) op9 s0 { s0 with pool := { s0.pool with
        nextExt := s0.pool.nextExt + 1, free0 := s0.pool.free0 - 0x200000 / tileBytes, regions := put s0.pool.regions 262143 (newRegion t 9 0x7FFFFFE00000 0x200000 s0.pool.nextExt [⟨0, 32, 0, []⟩] none none) } } :=
  ⟨_, by decide +kernel, by decide +kernel, by decide +kernel, rfl, by decide +kernel, alone_of (runs_of (by decide +kernel)) rfl ⟨by decide, rfl⟩ (by decide +kernel)⟩
def modules (n : Nat) (s : State) : State := { s with fab := { s.fab with trays := [(0, { link := .l0, admitted := true, session := true, free1 := n, units := 4, dGib := 64 })] } }
theorem test_hyps_regionCreate_tier1 : let d := desc [(16, 0, 8), (20, 0, 1), (24, 0, 0), (32, 0, 0x200000)] 9
    let s0 := solo qOp d (.regionCreate qOp d) (op9 (modules 32))
    stageRegionCreate d = none ∧ opf d 20 0 2 = 1 ∧ (allocLower (tagOf 0 false) 1 (8 % 8) 0 (0x200000 / tileBytes) { s0 with pool := { s0.pool with nextExt := s0.pool.nextExt + 1 } }).isSome = true := by decide +kernel
theorem test_hyps_regionRelease : let d := desc [(16, 0, 3)] 9
    let s0 := solo q9 d (.regionRelease q9 d) tq9
    onlyFields d [(16, 0, 18)] = true ∧ region s0 3 = some region9 ∧ has s0.kpr.guys 3 = false
    ∧ AppliesAlone anyRule q9 d (.regionRelease q9 d) tq9 s0 { releaseRegion 3 s0 with kpr := { (releaseRegion 3 s0).kpr with replicas := del s0.kpr.replicas 3 } } :=
  ⟨by decide +kernel, by decide +kernel, by decide +kernel, alone_of (runs_of (by decide +kernel)) rfl ⟨by decide +kernel, by decide +kernel⟩ (by decide +kernel)⟩
def two (s : State) : State := { s with kpr := { s.kpr with tents := s.kpr.tents ++ [(127, { state := .active, isSealed := false, span := 0, stackSel := 0, seed := 0, slot := 1, sources := [], tenantKey := none })] } }
theorem test_hyps_regionSetOwner : let d := desc [(16, 0, 3), (20, 0, 127)] 9
    let s0 := solo q9 d (.regionSetOwner q9 d) (tq9 two)
    onlyFields d [(16, 0, 18), (20, 0, 7)] = true ∧ region s0 3 = some region9 ∧ (tent s0 (opf d 20 0 7)).isSome = true ∧ opf d 20 0 7 ≠ region9.owner
    ∧ AppliesAlone anyRule q9 d (.regionSetOwner q9 d) (tq9 two) s0 (updRegion 3 (fun x => { x with owner := 127 }) { s0 with fab := { s0.fab with gate := [] } }) :=
  ⟨by decide +kernel, by decide +kernel, by decide +kernel, by decide +kernel, alone_of (runs_of (by decide +kernel)) rfl ⟨by decide +kernel, by decide +kernel⟩ (by decide +kernel)⟩
theorem fuse_only {b c : Bool} {n : Nat} {x : Option Nat} (hb : b = false) (hn : n ≠ 0x0102) (hx : x ≠ some 0x0102) : (if b then some 0x0102 else if c then some n else x) ≠ some 0x0102 := by
  subst hb; cases c <;> simp [hn, hx]
theorem test_hyps_cmpSetRegion : let d := desc [(16, 0, 3), (20, 0, 0x81), (24, 0, 0xFFFFFFFF)] 9
    let s0 := solo q9 d (.cmpSetRegion q9 d) tq9
    stageCmpSetRegion d ≠ some 0x0102 ∧ cmpSetting d = some ⟨1, 0⟩ ∧ region s0 3 = some region9 ∧ clapOk s0 (some 9) (opf d 24 0 32) = true ∧ liveCount region9 ≤ 1 ∧ (∀ h ∈ s0.pool.handles, h.2.region ≠ 3)
    ∧ (∀ g, g < granules region9 → placeOf s0 region9 (tileOf region9 (currentView region9) g) = .t0) ∧ headerTiles ⟨1, 0⟩ (granules region9) ≤ s0.pool.free0 ∧ pdOff s0 24 = false
    ∧ (s0.pool.regions.filter fun e => e.2.conv.isSome).length < 16 :=
  ⟨(by unfold stageCmpSetRegion; exact fuse_only (by decide +kernel) (by decide) (by decide)), by decide +kernel⟩

/-- QueueShaperTableAndCacheCommandResults. -/
theorem test_hyps_queueCreate : let d := desc [(16, 0, 1048575), (20, 0, 7), (22, 0, 6), (23, 0, 12), (24, 0, 5), (28, 0, 0xFFFFFFFF), (32, 0, 0xFFFFFFFF), (40, 0, 0x200000)] 9
    let s0 := solo q9 d (.queueCreate q9 d) tq9
    stageQueueCreate d = none ∧ has s0.qm.queues 1048575 = false ∧ (tent s0 9).isSome = true ∧ clapOk s0 (some 9) (opf d 28 0 32) = true ∧ ringOwned s0 9 0x200000 (2 ^ 18) = true ∧ sourceCovers s0 9 5 0x200000 (2 ^ 18) = true
    ∧ AppliesAlone anyRule q9 d (.queueCreate q9 d) tq9 s0 { s0 with qm := { s0.qm with queues := put s0.qm.queues 1048575 ⟨9, 7, 0, 6, 12, 5, none, none, 0x200000, 0, 0, false⟩ } } :=
  ⟨by decide +kernel, by decide +kernel, by decide +kernel, by decide +kernel, by decide +kernel, by decide +kernel, alone_of (runs_of (by decide +kernel)) rfl ⟨by decide +kernel, by decide +kernel⟩ (by decide +kernel)⟩
theorem test_hyps_queueDestroy : let s := tq9 fun s => { s with qm := { s.qm with queues := [(7, hw 0 0)] } }
    onlyFields (desc [(16, 0, 7)] 9) [(16, 0, 20)] = true ∧ find s.qm.queues 7 = some (hw 0 0) ∧ (hw 0 0).tent = 9 := by decide +kernel
theorem test_hyps_cmdqCreate : let d := desc [(16, 0, 15), (17, 0, 6), (18, 0, 5), (20, 0, 0xFFFFFFFF), (24, 0, 0x3FE000)] 9
    let s0 := solo qOp d (.cmdqCreate qOp d) op9
    ∃ y, stageCmdqCreate d = none ∧ has s0.gaf.cmdqs (9 * 16 + 15) = false ∧ tent s0 9 = some y ∧ listed y 5 = true ∧ clapOk s0 (some 9) (opf d 20 0 32) = true ∧ ringOwned s0 9 0x3FE000 (2 ^ 6 * 80) = true
    ∧ sourceCovers s0 9 5 0x3FE000 (2 ^ 6 * 80) = true
    ∧ AppliesAlone opRule qOp d (.cmdqCreate qOp d) op9 s0 { s0 with gaf := { s0.gaf with cmdqs := put s0.gaf.cmdqs 159 { enable := true, n := 6, base := 0x3FE000, source := 5, vtag := s0.gaf.vtime } } } :=
  ⟨_, by decide +kernel, by decide +kernel, rfl, by decide +kernel, by decide +kernel, by decide +kernel, by decide +kernel, alone_of (runs_of (by decide +kernel)) rfl ⟨by decide, rfl⟩ (by decide +kernel)⟩
theorem test_hyps_cmdqDestroy : has (op9 fun s => { s with gaf := { s.gaf with cmdqs := [(159, {})] } }).gaf.cmdqs (9 * 16 + opf (desc [(16, 0, 15)] 9) 16 0 4) = true ∧ onlyFields (desc [(16, 0, 15)] 9) [(16, 0, 4)] = true := by decide +kernel
theorem test_hyps_shaperSet : let d := desc [(16, 0, 4095), (18, 0, 0x20), (19, 0, 0x20), (20, 0, 0), (24, 0, 1), (28, 0, 0), (32, 0, 4096)] 9
    let s0 := solo qOp d (.shaperSet qOp d) op9
    stageShaperSet d ≠ some 0x0102 ∧ opf d 18 7 1 = 0 ∧ opf d 18 5 1 = 1 ∧ (tent s0 9).isSome = true ∧ s0.qm.shapers = []
    ∧ AppliesAlone opRule qOp d (.shaperSet qOp d) op9 s0 { s0 with qm := { s0.qm with shapers := put s0.qm.shapers 4095 { tent := 9, reserved := false, wide := false, cls := 0, kind := 1, index := 0, cir := 0, pir := 1, cbs := 0, pbs := 4096, committed := 0, peak := 0 } } } :=
  ⟨by decide +kernel, by decide +kernel, by decide +kernel, by decide +kernel, rfl, alone_of (runs_of (by decide +kernel)) rfl ⟨by decide, rfl⟩ (by decide +kernel)⟩
theorem test_hyps_shaperReserved : stageShaperSet (desc [(16, 0, 0), (18, 0, 0x40), (19, 0, 0x40), (20, 0, 1), (24, 0, 1), (28, 0, 4096), (32, 0, 4096)] 9) ≠ some 0x0102 := by
  unfold stageShaperSet; rw [if_neg (by decide +kernel)]; exact fuse_only (by decide +kernel) (by decide) (by decide)
theorem behind_fuse {f : Nat} {c : Desc → Option Nat} {d : Desc} (h : c d = none) : behindFuse f c d ≠ some 0x0102 := by
  unfold behindFuse; rw [h]; cases fused f <;> simp [stFeatureDisabled]
theorem test_hyps_embDefine : let d := desc [(16, 0, 255), (18, 0, 32), (20, 0, 32), (24, 0, 1), (32, 0, 0x200000), (40, 0, 0x3FFFC0)] 9
    let s0 := solo q9 d (.embDefine q9 d) tq9
    pdOn s0 23 = true ∧ stageEmb d ≠ some 0x0102 ∧ opf d 17 7 1 = 0 ∧ has s0.gth.tables 255 = false ∧ ownedRange s0 9 (opf d 32 0 64) (opf d 24 0 64 * opf d 20 0 32) = true ∧ ownedRange s0 9 (opf d 40 0 64) (opf d 24 0 64 * 4) = true
    ∧ AppliesAlone anyRule q9 d (.embDefine q9 d) tq9 s0 { s0 with gth := { s0.gth with tables := put s0.gth.tables 255 (tableOf d) } } :=
  ⟨by decide +kernel, (by unfold stageEmb; rw [if_neg (by decide +kernel)]; exact behind_fuse (by decide +kernel)), by decide +kernel, by decide +kernel, by decide +kernel, by decide +kernel,
    alone_of (runs_of (by decide +kernel)) rfl ⟨by decide +kernel, by decide +kernel⟩ (by decide +kernel)⟩
def table9 : Table := { tent := 9, code := 0, outFmt := 0, dim := 32, stride := 32, rows := 1, codeBase := 0x200000, paramBase := 0x3FFFC0 }
def cache9 : KvCache := { tent := 9, fmt := 0, hkv := 1, dh := 32, seqs := 1, pages := 1, base := 0x200000, kScale := 0x3F800000, vScale := 0x3F800000 }
def gathered (s : State) : State := { s with gth := { s.gth with tables := [(255, table9)], caches := [(15, cache9)], views := [(255, 15, 0)] } }
theorem test_hyps_deletes : let s := tq9 gathered
    stageEmb (desc [(16, 0, 255), (17, 7, 1)] 9) = none ∧ find s.gth.tables 255 = some table9 ∧ stageKv (desc [(16, 0, 15), (16, 7, 1)] 9) = none ∧ find s.gth.caches 15 = some cache9 := by decide +kernel
theorem test_hyps_kvDefine : let d := desc [(16, 0, 15), (18, 0, 1), (20, 0, 32), (22, 0, 4096), (24, 0, 1), (32, 0, 0x200000), (40, 0, 0x3F800000), (44, 0, 0x3F800000)] 9
    let s0 := solo q9 d (.kvDefine q9 d) tq9
    stageKv d ≠ some 0x0102 ∧ opf d 16 7 1 = 0 ∧ has s0.gth.caches 15 = false ∧ ownedRange s0 9 (cacheOf d).base ((cacheOf d).pages * (cacheOf d).pageBytes) = true ∧ kvTiles 4096 ≤ s0.pool.free0 :=
  ⟨(by unfold stageKv; rw [if_neg (by decide +kernel)]; exact behind_fuse (by decide +kernel)), by decide +kernel⟩

/-- ClaimAndPinCommandResults: the last of each class, a pin, a replica set. -/
theorem test_hyps_pinSet : let d := desc [(16, 0, 15), (17, 0, 4), (19, 0, 255)]
    let s0 := solo qOp d (.pinSetFunction qOp d) op9
    stagePinSet d = none ∧ (pin s0 15).func = 0 ∧ stagePinSet (desc [(16, 0, 0), (17, 0, 2), (18, 0, 1)]) = none ∧ AppliesAlone opRule qOp d (.pinSetFunction qOp d) op9 s0 s0 :=
  ⟨by decide +kernel, by decide +kernel, by decide +kernel, alone_of (runs_of (by decide +kernel)) rfl ⟨by decide, rfl⟩ (by decide +kernel)⟩
def claims (s : State) : State := { s with gaf := { s.gaf with claims := [(2 * 2 ^ 32 + 31, 0)] }, chip := { s.chip with pins := [(15, { func := 1 })] } }
theorem test_hyps_claims : let s := op9 claims
    stageTimerClaim (desc [(16, 0, 2), (20, 0, 31)]) = none ∧ claimed op9 2 31 = false ∧ stageBufferClaim (desc [(16, 0, 4), (20, 0, 63)]) = none ∧ claimed op9 4 63 = false ∧ bufferHeld op9 63 = false
    ∧ stageResRelease (desc [(16, 0, 2), (20, 0, 31)]) = none ∧ claimed s 2 31 = true ∧ stageResRelease (desc [(16, 0, 1), (20, 0, 15)]) = none ∧ (pin s 15).func ≠ 0 := by decide +kernel
theorem test_hyps_replicaSet : let d := desc [(16, 0, 3), (20, 0, 1), (22, 0, 5), (24, 0, 0x1000000000000000)]
    let s0 := solo qOp d (.replicaSet qOp d) (op9 routed)
    stageReplicaSet d ≠ some 0x0102 ∧ region s0 3 = some region9 ∧ tentSealed s0 9 = false ∧ s0.fab.self ≠ some 0x1000 ∧ bits 0x1000000000000000 48 14 = 0x1000 ∧ (nodeRoute s0 0x1000).isSome = true ∧ stageReplicaSet (desc [(16, 0, 3)]) = none :=
  ⟨by unfold stageReplicaSet; exact fuse_only (by decide +kernel) (by decide) (by decide), by decide +kernel, by decide +kernel, by decide +kernel, by decide +kernel, by decide +kernel, (by unfold stageReplicaSet; rw [if_neg (by decide +kernel), if_neg]; rw [show decide (0 < opf (desc [(16, 0, 3)]) 20 0 2) = false by decide +kernel]; simp)⟩

/-- StagedOnlyCommandEffects: a take of one command, committed; what each command needs. -/
def oneTake (i : Instr) (s : State) : State := { s with gaf := { s.gaf with takes := [(4, ⟨none, .open, [⟨i, []⟩], 0, 5, 0⟩)] } }
def dCommit : Desc := desc [(16, 0, 0xFFFFFFFF)] 0 4
def takenUp (i : Instr) (s : State) : State :=
  let s1 := after qOp s
  pushCommit (newCommit (some 4) [⟨i, []⟩] (crefOf qOp dCommit s1) none) (updTake 4 (fun y => { y with state := .committing, frozen := leaseLeft y (clock s1).1 }) (clock s1).2)
theorem commits_of {i : Instr} {s s2 : State} (hr : Runs takeRule qOp dCommit s (after qOp s)) (hk : takeOf (after qOp s) qOp 4 = some ⟨none, .open, [⟨i, []⟩], 0, 5, 0⟩)
    (hc : (after qOp s).gaf.commits = []) (ht : transition (after qOp s) = false ∧ (after qOp s).gaf.oldMap = none) (hw : wholeFault [⟨i, []⟩] (takenUp i s) s2 = none) :
    ∃ s0, CommitsOne qOp dCommit ⟨i, []⟩ s s0 s2 :=
  ⟨takenUp i s, after qOp s, _, hr, by decide +kernel, by decide +kernel, hk, rfl, rfl, rfl, ⟨(by simp only [takenUp, pushCommit, updTake, clock, drawNat, hc]; rfl), by simpa [takenUp, transition, pushCommit, updTake, clock, drawNat] using ht.1, by simpa [takenUp, pushCommit, updTake, clock, drawNat] using ht.2⟩, hw⟩
theorem test_hyps_commitsOne : ∃ s0, CommitsOne qOp dCommit ⟨.rushesEnd qOp desc, []⟩ (op9 (oneTake (.rushesEnd qOp desc))) s0 op9 := commits_of (runs_of (by decide +kernel)) rfl rfl ⟨by decide, rfl⟩ (by decide +kernel)
theorem test_hyps_tentCreate : parseSources 1 ([0x05, 0x00, 19] ++ List.replicate 5 0) = some [⟨5, 19, .pending, none⟩] ∧ attachOf (op9 attached) 19 = some 5 ∧ edgeRole (port (op9 attached) 19).role = true
    ∧ tent op9 127 = none ∧ freeSlot op9 = some 1 ∧ opf (desc [(16, 0, 0)]) 16 7 1 = 0 := by decide +kernel
theorem test_hyps_tentDestroy : ∃ s2, applyTentDestroy (desc [] 9) op9 = .ok (s2, 0) := ⟨_, rfl⟩
theorem test_hyps_portRole : pdOff op9 (pdFabric 19) = false ∧ sealedPort op9 19 = false := by decide +kernel
theorem test_hyps_guy : let s := op9 fun s => setMapVal .gafFailDomain 0 1 (routed s)
    s.fab.self ≠ some 0x1000 ∧ (nodeRoute s 0x1000).isSome = true ∧ mapVal s .gafFailDomain 0 ≠ 0 ∧ clapOk s none 0xFFFFFFFF = true ∧ tentSealed s 9 = false ∧ has s.kpr.guys 3 = false ∧ dirtyMapTiles region9 ≤ s.pool.free0 := by decide +kernel
theorem test_hyps_crewAssign : let e := desc [(16, 127, 1)] 9
    (tent op9 9).isSome = true ∧ opf e 32 0 1 = 0 ∧ crewsIn e = [127] ∧ (∀ n ∈ crewsIn e, (crewOf op9 n).clearing = false ∧ assigned op9 n = none ∧ pdOff op9 (pdCrew n) = false) := by decide +kernel
theorem test_hyps_rushes : let s := op9 fun s => { s with fab := { s.fab with ports := [(19, { role := 3 })] } }
    (∀ p ∈ setBits 20 (2 ^ 19), (port s p).role = 3) ∧ s.gaf.rushes.state = 0 ∧ clapOk s none 0xFFFFFFFF = true := by decide +kernel

/-! ### States that meet the hypotheses: tiers, crews, windows, tables, near-bank units, power -/

/-- Bytes placed in the region of `pooled9`, by offset. -/
def holding (l : List (Nat × List Byte)) (s : State) : State :=
  { s with pool := { s.pool with mem := l.foldl (fun m x => writeBytes m (tileAddr (2 ^ 24) (x.1 - 0x200000)) x.2) s.pool.mem } }
/-- A read by an engine, as the state it leaves. -/
theorem read_of {α β : Type} {p : α × β} {x : α} (h : p.1 = x) : p = (x, p.2) := by subst h; rfl

/-- TierSlateAndRetrainResults: the whole region queried, a hint to tier 1 and one to tier 0, a region cleared, a slate at the last place of the window, a weight commitment, the last port at the lowest and highest rate. -/
theorem test_hyps_tierQuery : let d := desc [(22, 0, 5), (24, 0, 0x200000), (32, 0, 0x200000), (40, 0, 0x3FFFC0)] 9
    let s := tq9 id (some writer9)
    Runs anySealedRule q9 d s (after q9 s) ∧ fieldsTierQuery d = none ∧ regionAt (after q9 s) 0x200000 = some (3, region9 (some writer9)) ∧ rangeCheck (after q9 s) 3 (region9 (some writer9)) 9 5 0x200000 0x200000 = none
    ∧ (engWriteS 5 9 0x3FFFC0 (List.replicate 64 0) (after q9 s)).1 = true := ⟨runs_of (by decide +kernel), by decide +kernel⟩
theorem test_hyps_placeHint : let d (t : Nat) := desc [(20, 0, t), (22, 0, 5), (24, 0, 0x200000), (32, 0, 0x20000), (16, 0, 0xFFFFFFFF)] 9
    let s := tq9 (modules 4)
    Runs anySealedRule q9 (d 1) s (after q9 s) ∧ fieldsPlaceHint (d 1) ≠ some 0x0102 ∧ fieldsPlaceHint (d 0) ≠ some 0x0102 ∧ rangeCheck (after q9 s) 3 region9 9 5 0x200000 0x20000 = none
    ∧ clapOk (after q9 s) (issuer q9) (opf (d 1) 16 0 32) = true ∧ pdOff (after q9 s) 13 = false ∧ firstFree (after q9 s).pool.hints 0 256 = some 0
    ∧ (setAside 3 region9 1 0 2 (after q9 s)).isSome = true ∧ (setAside 3 region9 0 0 0 (after q9 s)).isSome = true :=
  ⟨runs_of (by decide +kernel), by decide +kernel⟩
theorem test_hyps_memClear : let d := desc [(16, 0, 3), (20, 0, 0xFFFFFFFF)]
    Runs opRule qOp d op9 (after qOp op9) ∧ fieldsMemClear d = none ∧ region (after qOp op9) (opf d 16 0 18) = some region9 ∧ clapOk (after qOp op9) none (opf d 20 0 32) = true
    ∧ (∀ h ∈ (after qOp op9).pool.handles, h.2.region ≠ opf d 16 0 18) ∧ region9.waiting = none ∧ liveCount region9 = 1 := ⟨runs_of (by decide +kernel), by decide +kernel⟩
theorem test_hyps_slateDevice : let d := desc [(16, 0, 0xFFFF), (56, 0, 0xFFFFFC0)] 9
    Runs anySealedRule qOp d op9 (after qOp op9) ∧ fieldsSlateGet qOp d = none ∧ (∃ x, tent (after qOp op9) 9 = some x ∧ x.state = .active) ∧ opf d 16 0 16 = 0xFFFF :=
  ⟨runs_of (by decide +kernel), by decide +kernel, ⟨_, rfl, rfl⟩, by decide +kernel⟩
theorem test_hyps_slateWeight : let d := desc [(16, 0, 1), (56, 0, 0x200000)] 9
    let s := tq9 (handled false)
    Runs anySealedRule q9 d s (after q9 s) ∧ fieldsSlateGet q9 d = none ∧ (∃ x, tent (after q9 s) 9 = some x ∧ x.state = .active ∧ x.weights.length + ((after q9 s).kpr.hashing.filter (·.tent = 9)).length < 64)
    ∧ find (after q9 s).pool.handles (opf d 16 0 16) = some ⟨3, 9, false, 5, 1⟩ ∧ region (after q9 s) 3 = some region9 ∧ pdOn (after q9 s) 24 = true :=
  ⟨runs_of (by decide +kernel), by decide +kernel, ⟨_, rfl, rfl, by decide⟩, by decide +kernel⟩
theorem test_hyps_retrain : let d (r : Nat) := desc [(16, 0, 19), (17, 0, r)]
    Runs opSealedRule qOp (d 2) op9 (after qOp op9) ∧ fieldsPortRetrain (d 0) = none ∧ fieldsPortRetrain (d 2) = none ∧ pdOff (after qOp op9) (pdFabric (opf (d 2) 16 0 5)) = false := ⟨runs_of (by decide +kernel), by decide +kernel⟩

/-- CrewCommandResults: the shortest image, into the last crew; the last crew's last cell started at the image's entry and at its last word, stopped while running and while idle; the last group at both ends of the range. -/
def imageBytes : List Byte := leBytes 4 0x50525542 ++ leBytes 4 1 ++ leBytes 4 0 ++ leBytes 4 4 ++ leBytes 4 0 ++ leBytes 4 0 ++ leBytes 4 0 ++ leBytes 4 68 ++ List.replicate 36 0
def crewed (k : Crew) (x : Cell := {}) (s : State) : State := { s with crw := { s.crw with crews := [(127, { k with tent := some 9 })], cells := [(4095, x)] } }
theorem test_hyps_imageLoad : let d := desc [(16, 127, 1), (32, 0, 5), (36, 0, 68), (40, 0, 0x200000)] 9
    let s := tq9 fun s => crewed {} {} (holding [(0x200000, imageBytes)] s)
    ∃ r s2 x, Runs anyRule q9 d s (after q9 s) ∧ fieldsImageLoad d = none ∧ engRead (opf d 32 0 14) 9 (opf d 40 0 64) (opf d 36 0 32) (after q9 s) = (some r, s2)
      ∧ fieldAt r.data 28 4 = opf d 36 0 32 ∧ imageBad r.data = false ∧ opf d 36 0 32 = 64 + fieldAt r.data 12 4 + fieldAt r.data 16 4 + fieldAt r.data 20 4
      ∧ (∀ k ∈ crewsIn d, assigned (after q9 s) k = some 9 ∧ crewBusy (after q9 s) k = false ∧ pdOn (after q9 s) (pdCrew k) = true) ∧ tent (after q9 s) 9 = some x ∧ x.images.length < 64 :=
  ⟨⟨imageBytes, false, 0⟩, _, _, runs_of (by decide +kernel), by decide +kernel, read_of (by decide +kernel), by decide +kernel, by decide +kernel, by decide +kernel, by decide +kernel, rfl, by decide⟩
theorem test_hyps_crewStart : let d (e : Nat) := desc [(16, 127, 1), (32, 31, 1), (36, 0, e), (40, 0, 5), (44, 0, 0xFFFFFFFF), (48, 0, 0xFFFFFFFF)] 9
    let s := tq9 (crewed { loaded := true, textLen := 8 })
    Runs anyRule q9 (d 4) s (after q9 s) ∧ fieldsCrewStart (d 4) = none ∧ fieldsCrewStart (d 0xFFFFFFFF) = none ∧ cellsIn (d 4) = [4095]
      ∧ (∀ k ∈ crewsIn (d 4), opf (d 4) 36 0 32 < (crewOf (after q9 s) k).textLen ∧ assigned (after q9 s) k = some 9 ∧ (crewOf (after q9 s) k).loaded = true
        ∧ resetting (after q9 s) (0x40 + k / 16) = false ∧ pdOn (after q9 s) (pdCrew k) = true)
      ∧ clapOk (after q9 s) (some 9) (opf (d 4) 44 0 32) = true ∧ (∃ g ∈ (after q9 s).fab.gate, g.2.source = opf (d 4) 40 0 14 ∧ g.2.tent = 9) ∧ (cellOf (after q9 s) 4095).state.active = false :=
  ⟨runs_of (by decide +kernel), by decide +kernel⟩
theorem test_hyps_crewStop : let d := desc [(16, 127, 1), (32, 31, 1)] 9
    let s := tq9 (crewed { loaded := true, textLen := 8 } { state := .running })
    Runs anySealedRule q9 d s (after q9 s) ∧ fieldsCrewStop d = none ∧ (∀ k ∈ crewsIn d, assigned (after q9 s) k = some 9) ∧ (cellsIn d).filter (fun n => decide ((cellOf (after q9 s) n).state = .running)) = [4095] := ⟨runs_of (by decide +kernel), by decide +kernel⟩
theorem test_hyps_setFreq : let d (f : Nat) := desc [(16, 0, 128), (18, 0, f)]
    Runs opRule qOp (d 400) op9 (after qOp op9) ∧ fieldsSetFreq (d 400) = none ∧ fieldsSetFreq (d 1800) = none ∧ (∀ g ∈ setBits 8 (opf (d 400) 16 0 8), pdOff (after qOp op9) (15 + g) = false ∧ groupBusy (after qOp op9) g = false) :=
  ⟨runs_of (by decide +kernel), by decide +kernel⟩

/-- CollectiveCommandResults: a reduction over one crew, a multicast of one chunk, a closed and a rearmed window, a report. -/
def block (kind : Nat) : List Byte :=
  if kind = 1 then [0, 0, 0, 0] ++ leBytes 2 1 ++ [1, 0] ++ leBytes 4 64 ++ leBytes 4 0 ++ leBytes 16 (2 ^ 127) ++ leBytes 4 0 ++ leBytes 4 0 ++ leBytes 8 0x210000 ++ leBytes 8 0 ++ leBytes 8 0
    ++ leBytes 8 0x220000 ++ List.replicate 152 0 ++ leBytes 8 (2 ^ 64 - 1) ++ List.replicate 152 0 ++ List.replicate 128 0
  else [0, 0, 0, 0] ++ leBytes 2 2 ++ [0, 0] ++ leBytes 4 16 ++ leBytes 4 0 ++ leBytes 16 (2 ^ 127) ++ leBytes 4 0x1FFC00 ++ leBytes 4 0 ++ leBytes 8 0x210000 ++ List.replicate 464 0
theorem test_hyps_collOpen : let d := desc [(16, 0, 4095), (18, 0, 0), (20, 0, 5), (24, 0, 0xFFFFFFFF), (32, 0, 0x200000)] 9
    let s := tq9 fun s => crewed {} {} (holding [(0x200000, block 0), (0x210000, [0, 0, 0xFF, 0x3F])] s)
    ∃ p l s2 s3, Runs anyRule q9 d s (after q9 s) ∧ fieldsCollOpen d ≠ some 0x0102 ∧ engRead 5 9 (opf d 32 0 64) 512 (after q9 s) = (some p, s2) ∧ p.poison = false ∧ paramBad p.data 0 = false
      ∧ readLists p.data 0 5 9 s2 = (l, s3) ∧ listsBad p.data l = false ∧ lengthBad p.data 0 = false ∧ clapOk s3 (some 9) (opf d 24 0 32) = true ∧ rangesOk s3 p.data 0 5 9 l = true ∧ window s3 4095 = none
      ∧ (∀ k ∈ setBits 128 (fieldAt p.data 16 16), assigned s3 k = some 9 ∧ pdOff s3 (pdCrew k) = false ∧ (crewOf s3 k).area = none)
      ∧ fieldAt p.data 32 4 + 64 * recordsOf 16 4 1 = 2097152 ∧ memberSlots s3 + 2 ≤ 262144 ∧ bloomBytes s3 = 0 :=
  ⟨⟨block 0, false, 0⟩, _, _, _, runs_of (by decide +kernel), by decide +kernel, read_of (by decide +kernel), by decide +kernel, by decide +kernel, read_of (Eq.refl _),
    by decide +kernel, by decide +kernel, by decide +kernel, by decide +kernel, by decide +kernel, by decide +kernel, by decide +kernel, by decide +kernel, by decide +kernel⟩
theorem test_hyps_collOpen_buffer : claimed tq9 4 63 = false ∧ bufferHeld tq9 63 = false ∧ paramBad (block 1) 1 = false ∧ lengthBad (block 1) 1 = false := by decide +kernel
def window9 (st : WState) : Window :=
  { tent := 9, kind := 0, source := 5, clapper := none, timeout := 0, op := 0, inFmt := 0, outFmt := 0, count := 16, lateNs := 0, crews := [127], areaBase := 0, records := 16, dataAddr := 0, members := [{ node := 0 }, { node := 16383 }]
    dests := [], buffer := none, filter := none, state := st, start := 0 }
theorem test_hyps_collClose : let d (r : Nat) := desc [(16, 0, 4095), (18, 0, r)] 9
    let s (st : WState) := tq9 fun s => { s with win := [(4095, window9 st)] }
    Runs anyRule q9 (d 1) (s .complete) (after q9 (s .complete)) ∧ onlyFields (d 1) [(16, 0, 12), (18, 0, 1)] = true ∧ window (after q9 (s .complete)) 4095 = some (window9 .complete)
      ∧ Runs anyRule q9 (d 0) (s .open) (after q9 (s .open)) ∧ opf (d 0) 18 0 1 = 0 ∧ opf (d 1) 18 0 1 = 1 := ⟨runs_of (by decide +kernel), by decide +kernel, by decide +kernel, runs_of (by decide +kernel), by decide +kernel⟩
theorem test_hyps_collReport : let d := desc [(16, 0, 4095), (24, 0, 0x200000)] 9
    let s := tq9 (fun s => { s with win := [(4095, window9 .open)] }) (some writer9)
    Runs anyRule q9 d s (after q9 s) ∧ onlyFields d [(16, 0, 12), (24, 0, 64)] = true ∧ (engWriteS 5 9 0x200000 (arrivalReport (window9 .open) 7) { after q9 s with freeIx := 1, now := 7 }).1 = true :=
  ⟨runs_of (by decide +kernel), by decide +kernel⟩

/-- TableCacheAndAttentionResults: one row, the last bag set made and removed, a page of the last slot, a decode of one sequence on the last crew. -/
theorem test_hyps_rowReplace : let d := desc [(16, 0, 255), (18, 0, 5), (20, 0, 1), (24, 0, 0x200000), (32, 0, 0x210000), (40, 0, 0xFFFFFFFF)] 9
    let s := tq9 gathered
    ∃ is ns s2 s3, Runs anyRule q9 d s (after q9 s) ∧ fieldsRowReplace d = none ∧ find (after q9 s).gth.tables 255 = some table9 ∧ clapOk (after q9 s) (some 9) (opf d 40 0 32) = true
      ∧ engRead 5 9 0x200000 4 (after q9 s) = (some is, s2) ∧ engRead 5 9 0x210000 (1 * (64 + (32 + 63) / 64 * 64)) s2 = (some ns, s3) ∧ pdOn s3 23 = true :=
  ⟨⟨[0, 0, 0, 0], false, 0⟩, ⟨List.replicate 128 0, false, 0⟩, _, _, runs_of (by decide +kernel), by decide +kernel, by decide +kernel, by decide +kernel, read_of (by decide +kernel), read_of (by decide +kernel), by decide +kernel⟩
theorem test_hyps_bagSet : let d (b : Nat) := desc [(16, 0, 255), (17, 0, 11), (20, 0, b), (24, 0, 0x200000), (32, 0, 0x210000)] 9
    let s := tq9 gathered
    Runs anyRule q9 (d 1) s (after q9 s) ∧ fieldsBagSet (d 1) = none ∧ fieldsBagSet (d 0) = none ∧ find (after q9 s).gth.tables 255 = some table9 ∧ pdOn (after q9 s) 23 = true
      ∧ 1 * table9.stride' ⟨2, 0, 1, 0x200000, 0x210000⟩ ≤ 2 ^ 32 := ⟨runs_of (by decide +kernel), by decide +kernel⟩
theorem test_hyps_pageMap : let d := desc [(16, 0, 15), (17, 0, 3), (20, 0, 0), (22, 0, 5), (24, 0, 32767), (26, 0, 1), (28, 0, 2097152), (32, 0, 0x200000)] 9
    let s := tq9 gathered
    Runs anyRule q9 d s (after q9 s) ∧ fieldsPageMap d = none ∧ find (after q9 s).gth.caches 15 = some cache9 ∧ opf d 20 0 16 < cache9.seqs ∧ (opf d 17 0 4).testBit 3 = false ∧ (opf d 17 0 4).testBit 2 = false
      ∧ ∃ rs s2, engRead 5 9 0x200000 4 (after q9 s) = (some rs, s2) ∧ rs.data = [0, 0, 0, 0] ∧ 0 < cache9.pages ∧ pdOn s2 23 = true :=
  ⟨runs_of (by decide +kernel), by decide +kernel, by decide +kernel, by decide +kernel, by decide +kernel, by decide +kernel, ⟨[0, 0, 0, 0], false, 0⟩, _, read_of (by decide +kernel), rfl, by decide, by decide +kernel⟩
theorem test_hyps_pageMap_views : let s := tq9 gathered
    fieldsPageMap (desc [(16, 0, 15), (17, 0, 8), (18, 0, 255)] 9) = none ∧ find s.gth.views 255 = some (15, 0) ∧ fieldsPageMap (desc [(16, 0, 15), (17, 0, 4), (18, 0, 0)] 9) = none ∧ has s.gth.views 0 = false := by decide +kernel
def jobBytes : List Byte := leBytes 2 1 ++ [1, 0] ++ leBytes 2 1 ++ leBytes 2 1 ++ leBytes 4 0 ++ leBytes 4 0 ++ leBytes 8 0x210000 ++ leBytes 8 0x220000 ++ leBytes 8 0x230000
theorem test_hyps_attnDecode : let d := desc [(16, 127, 1), (32, 0, 15), (34, 0, 5), (36, 0, 0xFFFFFFFF), (40, 0, 0x200000)] 9
    let s := tq9 (fun s => crewed {} {} (gathered (holding [(0x200000, jobBytes)] s))) (some writer9)
    ∃ y r s2, Runs anyRule q9 d s (after q9 s) ∧ fieldsAttn d = none ∧ find (after q9 s).gth.caches 15 = some cache9 ∧ engRead 5 9 0x200000 64 (after q9 s) = (some r, s2) ∧ jobBad r.data cache9 = false
      ∧ clapOk (after q9 s) (some 9) (opf d 36 0 32) = true ∧ (∀ n ∈ setBits 128 (opf d 16 0 128), assigned (after q9 s) n = some 9 ∧ crewBusy (after q9 s) n = false ∧ pdOn (after q9 s) (pdCrew n) = true)
      ∧ mayRead (after q9 s) 5 9 0x210000 4 = true ∧ mayRead (after q9 s) 5 9 0x220000 (qRow cache9 (jobOf r.data)) = true ∧ mayWrite (after q9 s) 5 9 0x230000 (recBytes cache9) = true
      ∧ tent (after q9 s) 9 = some y ∧ y.images.length < 64 ∧ pdOn (after q9 s) 23 = true :=
  ⟨_, ⟨jobBytes ++ List.replicate 24 0, false, 0⟩, _, runs_of (by decide +kernel), by decide +kernel, by decide +kernel, read_of (by decide +kernel), by decide +kernel, by decide +kernel, by decide +kernel, by decide +kernel, by decide +kernel,
    by decide +kernel, rfl, by decide, by decide +kernel⟩

/-- NearBankCommandResults: sixteen END steps for the last allotment of a module, a run of one working binding, a reset. -/
def tent9 : Tent := { state := .active, isSealed := false, span := 0, stackSel := 0, seed := 0, slot := 0, sources := [⟨5, 0, .pending, none⟩], tenantKey := none }
def banked (s : State) : State := setMapVal .tryNbuAllot 15 (2 ^ 63 ||| place 9 56 7 ||| place 1 32 13) (modules 4 s)
theorem ends_are_steps : ∀ y ∈ stepsOf (List.replicate 256 0), stepIsBad y.toNat = false := by
  rw [show stepsOf (List.replicate 256 0) = List.replicate 16 0 by decide +kernel]
  intro y h; rw [List.eq_of_mem_replicate h]; decide +kernel
theorem test_hyps_nbuProgram : let d := desc [(16, 0, 0), (17, 0, 15), (18, 0, 5), (20, 0, 16), (24, 0, 0x200000)] 9
    let s := tq9 banked
    ∃ r s2, Runs anyRule q9 d s (after q9 s) ∧ fieldsNbuProgram d = none ∧ engRead 5 9 0x200000 256 (after q9 s) = (some r, s2) ∧ (∀ y ∈ stepsOf r.data, stepIsBad y.toNat = false)
      ∧ nbuUnits (after q9 s) 0 = 4 ∧ allotOf (after q9 s) 0 15 = some (9, 1, 0) ∧ (nbuOf (after q9 s) 0).queue = [] ∧ (nbuOf (after q9 s) 0).running = none ∧ tent (after q9 s) 9 = some tent9 ∧ tent9.images.length < 64
      ∧ pdOn (after q9 s) (pdTray 0) = true :=
  ⟨⟨List.replicate 256 0, false, 0⟩, _, runs_of (by decide +kernel), by decide +kernel, read_of (by decide +kernel), ends_are_steps, by decide +kernel⟩
def runBytes : List Byte := [1, 0] ++ List.replicate 62 0 ++ leBytes 8 0 ++ leBytes 4 1 ++ [16, 0, 1, 0] ++ List.replicate 432 0
theorem test_hyps_nbuRun : let d := desc [(16, 0, 0), (17, 0, 15), (18, 0, 5), (20, 0, 0xFFFFFFFF), (24, 0, 0x200000)] 9
    let s := tq9 fun s => banked (holding [(0x200000, runBytes)] s)
    ∃ r s2, Runs anyRule q9 d s (after q9 s) ∧ fieldsNbuRun d = none ∧ engRead 5 9 0x200000 512 (after q9 s) = (some r, s2) ∧ nbuUnits (after q9 s) 0 = 4 ∧ allotOf (after q9 s) 0 15 = some (9, 1, 0)
      ∧ blockBad r.data (some 1) = false ∧ clapOk (after q9 s) (some 9) (opf d 20 0 32) = true ∧ bindPermitted (after q9 s) 0 5 9 (blockBind r.data 0 0) = true ∧ bits (fieldAt r.data 0 1) 0 5 = 1 ∧ bits (fieldAt r.data 1 1) 0 8 = 0
      ∧ programOf (nbuOf (after q9 s) 0) 15 = [] ∧ (blockBind r.data 0 0).count = 1 ∧ pdOn (after q9 s) (pdTray 0) = true :=
  ⟨⟨runBytes, false, 0⟩, _, runs_of (by decide +kernel), by decide +kernel, read_of (by decide +kernel), by decide +kernel⟩
theorem test_hyps_nbuReset : let s := op9 (modules 4)
    Runs opRule qOp (desc) s (after qOp s) ∧ onlyFields desc [(16, 0, 3)] = true ∧ (tray (after qOp s) 0).admitted = true ∧ pdOn (after qOp s) (pdTray 0) = true := ⟨runs_of (by decide +kernel), by decide +kernel⟩

/-- PowerCommandResults: the tray domains and the last ones; the last block and the whole device; sleep states 1 and 2. -/
theorem test_hyps_setDomain : let d (n c : Nat) := desc [(16, 0, n), (17, 0, c)]
    let off := op9 fun s => { s with chip := { s.chip with domains := put s.chip.domains 24 { state := .off } } }
    Runs opRule qOp (d 24 1) off (after qOp off) ∧ fieldsSetDomain (d 24 1) = none ∧ fieldsSetDomain (d 24 0) = none ∧ fieldsSetDomain (d 8 2) = none ∧ pdState (after qOp off) 3 = .on ∧ pdState (after qOp off) 24 = .off
      ∧ (after qOp op9).gaf.commits = [] ∧ (after qOp op9).chip.sleepOp = none ∧ moving (after qOp op9) 24 = false ∧ moving (after qOp off) 24 = false ∧ (∀ b ∈ domainBlocks 24, has (after qOp op9).chip.resets b = false)
      ∧ pdState (after qOp op9) 24 = .on ∧ (domain (after qOp op9) 24).holds = [] ∧ (domain (after qOp off) 24).holds = [] := ⟨runs_of (by decide +kernel), by decide +kernel⟩
theorem test_hyps_blockReset : let d (c : Nat) := desc [(16, 0, c), (20, 0, 100000)]
    let held := op9 fun s => { s with chip := { s.chip with domains := put s.chip.domains 3 { state := .on, holds := [.slate 9] } } }
    Runs opRule qOp (d 0x52) op9 (after qOp op9) ∧ fieldsBlockReset (d 0x52) = none ∧ fieldsBlockReset (d 0xFF) = none ∧ pdOff (after qOp op9) (blockDomain 0x52) = false ∧ has (after qOp op9).chip.resets 0x52 = false
      ∧ moving (after qOp op9) (blockDomain 0x52) = false ∧ (domain (putReset 0x52 { step := 1, cref := some ⟨qOp, 7, false, 0⟩, timeout := 100000 } (after qOp op9)) (blockDomain 0x52)).holds = []
      ∧ (domain (putReset 0x52 { step := 1, cref := some ⟨qOp, 7, false, 0⟩, timeout := 100000 } (after qOp held)) (blockDomain 0x52)).holds ≠ [] := ⟨runs_of (by decide +kernel), by decide +kernel⟩
theorem test_hyps_sleep : let d (n : Nat) := desc [(16, 0, n), (20, 0, 0xFFFFFFFF), (24, 0, 10)]
    Runs opRule qOp (d 1) op9 (after qOp op9) ∧ fieldsSleep (d 1) = none ∧ fieldsSleep (d 2) = none ∧ (after qOp op9).gaf.commits = [] ∧ (after qOp op9).gaf.oldMap = none ∧ (after qOp op9).chip.resets = [] ∧ anyMoving (after qOp op9) = false
      ∧ (∀ e ∈ (after qOp op9).chip.domains, e.2.holds = []) := ⟨runs_of (by decide +kernel), by decide +kernel⟩

/-! ### States that meet the hypotheses: the fabric -/

/-- `op9` with port 19 up towards attached node 5 and room for messages on every channel. -/
def netted (role : Nat) (s : State) : State :=
  { s with fab := { s.fab with attach := [(19, 5)], nodes := [(0, ⟨0x1000, 0x1FFF, 2 ^ 19⟩)]
                               ports := [(19, { role := role, mode := 1, roleSet := role != 0, enable := true, link := .l0, credits := { send := List.replicate 8 64, recv := List.replicate 8 64 } })] } }
/-- Node 5 asks for bytes of the region at the self node. -/
def req (off len : Nat) (data : List Byte := []) (mask : BitVec 64 := 0) : Msg := { snode := 5, tag := 0xFFFF, addr := BitVec.ofNat 64 (0x41 <<< 48 ||| off), length := BitVec.ofNat 13 len, data := data, mask := mask }
def dummy : Txn := { id := 0, epoch := 0, origin := .none, source := 0, tent := 0, cls := 0, eng := false, ty := 0, addr := 0, len := 0, data := [], mask := 0, pline := false, contrib := false, hint := none, stage := .ready }
def firstTxn (s : State) : Txn := s.fab.txns.headD dummy
/-- The state once the port has given credits back. -/
def credited (p chan : Nat) (m : Msg) (s : State) : State := linkSend p 6 (creditMsg chan (units (framed m))) (linkHears p s)

theorem takes_of {p chan : Nat} {m : Msg} {s : State} (h : (portTakes s p m && decide (wireMode (port s p) = 1) && decide (units (framed m) ≤ (port s p).credits.recv.getD chan 0)) = true) :
    Takes p chan m s (framed m) (credited p chan m s) := by
  simp only [Bool.and_eq_true, decide_eq_true_eq] at h
  exact ⟨h.1.1, rfl, .inr ⟨h.1.2, h.2, rfl⟩⟩
theorem unwire_plain {m : Msg} (h : m.gsb = false) (s : State) : unwire m s = (m, s) := by simp [unwire, h]
/-- A request of node 5 on port 19 in flight. -/
def arrived (ty : Nat) (m : Msg) (s : State) : State := addRequest 19 ty (framed m) 5 m.addr.toNat (credited 19 0 m s)
theorem arrives_of {ty : Nat} {m : Msg} {s : State}
    (h : (portTakes s 19 m && decide (wireMode (port s 19) = 1) && decide (units (framed m) ≤ (port s 19).credits.recv.getD 0 0)) = true)
    (h2 : ((malformed ty ((addressOf (credited 19 0 m s) 19 (framed m)).getD (framed m).addr.toNat) (framed m)).isNone && !(framed m).gsb && !refusing (credited 19 0 m s) 19
      && sourceOf (credited 19 0 m s) 19 (framed m) == some 5 && addressOf (credited 19 0 m s) 19 (framed m) == some m.addr.toNat && decide (m.addr.toNat < 2 ^ 62) && decide ((framed m).hops ≠ 0)) = true) :
    Arrives 19 ty m s (arrived ty m s) := by
  simp only [Bool.and_eq_true, decide_eq_true_eq, Bool.not_eq_true', beq_iff_eq, Option.isNone_iff_eq_none] at h2
  obtain ⟨⟨⟨⟨⟨⟨a, b⟩, c⟩, d⟩, e⟩, f⟩, g⟩ := h2
  exact ⟨_, _, framed m, credited 19 0 m s, 5, m.addr.toNat, takes_of h, a, unwire_plain b _, c, d, e, f, fun x => g x.2, rfl⟩
def turned (ty : Nat) (m : Msg) (s : State) : State := (takeIn (firstTxn (arrived ty m s)) (arrived ty m s)).2
theorem admitted_of {ty : Nat} {m : Msg} {s : State} (ha : Arrives 19 ty m s (arrived ty m s))
    (h : (arrived ty m s).fab.txns = [firstTxn (arrived ty m s)] ∧ (firstTxn (arrived ty m s)).stage = .ready ∧ (takeIn (firstTxn (arrived ty m s)) (arrived ty m s)).1 = none
      ∧ (turned ty m s).fab.txns = [firstTxn (turned ty m s)] ∧ (firstTxn (turned ty m s)).id = (firstTxn (arrived ty m s)).id) :
    Admitted 19 ty m s (firstTxn (turned ty m s)) (turned ty m s) :=
  ⟨arrived ty m s, firstTxn (arrived ty m s), ha, h.1, h.2.1, Prod.ext h.2.2.1 (by simp only [turned]), h.2.2.2.1, h.2.2.2.2⟩
/-- The state once the tier-0 point has let a line through. -/
def charged (r : Region) (y : Txn) (s : State) : State := (passAt y r .t0 64 s).2
theorem ready_for {y : Txn} {r : Region} {s : State} (h : (∀ k ∈ stacksUsed r (offOf y.addr) y.len, pdOn s (pdStack k) = true ∧ resetting s (0x30 + k) = false) ∧ (passAt y r .t0 64 s).1 = true) : Tier0Ready y r 64 s (charged r y s) :=
  ⟨h.1, Prod.ext h.2 rfl⟩

/-- RequestsAreServed: the last line of the region read and written, whole and in part, one refused by the gate, a FENCE. -/
theorem test_hyps_read : let s := op9 (netted 1)
    let m := req 0x3FFFC0 64
    let s2 := turned 1 m s
    let y := firstTxn s2
    Admitted 19 1 m s y s2 ∧ (y.ty = 1 ∧ OwnPool y s2 3 region9 ∧ y.origin = .port 19 (framed m) ∧ s2.kpr.guys = [] ∧ region9.coherent = false ∧ region9.coded = false
      ∧ placeOf s2 region9 (tileOf region9 (viewFor (underMap s2 y) 3 region9 y.source) (granuleOf region9 (offOf y.addr))) = .t0
      ∧ fetchLength s2 region9 (tileOf region9 (viewFor (underMap s2 y) 3 region9 y.source) (granuleOf region9 (offOf y.addr))) (offOf y.addr % tileBytes) y.len = 64) ∧ Tier0Ready y region9 64 s2 (charged region9 y s2) := by
  refine ⟨admitted_of (arrives_of (by decide +kernel) (by decide +kernel)) (by decide +kernel), ?_, ready_for (by decide +kernel)⟩
  unfold OwnPool; decide +kernel
def unshared (s : State) : State := { s with pool := { s.pool with regions := [(3, { region9 (some writer9) with reels := [⟨1, [(0, 2 ^ 25)]⟩] })] } }
theorem test_hyps_write (part : Bool) : let s := op9 fun s => unshared (netted 1 s)
    let m := req 0x200000 64 (List.replicate 64 7) 1
    let ty := if part then 3 else 2
    let s2 := turned ty m s
    let y := firstTxn s2
    let r := { region9 (some writer9) with reels := [⟨1, [(0, 2 ^ 25)]⟩] }
    Admitted 19 ty m s y s2 ∧ (y.ty = ty ∧ OwnPool y s2 3 r ∧ y.origin = .port 19 (framed m)
      ∧ writeRefused (underMap s2 y) 3 r y.source = none ∧ keyMulti s2 (offOf y.addr) = false ∧ r.coherent = false ∧ r.coded = false ∧ tileSetting r (writeTile r (granuleOf r (offOf y.addr))) = none
      ∧ promoting s2 (writeTile r (granuleOf r (offOf y.addr))) = false ∧ needsCopy s2 3 r (granuleOf r (offOf y.addr)) = false ∧ 64 * (lineSpan (offOf y.addr) y.len).2 = 64
      ∧ s2.kpr.guys = []) ∧ Tier0Ready y r 64 s2 (charged r y s2) := by
  unfold OwnPool
  cases part <;> exact ⟨admitted_of (arrives_of (by decide +kernel) (by decide +kernel)) (by decide +kernel), by decide +kernel, ready_for (by decide +kernel)⟩
theorem test_hyps_refused : let s := op9 (netted 1)
    let m := req 0x400000 64
    let s1 := arrived 1 m s
    Arrives 19 1 m s s1 ∧ s1.fab.txns = [firstTxn s1] ∧ (takeIn (firstTxn s1) s1).1 = some wRefused :=
  ⟨arrives_of (by decide +kernel) (by decide +kernel), by decide +kernel⟩
theorem test_hyps_fenceRequest : let s := op9 (netted 1)
    let m : Msg := { snode := 5 }
    Admitted 19 4 m s (firstTxn (turned 4 m s)) (turned 4 m s) ∧ (firstTxn (turned 4 m s)).ty = 4 :=
  ⟨admitted_of (arrives_of (by decide +kernel) (by decide +kernel)) (by decide +kernel), by decide +kernel⟩

/-- CompletionsCreditsAndConfiguration: a request forwarded on port 19 under the highest tag, and one at tray link 7. -/
def flying (ty : Nat) (st : Stage) (s : State) : State :=
  { s with fab := { s.fab with txns := [{ dummy with id := 0xFFFFFFFF, source := 5, ty := ty, addr := 0x41 <<< 48 ||| 0x200000, len := 64, tag := 0xFFFF, stage := st, deadline := some 9 }] } }
theorem test_hyps_completions : let s := op9 fun s => flying 1 (.forwarded 19) (netted 1 s)
    let m : Msg := { req 0 0 with status := 1 }
    let md := req 0 64
    nativeUp s 19 = true ∧ Takes 19 1 m s (framed m) (credited 19 1 m s) ∧ m.hops ≠ 7 ∧ gsbOk 8 (framed m) = true ∧ outstanding (credited 19 1 m s) 19 (framed m) = some (firstTxn s) ∧ (unwire (framed m) (credited 19 1 m s)).1.status ≠ 0
      ∧ Takes 19 1 md s (framed md) (credited 19 1 md s) ∧ gsbOk 9 (framed md) = true ∧ (unwire (framed md) (credited 19 1 md s)).1.data.length = (firstTxn s).len
      ∧ outstanding (credited 19 1 m (op9 (netted 1))) 19 (framed m) = none :=
  ⟨by decide +kernel, takes_of (by decide +kernel), by decide +kernel, by decide +kernel, by decide +kernel, by decide +kernel, takes_of (by decide +kernel), by decide +kernel⟩
theorem test_hyps_config : (1 ≤ (op9 (netted 0)).gaf.stage) ∧ (port (op9 (netted 0)) 19).link = .l0 ∧ wireMode (port (op9 (netted 0)) 19) ≠ 1 := by decide +kernel
theorem test_hyps_trayResponse : let s := op9 (flying 1 (.tray 7))
    s.fab.txns.find? (fun x => x.stage = .tray (7 : BitVec 3).toNat && x.id % 2 ^ 32 = (0xFFFFFFFF : BitVec 32).toNat) = some (firstTxn s) ∧ regionAt s (offOf (firstTxn s).addr) = some (3, region9)
      ∧ (∀ x ∈ op9.fab.txns, ¬(x.stage = .tray 7 ∧ x.id % 2 ^ 32 = 0)) := by decide +kernel
/-- TransitAndOldMapEvents: a request with an age at an egress queue; an old map with a request in flight and with none. -/
theorem test_hyps_transit : let s := op9 (flying 1 (.egress 19))
    s.fab.txns.find? (fun x => x.id % 2 ^ 32 = (0xFFFFFFFF : BitVec 32).toNat) = some (firstTxn s) ∧ (firstTxn s).deadline = some 9 ∧ (firstTxn s).gated = false ∧ (firstTxn s).stage = .egress 19 := by decide +kernel
theorem test_hyps_hold : (op9 fun s => { s with fab := { s.fab with holds := [⟨2 ^ 20 - 1, 9⟩] } }).fab.holds.find? (·.ports = (0xFFFFF : BitVec 20).toNat) = some ⟨2 ^ 20 - 1, 9⟩ := by decide
theorem test_hyps_oldMap : let o : OldMap := { epoch := 1, deadline := 9, drain := none }
    let s := op9 fun s => { flying 1 .ready s with gaf := { s.gaf with oldMap := some o } }
    let g := { s with fab := { s.fab with txns := s.fab.txns.map fun x => { x with gated := true, epoch := 1 } } }
    s.gaf.oldMap = some o ∧ oldRequests s o = [] ∧ g.gaf.oldMap = some o ∧ oldRequests g o ≠ [] ∧ (∃ x ∈ oldRequests g o, ∀ w, x.stage ≠ .window w) := ⟨rfl, by decide +kernel, rfl, by decide +kernel, _, List.mem_singleton.2 rfl, fun w => by simp⟩
/-- HardwareQueueWrites: a queue with one entry, across the wrap of its counters, and one in ERROR. -/
theorem test_hyps_hw : let x := hw 0xFFFFFFFF 0
    let s := op9 fun s => { s with qm := { queues := [(1048575, x), (0, { x with error := true })] } }
    find s.qm.queues (1048575 : BitVec 20).toNat = some x ∧ x.error = false ∧ (1 - x.tail).toNat ≤ 2 ^ x.n - (x.tail - x.head).toNat ∧ 2 ^ x.n - (x.tail - x.head).toNat < (2 - x.tail).toNat
      ∧ (0 - x.head).toNat ≤ (x.tail - x.head).toNat ∧ (x.tail - x.head).toNat < (1 - x.head).toNat ∧ find s.qm.queues (0 : BitVec 20).toNat = some { x with error := true } := by decide +kernel

/-- CoherenceEvents: agent 31 on port 19 and a coherent region. -/
def coherent9 (s : State) : State :=
  setMapVal .cohAgent 31 (2 ^ 63 ||| place 19 40 5 ||| place 9 48 7 ||| 5) { netted 1 s with pool := { s.pool with regions := [(3, { region9 (some writer9) with coherent := true })] } }
/-- With agent 31 the only one that `e` names, or the Hint's target. -/
def domain9 (e : DirEntry := {}) (ts : List CohTxn := []) (fs : List Flush := []) : State :=
  op9 fun s => { coherent9 s with coh := { dir := if e.state = .invalid then [] else [(0x3FFFC0 / 64, e)], txns := ts, flushes := fs } }
def cohMsg : Msg := req 0x3FFFC0 64
theorem fromAgent_of {chan : Nat} {s : State} (h : (portTakes s 19 cohMsg && decide (wireMode (port s 19) = 1) && decide (units (framed cohMsg) ≤ (port s 19).credits.recv.getD chan 0)) = true)
    (h2 : sender (credited 19 chan cohMsg s) 19 0 (framed cohMsg) = some 31 ∧ cohLine (credited 19 chan cohMsg s) 19 (framed cohMsg) = some 0xFFFF) : FromAgent 19 chan 0 cohMsg s 31 0xFFFF (framed cohMsg) (credited 19 chan cohMsg s) :=
  ⟨takes_of h, h2⟩
/-- A request meets the directory in each state: not held, held by the agent itself, by the agent and agent 30, by agent 30 alone. -/
theorem test_hyps_coherence : ∀ e ∈ [({} : DirEntry), { state := .owned, owner := 31 }, { state := .owned, owner := 30 }, { state := .shared, sharers := 2 ^ 31 }, { state := .shared, sharers := 2 ^ 31 + 2 ^ 30 }],
    let s1 := credited 19 2 cohMsg (domain9 e)
    FromAgent 19 2 0 cohMsg (domain9 e) 31 0xFFFF (framed cohMsg) s1 ∧ dirOf s1 0xFFFF = e ∧ refusing s1 19 = false ∧ regionAt s1 (0xFFFF * 64) = some (3, { region9 (some writer9) with coherent := true })
      ∧ agentFailed s1 31 = false ∧ resetting s1 0x52 = false ∧ s1.coh.queue = [] ∧ cohBusy s1 0xFFFF = none ∧ gatePool s1 (agNode (agentEntry s1 31)) (0xFFFF * 64) 64 true false 0 = .ok 9
      ∧ gatePool s1 (agNode (agentEntry s1 31)) (0xFFFF * 64) 64 false false 0 = .ok 9 ∧ regionFlushing s1 3 = false ∧ agentFlushing s1 31 = false := by
  intro e he
  simp only [List.mem_cons, List.not_mem_nil, or_false] at he
  rcases he with rfl | rfl | rfl | rfl | rfl <;> exact ⟨fromAgent_of (by decide +kernel) (by decide +kernel), by decide +kernel⟩
/-- An answer is awaited, of each kind of snoop; a Hint is under way; none is. -/
def awaited (n : Nat) : CohTxn := ⟨0xFFFF, .rdOwn 30 7 (9, 0), 2 ^ 31, n, none, none⟩
theorem test_hyps_answers : ∀ n ∈ [0, 1, 2, 3], ∀ c ∈ [5, 6], FromAgent 19 c 0 cohMsg (domain9 {} [awaited n]) 31 0xFFFF (framed cohMsg) (credited 19 c cohMsg (domain9 {} [awaited n]))
    ∧ cohBusy (credited 19 c cohMsg (domain9 {} [awaited n])) 0xFFFF = some (awaited n) ∧ (awaited n).wait.testBit 31 = true := by
  intro n hn c hc
  simp only [List.mem_cons, List.not_mem_nil, or_false] at hn hc
  rcases hn with rfl | rfl | rfl | rfl <;> rcases hc with rfl | rfl <;> exact ⟨fromAgent_of (by decide +kernel) (by decide +kernel), by decide +kernel⟩
theorem test_hyps_hintAnswers : let h : CohTxn := ⟨0xFFFF, .hint, 0, 0, none, some 31⟩
    FromAgent 19 5 0 cohMsg (domain9 {} [h]) 31 0xFFFF (framed cohMsg) (credited 19 5 cohMsg (domain9 {} [h])) ∧ cohBusy (credited 19 5 cohMsg (domain9 {} [h])) 0xFFFF = some h
      ∧ (credited 19 5 cohMsg (domain9 {} [h])).coh.queue = [] ∧ cohBusy (credited 19 6 cohMsg domain9) 0xFFFF = none ∧ FromAgent 19 6 0 cohMsg domain9 31 0xFFFF (framed cohMsg) (credited 19 6 cohMsg domain9) :=
  ⟨fromAgent_of (by decide +kernel) (by decide +kernel), by decide +kernel, by decide +kernel, by decide +kernel, fromAgent_of (by decide +kernel) (by decide +kernel)⟩
theorem test_hyps_snoopTimeout : let t : CohTxn := ⟨0xFFFF, .hint, 2 ^ 31, 0, none, none⟩
    let h : CohTxn := ⟨0xFFFF, .hint, 0, 0, none, some 31⟩
    cohBusy (domain9 {} [t]) (0xFFFF : BitVec 48).toNat = some t ∧ t.wait.testBit (31 : BitVec 5).toNat = true ∧ cohBusy op9 0 = none
      ∧ (domain9 {} [h]).coh.txns = [h] ∧ h.line = (0xFFFF : BitVec 48).toNat ∧ h.hintTo = some (31 : BitVec 5).toNat ∧ (domain9 {} [h]).coh.dir = [] ∧ agentFailed (domain9 {} [h]) 31 = false := by decide +kernel
theorem test_hyps_flushEnd : agentFlushing (domain9 {} [] [.agent 31 0]) (31 : BitVec 18).toNat = true ∧ (domain9 {} [] [.agent 31 0]).coh.dir = [] ∧ region (domain9 {} [] [.region 3]) (3 : BitVec 18).toNat = some { region9 (some writer9) with coherent := true }
    ∧ regionFlushing (domain9 {} [] [.region 3]) 3 = true ∧ regionFlushed (domain9 {} [] [.region 3]) { region9 (some writer9) with coherent := true } = true := by decide +kernel

/-- GuyLineMessages and GuyLineTime: each side of a guy line with node 5, a rushes session of each side. -/
def guy9 (sec : Bool) (st : GuyState) : Guy := { secondary := sec, partner := 5, partnerRegion := 3, pairId := 1, clapper := none, state := st }
def paired (g : Guy) (s : State) : State := { netted 3 s with kpr := { s.kpr with guys := [(3, g)] } }
def mirrorMsg : Msg := { req 0x1FFFC0 64 (List.replicate 64 1) with tag := 3 }
def linkMsg (region : Nat) (prim : Nat) : Msg := req 0 24 (leBytes 4 1 ++ leBytes 4 3 ++ leBytes 4 region ++ [BitVec.ofNat 8 prim, 1, 0, 0] ++ leBytes 8 0x200000)
theorem forThis_of {p : Nat} {m : Msg} {s : State} (h : (portTakes s p m && decide (wireMode (port s p) = 1) && decide (units (framed m) ≤ (port s p).credits.recv.getD 7 0)) = true)
    (h2 : ((port (credited p 7 m s) p).role == 3 && (port (credited p 7 m s) p).enable && !(port (credited p 7 m s) p).blocked && !(framed m).rsv && (credited p 7 m s).fab.self == some (nodeOf (framed m).addr.toNat)) = true) : ForThisNode p m s (framed m) (credited p 7 m s) := by
  simp only [Bool.and_eq_true, Bool.not_eq_true', beq_iff_eq] at h2
  exact ⟨takes_of h, .inl h2.1.1.1.1, h2.1.1.1.2, h2.1.1.2, h2.1.2, h2.2⟩
theorem test_hyps_mirror : let s := op9 (paired (guy9 true .inSync))
    let s1 := credited 19 7 mirrorMsg s
    ForThisNode 19 mirrorMsg s (framed mirrorMsg) s1 ∧ guyFrom s1 (framed mirrorMsg) = some (3, guy9 true .inSync) ∧ (framed mirrorMsg).seq.toNat = 0 ∧ region s1 3 = some region9 ∧ region9.mbase = none
      ∧ bits (framed mirrorMsg).addr.toNat 0 40 + (framed mirrorMsg).data.length = region9.size ∧ mirrorUp s1 region9 0x1FFFC0 64 = true ∧ (applyMirror 3 0x1FFFC0 false (framed mirrorMsg).data 0 s1).isSome = true :=
  ⟨forThis_of (by decide +kernel) (by decide +kernel), by decide +kernel⟩
theorem test_hyps_mirrorAck : let s := op9 (paired (guy9 false .inSync))
    ForThisNode 19 mirrorMsg s (framed mirrorMsg) (credited 19 7 mirrorMsg s) ∧ guyFrom (credited 19 7 mirrorMsg s) (framed mirrorMsg) = some (3, guy9 false .inSync) := ⟨forThis_of (by decide +kernel) (by decide +kernel), by decide +kernel⟩
theorem test_hyps_link : let s := op9 (paired (guy9 true .linking))
    let m := linkMsg 3 1
    let s1 := credited 19 7 m s
    ForThisNode 19 m s (framed m) s1 ∧ leNat (((framed m).data.drop 8).take 4) = 3 ∧ find s1.kpr.guys 3 = some (guy9 true .linking) ∧ region s1 3 = some region9 ∧ (linkReason s1 3 (guy9 true .linking) region9 (framed m)).1 = 2
      ∧ s1.kpr.guys.find? (fun e => e.2.partner = (framed m).snode.toNat && e.2.partnerRegion = leNat (((framed m).data.drop 4).take 4)) = some (3, guy9 true .linking) :=
  ⟨forThis_of (by decide +kernel) (by decide +kernel), by decide +kernel⟩
theorem test_hyps_noLine : let s := op9 (netted 3)
    ForThisNode 19 mirrorMsg s (framed mirrorMsg) (credited 19 7 mirrorMsg s) ∧ guyFrom (credited 19 7 mirrorMsg s) (framed mirrorMsg) = none := ⟨forThis_of (by decide +kernel) (by decide +kernel), by decide +kernel⟩
theorem test_hyps_notLinked_mirroring : (guy9 false .syncing).state ≠ .linking ∧ (guy9 false .syncing).mirrors = true := by decide
def rushed (r : Rushes) (s : State) : State := { netted 3 s with gaf := { s.gaf with rushes := r } }
def shadow9 : Shadow := ⟨0xFFFF, 5, 9, 0, 0, [], 0, false, none⟩
theorem test_hyps_shadow : let s := op9 (rushed { candidate := true, state := 5, peer := 5 })
    let w := op9 (rushed { state := 1, peer := 5, buffer := [shadow9] })
    let m : Msg := { mirrorMsg with seq := 0xFFFF }
    ForThisNode 19 m s (framed m) (credited 19 7 m s) ∧ (credited 19 7 m s).gaf.rushes.peer = (framed m).snode.toNat ∧ ForThisNode 19 m w (framed m) (credited 19 7 m w) ∧ (credited 19 7 m w).gaf.rushes.state = 1
      ∧ (credited 19 7 m w).gaf.rushes.buffer.find? (fun x => x.seq % 65536 = (framed m).seq.toNat) = some shadow9
      ∧ w.gaf.rushes.buffer.find? (fun x => x.seq = (0xFFFF : BitVec 64).toNat && x.peer.isNone) = some shadow9 :=
  ⟨forThis_of (by decide +kernel) (by decide +kernel), by decide +kernel, forThis_of (by decide +kernel) (by decide +kernel), by decide +kernel⟩
theorem test_hyps_guyTime : (∀ st, find (op9 (paired (guy9 false st))).kpr.guys (3 : BitVec 18).toNat = some (guy9 false st)) ∧ (guy9 false .inSync).mirrors = true ∧ (guy9 false .solo).state = .solo ∧ (guy9 true .syncing).state = .syncing
    ∧ (∃ e ∈ ({ guy9 false .syncing with syncOut := [(31, 0xFFFF)] } : Guy).syncOut, e.2 = (0xFFFF : BitVec 16).toNat) := ⟨fun _ => rfl, by decide, rfl, rfl, by decide⟩

/-! ### States that meet the hypotheses: near-bank units, sessions, events, links, resets, power, pins -/

def run9 : NbuRun := { cref := ⟨q9, 7, false, 0⟩, tent := 9, allot := 0, source := 5, clapper := none, binds := [], ins := [], outs := [] }
def unitState (x : Nbu) : State := op9 fun s => { modules 4 s with nbu := [(0, x)] }
/-- An answer of unit 1 under tag 0xFFFF: the register read, the status, the data. -/
def up (r st d : Nat) : BitVec 512 := (BitVec.ofNat 192 (0xFFFF0100 + r * 2 ^ 32 + st * 2 ^ 64 + d * 2 ^ 128)).setWidth 512
def caps : Nat := 8 <<< 56 ||| 32 <<< 48 ||| 128 <<< 32
/-- NearBankEvents: each kind of answer awaited, a run of step 0 at unit 1, one in the queue. -/
theorem test_hyps_nbuAnswers (w : NbuWait) : find (nbuOf (unitState { waits := [(0xFFFF, 1, w)] }) 0).waits (upTag (up 8 0 caps)) = some (1, w) ∧ find (nbuOf (unitState { waits := [(0xFFFF, 1, w)] }) 0).waits (0xFFFF : BitVec 16).toNat = some (1, w) := ⟨rfl, rfl⟩
theorem test_hyps_regData : bits (up 8 0 caps).toNat 32 32 = 8 ∧ upStatus (up 8 0 caps) = 0 ∧ bits (bits (up 8 0 caps).toNat 128 64) 56 8 = 8 ∧ bits (bits (up 8 0 caps).toNat 128 64) 48 8 = 32 ∧ bits (bits (up 8 0 caps).toNat 128 64) 32 16 = 128 := by decide +kernel
/-- UNIT_ID of unit 1 of four, and a register of a module with units. -/
theorem test_hyps_unitId : let v := 3 <<< 16 ||| 1 <<< 20 ||| 1 <<< 24
    let w := bits (up 0 0 v).toNat 128 64
    upStatus (up 0 0 v) = 0 ∧ bits w 16 4 + 1 = (tray (unitState {}) 0).units ∧ bits w 20 4 = 1 ∧ bits w 24 8 = 1 ∧ bits w 0 16 = 0 ∧ upStatus (up 8 1 0) ≠ 0 ∧ bits (bits (up 8 0 caps).toNat 128 64) 0 32 = 0 := by decide +kernel
theorem test_hyps_stepDone : (nbuOf (unitState { running := some { run9 with left := [1], tag := 0xFFFF } }) 0).running = some { run9 with left := [1], tag := 0xFFFF } ∧ upTag (up 0 0 0) = 0xFFFF ∧ upUnit (up 0 0 0) = 1 := by decide +kernel
theorem test_hyps_runDequeue : let s := unitState { queue := [run9], tags := [(9, 0)] }
    let x := nbuOf s 0
    x.running = none ∧ x.resetting = false ∧ nbuUnits s 0 ≠ 0 ∧ trayUp s 0 = true ∧ least (x.tags.map fun e => (e.2, e.1)) = some (0, 9) ∧ takeFirst (fun r : NbuRun => r.tent = 9) x.queue = some (run9, []) := by decide +kernel

/-- SessionAndDebugAccess: a responder in each state of its session, a module without a session, a port whose domain is not held, the last bytes of the operator window. -/
theorem test_hyps_spdm (n : Nat) : let s := op9 fun s => { s with kpr := { s.kpr with deviceKey := true, spdm := n } }
    responds s = true ∧ s.kpr.spdm = n := ⟨rfl, rfl⟩
theorem test_hyps_spdmResponse : let s := op9 fun s => { s with fab := { s.fab with trays := [(7, { link := .l0, admitted := true })] } }
    (tray s 7).admitted = true ∧ upOrRetrain (tray s 7).link = true ∧ (tray s 7).session = false ∧ (domain (op9 (netted 1)) (pdFabric 19)).holds = [] ∧ upOrRetrain (port (op9 (netted 1)) 19).link = true := by decide +kernel
theorem test_hyps_window : (0xFFFF000 : BitVec 28).toNat + (4096 : BitVec 13).toNat = 0x10000000 ∧ op9.chip.inReset = false ∧ 1 ≤ op9.gaf.stage ∧ op9.chip.sleep ≠ 2 ∧ pdOn op9 4 = true := by decide +kernel
/-- EndpointRegisterAccess and EndpointWritesToMapAndKeeperRegisters. -/
theorem test_hyps_endpoint : endpointUp op9 = true ∧ writesServed op9 = true ∧ regAt 0x080100 = some (.snpRegionSel, 0) ∧ Reg.snpRegionSel.isMap = false ∧ Reg.snpRegionSel.place.1 ≠ 1 ∧ regOff op9 .snpRegionSel 0 = false
    ∧ regAt 0x0713F8 = some (.qmgWeight, 127) ∧ Reg.qmgWeight.isMap = true := by decide +kernel
theorem test_hyps_endpoint_off : let s := op9 fun s => { s with chip := { s.chip with domains := put s.chip.domains 15 { state := .off } } }
    endpointUp s = true ∧ writesServed s = true ∧ regAt 0x0D4008 = some (.crwCellFault, 0) ∧ Reg.crwCellFault.isMap = false ∧ Reg.crwCellFault.place.1 ≠ 1 ∧ regOff s .crwCellFault 0 = true := by decide +kernel

/-- TileEvents: a granule under copy, shared and not; a hint with one move, and one for the whole tensor; a conversion at its last granule and before it. -/
def hinted (whole : Bool) (s : State) : State := { s with pool := { s.pool with hints := [(255, ⟨3, 9, whole, none, none, [⟨2 ^ 24 + 31, .t1 0, false⟩], 0⟩)] } }
def copying (s : State) : State := { s with pool := { s.pool with copies := [(3, 0), (3, 31)] } }
theorem test_hyps_copies : copyShared (op9 fun s => copying (unshared s)) 3 0 = some false ∧ copyShared (op9 copying (some writer9)) 3 31 = some true := by decide +kernel
/-- A copy of a shared granule, a promotion out of tier 1, and each without its writer. -/
def lowered (w : Option Writer) : Region := { region9 w with runs := [⟨0, 32, 1, [0]⟩] }
theorem test_hyps_copyEnds : (let s := op9 copying (some writer9); s.pool.copies.contains (3, 31) = true ∧ region s 3 = some (region9 (some writer9)) ∧ tileUp s (region9 (some writer9)) (0x200000 + 31 * tileBytes) .t0 = true ∧ headShared (region9 (some writer9)) 31 = true)
    ∧ (let r : Region := { lowered (some writer9) with reels := [⟨1, [(0, 2 ^ 25)]⟩] }
       let s := op9 fun s => copying (modules 4 { s with pool := { s.pool with regions := [(3, r)], places := [] } })
       region s 3 = some r ∧ headShared r 0 = false ∧ placeOf s r (tileOf r (headView r) 0) = .t1 0 ∧ tileUp s r 0x200000 (.t1 0) = true)
    ∧ (region9).writer = none ∧ headShared region9 31 = true ∧ headShared { region9 with reels := [] } 31 = false := by decide +kernel
theorem test_hyps_moves (whole : Bool) : let s := op9 (hinted whole)
    ∃ h, find s.pool.hints (255 : Byte).toNat = some h ∧ h.whole = whole ∧ h.moves.find? (·.tile = 2 ^ 24 + 31) = some ⟨2 ^ 24 + 31, .t1 0, false⟩ ∧ (∀ m ∈ h.moves, mayMove s h m = true) := by
  cases whole <;> exact ⟨_, rfl, rfl, rfl, by decide +kernel⟩
theorem test_hyps_conversion : let r (done : List Nat) : Region := { region9 with gsb := some ⟨0, 1⟩, conv := some (none, done, none) }
    let s (done : List Nat) := op9 fun s => { s with pool := { s.pool with regions := [(3, r done)] } }
    region (s []) (3 : BitVec 18).toNat = some (r []) ∧ region (s (List.range 31)) (3 : BitVec 18).toNat = some (r (List.range 31)) ∧ (31 : BitVec 24).toNat < granules (r []) ∧ pdOn (s []) 24 = true
      ∧ (List.range 31).length + 1 = granules (r (List.range 31)) ∧ 31 ∉ List.range 31 ∧ ([] : List Nat).length + 1 ≠ granules (r []) := by decide +kernel
theorem test_hyps_reencode : let r : Region := { region9 with gsb := some ⟨0, 1⟩ }
    let s := op9 fun s => { flying 2 (.encoding (2 ^ 24) 31) s with pool := { s.pool with regions := [(3, r)] } }
    s.fab.txns.filter (fun x => x.stage = .encoding (2 ^ 24) (31 : BitVec 5).toNat) = [firstTxn s] ∧ regionAt (underMap s (firstTxn s)) (offOf (firstTxn s).addr) = some (3, r) ∧ tileSetting r (2 ^ 24) = some ⟨0, 1⟩ ∧ (∀ x ∈ op9.fab.txns, x.stage ≠ .encoding (2 ^ 24) 31) := by decide +kernel
/-- MemoryUpkeepEvents: the last channel; the reserved area and a store with uncleared tiles; the last module. -/
theorem test_hyps_upkeep : pdOn op9 (pdStack ((127 : BitVec 7).toNat / 32)) = true ∧ 3 ≤ op9.gaf.stage ∧ pdOn op9 24 = true ∧ resetting op9 0x51 = false ∧ op9.pool.reservedClear = false := by decide +kernel
theorem test_hyps_clear : let s := op9 fun s => { s with pool := { s.pool with reservedClear := true, dirty0 := 1 }, fab := { s.fab with trays := [(7, { link := .l0, admitted := true, session := true, dirty1 := 1 })] } }
    s.pool.reservedClear = true ∧ s.pool.dirty0 ≠ 0 ∧ trayUp s (8 - 1) = true ∧ (tray s (8 - 1)).dirty1 ≠ 0 := by decide +kernel
/-- EngineEvents: an open window with a time limit, one whose tree is due, a filter, a bag result held. -/
theorem test_hyps_windowEvents : let s (x : Window) := op9 fun s => { s with win := [(65535, x)] }
    window (s { window9 .open with timeout := 1 }) (65535 : BitVec 16).toNat = some { window9 .open with timeout := 1 } ∧ (window9 .open).timed = false
      ∧ ({ window9 .completing with inFmt := 5, outFmt := 5 } : Window).tree = true ∧ (window9 .completing).failing = false ∧ (window9 .completing).dests = []
      ∧ ({ window9 .completing with filter := some ⟨[], false, false, 8, 1, 0, 0, 0, 64, []⟩ } : Window).state = .completing := by decide +kernel
theorem test_hyps_bufHold : let x : Buffered := ⟨255, 0, 0, 5, [], [], [], 7⟩
    find (op9 fun s => { s with gth := { s.gth with buf := [(0xFFFFFFFF, x)] } }).gth.buf (0xFFFFFFFF : BitVec 32).toNat = some x := rfl
/-- CrewEvents: a transfer with requests to issue, one finished, a record due, a cell stopping, a crew to clear, groups to relock. -/
def xfer9 (issued : Bool) : Xfer := ⟨2 ^ 64 - 1, 0, 0, 0, 64, 1, false, true, 0, 0, none, 0, 0, 0, issued, 0, 0, 0, []⟩
theorem test_hyps_dolly : let s (b : Bool) := op9 (crewed {} { state := .running, xfers := [xfer9 b] })
    relocking (s false) (cellNum cLast / 512) = false ∧ (cellOf (s false) (cellNum cLast)).xfers.find? (fun t => !t.issued) = some (xfer9 false) ∧ (cellOf (s true) (cellNum cLast)).xfers = [xfer9 true] ∧ (xfer9 true).out = 0 ∧ (xfer9 true).ticket < 2 ^ 64 := by decide +kernel
theorem test_hyps_cellEnds : let s (x : Cell) := op9 (crewed { clearing := true } x)
    (cellOf (s { state := .faulted, recordDue := true }) (cellNum cLast)).recordDue = true ∧ (cellOf (s { state := .stopping }) (cellNum cLast)).state = .stopping ∧ (crewOf (s {}) (127 : BitVec 7).toNat).clearing = true
      ∧ (∀ n ∈ crewCells 127, (cellOf (s {}) n).over = true) ∧ (cellOf (s { state := .faulted, recordDue := true }) (cellNum cLast)).xfers = [] := by decide +kernel
theorem test_hyps_older : let r : DueRecord := ⟨1, 5, none, none, ⟨8, 0, 0, 0, 0⟩, 7⟩
    let x := cellOf (op9 (crewed {} { state := .running, group := 2, older := [r], xfers := [{ xfer9 true with run := 2 }] })) (cellNum cLast)
    x.older = [r] ∧ ∀ t ∈ x.xfers, t.run ≠ r.run := by decide +kernel
theorem test_hyps_relock (gs : List Nat) : (op9 fun s => { s with chip := { s.chip with relock := [(⟨qOp, 7, false, 0⟩, 400, 7 :: gs)] } }).chip.relock = (⟨qOp, 7, false, 0⟩, 400, (7 : BitVec 3).toNat :: gs) :: [] := rfl
/-- ShaperEvents: the last shaper, reserved, at a port and at another resource. -/
theorem test_hyps_shaperEvents (k : Nat) : let x : Shaper := { tent := 9, reserved := true, wide := false, cls := 0, kind := k, index := 1, cir := 1, pir := 0, cbs := 4096, pbs := 0, committed := 0, peak := 0 }
    find (op9 fun s => { s with qm := { s.qm with shapers := [(4095, x)] } }).qm.shapers (4095 : BitVec 12).toNat = some x ∧ x.reserved = true ∧ x.kind = k := ⟨rfl, rfl, rfl⟩
theorem test_hyps_slot : ∀ k ∈ [0, 1], let x : Shaper := { tent := 9, reserved := true, wide := false, cls := 0, kind := k, index := 0, cir := 1, pir := 0, cbs := 4096, pbs := 0, committed := 0, peak := 0 }
    firstSlot (op9 fun s => { s with qm := { s.qm with shapers := [(4095, x)] } }) k 0 (x.due, 9) = some 4095 := by decide +kernel

/-- LinkEvents: port 19 and module 7 in each state that an event needs. -/
def linked (l : LinkState) (s : State) : State := { s with fab := { s.fab with ports := [(19, { link := l, ide := true, ideUp := true })], trays := [(7, { link := l, session := true })] } }
theorem test_hyps_links (l : LinkState) : let s := op9 (linked l)
    (port s 19).link = l ∧ (tray s 7).link = l ∧ (port s 19).ideUp = true ∧ (tray s (7 : BitVec 3).toNat).session = true ∧ pdOn s (pdFabric 19) = true ∧ pdOn s (pdTray 7) = true ∧ 3 ≤ s.gaf.stage ∧ s.chip.sleep = 0 ∧ s.kpr.lockdown = false
      ∧ s.gaf.bootHalt = false ∧ s.gaf.blobValid = true ∧ (port s 19).trainMode ≠ 2 ∧ (tray s 7).hold = false := by
  cases l <;> decide +kernel
theorem test_hyps_upOrRetrain : upOrRetrain .l0 = true ∧ upOrRetrain .retrain = true ∧ pdFabric 19 = pdFabric (19 : BitVec 5).toNat := by decide
theorem test_hyps_ideKeys : (.ide 19) ∈ (domain (op9 fun s => { s with chip := { s.chip with domains := put s.chip.domains (pdFabric 19) { state := .on, holds := [.ide 19] } } }) (pdFabric 19)).holds := by decide +kernel

/-- BootStages: every stage that has a next one. -/
def staged (n : Nat) (s : State) : State := { s with gaf := { s.gaf with stage := n }, pool := { s.pool with reservedClear := true } }
theorem test_hyps_boot : let s (n : Nat) := op9 (staged n)
    (s 0).chip.inReset = false ∧ (s 0).chip.sleep = 0 ∧ (s 0).gaf.bootHalt = false ∧ (s 0).gaf.errorHalt = false ∧ bit (s 0).chip.straps 4 = false ∧ (s 0).gaf.stage = 0 ∧ (s 3).gaf.stage = 3 ∧ 6 ≤ (s 6).gaf.stage
      ∧ (bootStep [] [] (s 2)).isSome = true ∧ (bootStep [] [] (s 4)).isSome = true ∧ (bootStep [] [] (s 5)).isSome = true := by decide +kernel
/-- DeviceResets: out of reset and awake, in reset with the rails up, and without rails. -/
def rested (rails : Bool) (s : State) : State := { s with chip := { s.chip with rails := rails, inReset := true } }
theorem test_hyps_resets : (op9 (rested false)).chip.rails = false ∧ (op9 (rested true)).chip.inReset = true ∧ (op9 (rested true)).chip.rails = true ∧ op9.chip.pinHeld = false ∧ op9.chip.rails = true ∧ op9.chip.sleep ≠ 2 ∧ op9.chip.inReset = false
    ∧ op9.kpr.lockdown = false ∧ op9.gaf.errorHalt = false ∧ startUp (op9 (staged 0)) = true ∧ op9.chip.critStreak < 4 := by decide +kernel
/-- WatchdogRule: a period set and awake, and a sleeping device. -/
def timed (s : State) : State := setFld .rstWdogCtl 0 0 16 1 s
theorem test_hyps_watchdog : wdogRuns (op9 timed) = true ∧ endpointUp (op9 timed) = true ∧ writesServed (op9 timed) = true ∧ wdogPeriod (op9 timed) ≠ 0 ∧ wdogPeriod op9 = 0 := by decide +kernel
/-- ClockAndKeyEvents: the auxiliary clock, the crew PLL, with a window out of range before and without. -/
theorem test_hyps_clock : let s (b : Nat) := op9 fun s => { s with chip := { s.chip with plls := [(1, { locked := true, bad := b })] } }
    clockRuns (s 0) (18 : BitVec 5).toNat = true ∧ clockRuns (s 0) 1 = true ∧ ((find (s 0).chip.plls 1).getD {}).bad = 0 ∧ 1 ≤ ((find (s 1).chip.plls 1).getD {}).bad := by decide +kernel
/-- PowerEvents: a block idling and one held, a domain stopping, starting and held, a sleep under way. -/
def chips (f : Chip → Chip) : State := op9 fun s => { s with chip := f s.chip }
theorem test_hyps_power : let c : CRef := ⟨qOp, 7, false, 0⟩
    let res (n : Nat) := chips fun x => { x with resets := [(0x52, { step := n, cref := some c })] }
    let dom (d : Domain) := chips fun x => { x with domains := put x.domains 24 d }
    let sl := chips fun x => { x with sleepOp := some { state := 1, wakeS := 0, cref := c, keeper := false }, sleep := 1, wakeS := 1 }
    find (res 2).chip.resets (0x52 : Byte).toNat = some { step := 2, cref := some c } ∧ inFlight (res 2) 0x52 = 0 ∧ find (res 4).chip.resets (0x52 : Byte).toNat = some { step := 4, cref := some c }
      ∧ stopAsked (dom { state := .stopping, change := some (0, c, false, false) }) 24 = true ∧ domainWork (dom { state := .stopping, change := some (0, c, false, false) }) 24 = 0
      ∧ pdState (dom { state := .starting, change := some (1, c, false, false) }) (24 : BitVec 5).toNat = .starting ∧ (domain (dom { state := .starting, change := some (1, c, false, false) }) 24).change = some (1, c, false, false)
      ∧ (domain (dom { state := .on, holds := [.slate 9], deferred := true }) (24 : BitVec 5).toNat).holds = .slate 9 :: [] ∧ removalWaits (dom { state := .on, holds := [.slate 9], deferred := true }) 24 = true
      ∧ sl.chip.sleepOp = some { state := 1, wakeS := 0, cref := c, keeper := false } ∧ sleepWork sl = 0 ∧ sl.chip.sleep ≠ 0 ∧ sl.chip.wakeS ≠ 0 ∧ endpointUp op9 = true ∧ writesServed op9 = true := by decide +kernel
/-- The wake sources: asleep in each state, entering sleep, awake; the wake pin high and low. -/
theorem test_hyps_wakes : ∀ n ∈ [1, 2], let s := chips fun x => { x with sleep := n, wakeS := 1, pins := [(101, { level := true })] }
    s.chip.sleepOp = none ∧ s.chip.sleep = n ∧ (input s 1).level = true ∧ s.chip.wakeS ≠ 0 := by decide +kernel
theorem test_hyps_wakeBit : (let s := chips fun x => { x with sleep := 1 }; endpointUp s = true ∧ writesServed s = true) ∧ (let x : SleepOp := { state := 1, wakeS := 0, cref := ⟨qOp, 7, false, 0⟩, keeper := false }; let s := chips fun c => { c with sleepOp := some x }; endpointUp s = true ∧ writesServed s = true ∧ s.chip.sleepOp = some x)
    ∧ (input (chips fun c => { c with pins := [(101, { level := false })] }) 1).level = false ∧ op9.chip.sleepOp = none ∧ op9.chip.sleep = 0 := by decide +kernel
/-- The alarms: each latch clear and set, before the keys are there and after. -/
theorem test_hyps_alarms : (∀ k ∈ [1, 2, 3], latched op9 k = false ∧ latched (setLatch k op9) k = true) ∧ op9.kpr.deviceKey = false ∧ op9.kpr.lockdown = false ∧ op9.chip.sleep = 0 := by decide +kernel
theorem test_hyps_inputs : (let s (held l : Bool) := chips fun c => { c with pinHeld := held, pins := [(100, { level := l })] }; (s true false).chip.pinHeld = true ∧ (s false false).chip.pinHeld = false ∧ (input (s false false) 0).level = false ∧ (input (s false true) 0).level = true)
    ∧ gpfInput (chips fun c => { c with pins := [(15, { func := 3 })] }) ((31 : BitVec 5).toNat - 16) = true := by decide +kernel
/-- TamperAndPinEvents and ThermRule: the last pin as an input, a tachometer and in its safe interval; an input that is low. -/
theorem test_hyps_pins : let s (x : Pin) := chips fun c => { c with pins := [(15, x), (108, { level := false })] }
    ioBank op9 = true ∧ -160 ≤ (0xFF60 : BitVec 16).toInt ∧ (0x730 : BitVec 16).toInt ≤ 1840 ∧ (input (s {}) (8 : BitVec 5).toNat).level = false
      ∧ ((pin (s { func := 3 }) ((31 : BitVec 5).toNat - 16)).func = 3 ∧ (pin (s { func := 3 }) 15).safe = false ∧ (pin (s { func := 3 }) 15).level = (pin (s { func := 3 }) 15).polarity)
      ∧ (pin (s { func := 5 }) (15 : BitVec 4).toNat).func = 5 ∧ (pin (s { safe := true }) (15 : BitVec 4).toNat).safe = true := by decide +kernel
/-- ReservedBitsAndStrayTakeIds: a plain command with a reserved bit and with a stray take identifier; the staged clause is `test_hyps_staged_reserved`. -/
theorem test_hyps_reserved : Fetched qOp { desc with rsv := 1 } op9 (after qOp op9) ∧ (desc [] 0 1).takeId ≠ 0 ∧ (desc [] 0 1).stage = false ∧ haltCheck (after qOp op9) anyRule = none ∧ Fetched qOp (desc [] 0 1) op9 (after qOp op9) := ⟨fetched_of (by decide +kernel), by decide +kernel, by decide +kernel, by decide +kernel, fetched_of (by decide +kernel)⟩
/-- ComputingInstructionsStayInTheirCrew. -/
theorem test_hyps_computing : Instr.add cLast 1 2 3 ∉ [Instr.dsub cLast 1 2, .dwait cLast 1, .dpoll cLast 1, .cadd cLast 1 2 3, .cld cLast 1 2, .cwait cLast 1 2 3, .qput cLast 1 2 3, .qget cLast 1 2 3, .fence cLast, .bar cLast, .halt cLast] := by decide
/-- StateAfterReset. -/
theorem test_hyps_epoch0 : State.reset.gaf.epoch = 0 := rfl

end Sys2Proof.Tests
end

/-! What the dispatch gives each command of the command set, and that every arm of it answers a next state. -/

namespace Sys2Proof.Machine

variable {q : QId} {d : Desc} {u : State}

/-- Refilling a bucket: of a shaper that is not there nothing happens, of one that is what waits at its point may go on. -/
theorem execShaperBucketRefill_next (e : BitVec 12) (s : State) : ∃ t, execShaperBucketRefill e s = .next t := by
  unfold execShaperBucketRefill
  split
  · exact ⟨_, rfl⟩
  · exact ⟨_, rfl⟩

/-- Every arm of the dispatch answers a next state; all but one of them are a `.next` as they stand. -/
theorem exec_next (i : Instr) (s : State) : ∃ t, exec i s = .next t := by
  cases i
  case shaperBucketRefill e => exact execShaperBucketRefill_next e s
  all_goals exact ⟨_, rfl⟩

/-- A plain command is its field check and its body, run as a command marked I under its rule. -/
theorem exec_plain {e : Instr × Rule} (h : e ∈ plainCommands q d) (s : State) :
    ∃ fields body, exec e.1 s = .next (runI q d e.2 fields body s) := by
  unfold plainCommands at h
  repeat' rcases h with _ | ⟨_, h⟩
  all_goals exact ⟨_, _, rfl⟩

/-- See `exec_plain`, for the commands after which what waited may move. -/
theorem exec_moving {e : Instr × Rule} (h : e ∈ movingCommands q d) (s : State) :
    ∃ fields body, exec e.1 s = .next (moved s (runI q d e.2 fields body s)) := by
  unfold movingCommands at h
  repeat' rcases h with _ | ⟨_, h⟩
  all_goals exact ⟨_, _, rfl⟩

/-- A command of Table 2.11 runs as one that is staged or commits alone; its row names its rule, its field check and what it copies. None of them is a take command. -/
theorem exec_boundary {b : BoundaryCommand} (h : b ∈ boundaryCommands q d u) (s : State) :
    ∃ fields copy, exec b.cmd s = .next (moved s (runE q d b.rule b.mustStage fields copy b.cmd alone s))
      ∧ fields u d = b.fields ∧ copy u = b.copied ∧ b.rule.takeCmd = false := by
  unfold boundaryCommands at h
  repeat' rcases h with _ | ⟨_, h⟩
  all_goals exact ⟨_, _, rfl, rfl, rfl, rfl⟩

/-- CSR.WRITE as a command that may be staged (R437). -/
abbrev csrWriteRow (q : QId) (d : Desc) (u : State) : BoundaryCommand := ⟨.csrWrite q d, opSealedRule, false, fieldsCsrWrite u d, []⟩

/-- See `exec_boundary`, with CSR.WRITE among the commands: issued alone, it need not be a commit. -/
theorem exec_stageable {b : BoundaryCommand} (h : b ∈ csrWriteRow q d u :: boundaryCommands q d u) (s : State) :
    ∃ fields copy al, exec b.cmd s = .next (moved s (runE q d b.rule b.mustStage fields copy b.cmd al s))
      ∧ fields u d = b.fields ∧ b.rule.takeCmd = false := by
  rcases List.mem_cons.1 h with rfl | h
  · exact ⟨fieldsCsrWrite, fun _ => [], csrAlone d, rfl, rfl, rfl⟩
  · obtain ⟨fields, copy, he, hf, -, ht⟩ := exec_boundary h s
    exact ⟨fields, copy, alone, he, hf, ht⟩

/-- Settles O1: both clauses are the two branches of `step`. -/
theorem stepTakesTheFrontCommand : Obligations.StepTakesTheFrontCommand :=
  ⟨fun _ _ _ => rfl, fun s h => by rw [step, h]⟩

/-- Settles O2: the dispatch alone decides it. -/
theorem everyCommandAnswersANextState : Obligations.EveryCommandAnswersANextState := exec_next

/-- With epoch 0 a port refuses every request (R49). -/
theorem refusing_of_epoch_zero {s : State} (p : Nat) (h : s.gaf.epoch = 0) : refusing s p = true := by
  simp [refusing, h]

/-- Settles O59: the fields of `State.reset` are the default values, and a cell with no entry is IDLE. -/
theorem stateAfterReset : Obligations.StateAfterReset := by
  refine ⟨?_, fun s p => refusing_of_epoch_zero p⟩
  exact ⟨rfl, rfl, rfl, rfl, rfl, rfl, rfl, rfl, rfl, rfl, rfl, rfl, rfl, rfl, rfl, rfl, rfl, rfl, rfl, rfl, rfl, fun _ => rfl⟩

end Sys2Proof.Machine

/-! The common checks of a fetched descriptor, staging, and descriptors that cannot be fetched (R31 to R42, R314). -/

namespace Sys2Proof.Machine

section Checks

variable {q : QId} {d : Desc} {r : Rule} {s s1 : State}

/-- Two checks that pass leave the third. -/
theorem firstStatus_three (x : Option Nat) : firstStatus [none, none, x] = x := by cases x <;> rfl

/-- A reserved header bit, or a take identifier that the command does not use, is BAD_FIELD (R37). -/
theorem headerCheck_ragged (h : d.rsv ≠ 0 ∨ d.takeId ≠ 0 ∧ d.stage = false ∧ r.takeCmd = false) : headerCheck d r = some stBadField := by
  unfold headerCheck
  by_cases hr : d.rsv = 0
  · obtain ⟨ht, hs, hc⟩ := h.resolve_left (not_not_intro hr)
    simpa [hr, hs, hc] using ht
  · exact if_pos (by simpa using hr)

/-- A command marked I with a fault in its header completes with BAD_FIELD. -/
theorem runI_badHeader (h : Fetched q d s s1) (hh : haltCheck s1 r = none) (hb : headerCheck d r = some stBadField)
    (fields : Desc → Option Nat) (body : CRef → State → State) :
    runI q d r fields body s = complete (crefOf q d s1) stBadField 0 0 s1 :=
  runI_refused h fields body (by rw [hh, hb]; rfl)

section Staged

variable (fields : State → Desc → Option Nat) (copy : State → List Byte) (i : Instr) (al : Staged → CRef → State → State)

/-- A command that must be staged, sent with STAGE 0, completes with BAD_FIELD (R39). -/
theorem runE_mustStage (h : Fetched q d s s1) (hh : haltCheck s1 r = none) (hs : d.stage = false) :
    runE q d r true fields copy i al s = complete (crefOf q d s1) stBadField 0 0 s1 := by
  obtain ⟨hc, hw, hk, rfl⟩ := h
  simp [runE, reject, hc, hw, hk, hh, hs]

/-- A command sent with STAGE 0 and a fault in its header completes with BAD_FIELD, whether or not it must be staged. -/
theorem runE_badHeader (h : Fetched q d s s1) (hh : haltCheck s1 r = none) (hs : d.stage = false) (hb : headerCheck d r = some stBadField) (m : Bool) :
    runE q d r m fields copy i al s = complete (crefOf q d s1) stBadField 0 0 s1 := by
  cases m with
  | true => exact runE_mustStage fields copy i al h hh hs
  | false =>
    obtain ⟨hc, hw, hk, rfl⟩ := h
    simp [runE, reject, hc, hw, hk, hh, hs, hb, firstStatus]

/-- A queue that cannot read its ring gets ERROR (R314). -/
theorem runE_ringRefused (hc : canFetch s q d.fence = true) (hw : ringWaits q s = false) (hk : (fetchOk q s).1 = false) (m : Bool) :
    runE q d r m fields copy i al s = queueError q (fetchOk q s).2 := by
  simp [runE, hc, hw, hk]

/-- A descriptor whose line of the ring must come first only asks for it (log entry 48). -/
theorem runE_ringWaits (hc : canFetch s q d.fence = true) (hw : ringWaits q s = true) (m : Bool) :
    runE q d r m fields copy i al s = asked s (fetchOk q s).2 := by
  simp [runE, hc, hw]

end Staged

/-- See `runE_ringRefused`. -/
theorem runI_ringRefused (hc : canFetch s q d.fence = true) (hw : ringWaits q s = false) (hk : (fetchOk q s).1 = false)
    (fields : Desc → Option Nat) (body : CRef → State → State) : runI q d r fields body s = queueError q (fetchOk q s).2 := by
  simp [runI, hc, hw, hk]

/-- See `runE_ringWaits`. -/
theorem runI_ringWaits (hc : canFetch s q d.fence = true) (hw : ringWaits q s = true)
    (fields : Desc → Option Nat) (body : CRef → State → State) : runI q d r fields body s = asked s (fetchOk q s).2 := by
  simp [runI, hc, hw]

/-- Staging a command with a fault fails the open take at the index that the command would have had (R42). -/
theorem stageCmd_fault {i : Instr} {copied : List Byte} {c : CRef} {k : Take} {st : Nat} (ht : takeOf s q d.takeId.toNat = some k)
    (ho : k.state = .open) (hl : k.cmds.length < 4096) :
    stageCmd q d i (some st) copied c s
      = complete c st 0 0 (updTake d.takeId.toNat (fun y => { y with state := .failed, failed := k.cmds.length }) s) := by
  simp [stageCmd, ht, ho, Nat.not_le.2 hl, reject, failTake]

/-- Work that changes nothing lets what can move do so. -/
theorem moved_self (s : State) : moved s s = drain s := by simp [moved, held]

/-! ### Descriptors that are not fetched, and unlisted opcodes -/

/-- A listed opcode is one of the command set. -/
theorem listedOpcode_iff (o : BitVec 16) : listedOpcode o = true ↔ o.toNat ∈ opcodes := by simp [listedOpcode]

theorem execBadOpcode_unfetched (o : BitVec 16) (h : canFetch s q d.fence = false) : execBadOpcode o q d s = .next s := by
  simp [execBadOpcode, h]

theorem execBadOpcode_listed {o : BitVec 16} (h : o.toNat ∈ opcodes) : execBadOpcode o q d s = .next s := by
  simp [execBadOpcode, (listedOpcode_iff o).2 h]

theorem listedOpcode_false {o : BitVec 16} (h : o.toNat ∉ opcodes) : listedOpcode o = false := by
  simpa using mt (listedOpcode_iff o).1 h

/-- See `runI_ringWaits`. -/
theorem execBadOpcode_ringWaits {o : BitVec 16} (ho : o.toNat ∉ opcodes) (hc : canFetch s q d.fence = true) (hw : ringWaits q s = true) :
    execBadOpcode o q d s = .next (asked s (fetchOk q s).2) := by
  simp [execBadOpcode, listedOpcode_false ho, hc, hw]

/-- See `runI_ringRefused`. -/
theorem execBadOpcode_ringRefused {o : BitVec 16} (ho : o.toNat ∉ opcodes) (hc : canFetch s q d.fence = true) (hw : ringWaits q s = false)
    (hk : (fetchOk q s).1 = false) : execBadOpcode o q d s = .next (queueError q (fetchOk q s).2) := by
  simp [execBadOpcode, listedOpcode_false ho, hc, hw, hk]

/-- A fetched descriptor with an unlisted opcode completes with BAD_OPCODE where neither lockdown nor a halt bars it (R31). -/
theorem execBadOpcode_fetched {o : BitVec 16} (ho : o.toNat ∉ opcodes) (h : Fetched q d s s1) (hh : haltCheck s1 anyRule = none) :
    execBadOpcode o q d s = .next (complete (crefOf q d s1) stBadOpcode 0 0 s1) := by
  obtain ⟨hc, hw, hk, rfl⟩ := h
  simp [execBadOpcode, listedOpcode_false ho, hc, hw, hk, hh, reject]

/-- A descriptor that stops at its fetch, leaving the state `t`, does so whatever its command; what waited then moves where the command lets it. -/
theorem exec_stopsAtFetch {t : State} (u : State) (hI : ∀ r fields body, runI q d r fields body s = t)
    (hE : ∀ r m fields copy i al, runE q d r m fields copy i al s = t) :
    (∀ e ∈ plainCommands q d, exec e.1 s = .next t)
    ∧ (∀ e ∈ movingCommands q d, exec e.1 s = .next (moved s t))
    ∧ (∀ b ∈ boundaryCommands q d u, exec b.cmd s = .next (moved s t)) := by
  refine ⟨fun e he => ?_, fun e he => ?_, fun b hb => ?_⟩
  · obtain ⟨fields, body, h⟩ := exec_plain he s
    rw [h, hI]
  · obtain ⟨fields, body, h⟩ := exec_moving he s
    rw [h, hI]
  · obtain ⟨fields, copy, h, -⟩ := exec_boundary hb s
    rw [h, hE]

end Checks

/-- Settles O24: unfetched, waiting for its ring and failing at its ring, a descriptor stops before its command is looked at. -/
theorem unfetchedAndUnlistedCommands : Obligations.UnfetchedAndUnlistedCommands := by
  refine ⟨fun q d o s hc => ?unfetched, fun o q d s s1 ho hf hl hb hh => ?unlisted, fun o q d s ho => execBadOpcode_listed ho, fun o q d s hc => ⟨fun hw hk => ?refused, fun hw => ?waits⟩⟩
  case unfetched =>
    obtain ⟨hPlain, hMoving, hBoundary⟩ := exec_stopsAtFetch s (fun _ => runI_unfetched hc) (fun _ => runE_unfetched hc)
    rw [moved_self] at hMoving hBoundary
    exact ⟨hPlain, hMoving, hBoundary, execBadOpcode_unfetched o hc⟩
  case unlisted => exact execBadOpcode_fetched ho hf (by simp [haltCheck, hl, hb, hh])
  case refused =>
    obtain ⟨hPlain, hMoving, hBoundary⟩ := exec_stopsAtFetch s (fun _ => runI_ringRefused hc hw hk) (fun _ m fields copy i al => runE_ringRefused fields copy i al hc hw hk m)
    exact ⟨hPlain, hMoving, hBoundary, fun ho => execBadOpcode_ringRefused ho hc hw hk⟩
  case waits =>
    obtain ⟨hPlain, hMoving, hBoundary⟩ := exec_stopsAtFetch s (fun _ => runI_ringWaits hc hw) (fun _ m fields copy i al => runE_ringWaits fields copy i al hc hw m)
    exact ⟨hPlain, hMoving, hBoundary, fun ho => execBadOpcode_ringWaits ho hc hw⟩

/-- Settles O23: the plain commands by the order of `runI`'s checks, the staged ones by their header check. -/
theorem commonChecksRefuseCommands : Obligations.CommonChecksRefuseCommands := by
  refine ⟨fun q d s s1 i r after hf h => ?_, fun q d s s1 hf => ⟨fun e he hh hr => ?_, fun e he hh hr => ?_, fun b hb hh => ⟨fun hs hr => ?_, fun k hs hr ht ho hl => ?_⟩⟩⟩
  · obtain ⟨fields, body, he⟩ : ∃ fields body, exec i s = .next (after (runI q d r fields body s)) := by
      rcases h with ⟨h, rfl⟩ | ⟨h, rfl⟩
      · exact exec_plain h s
      · exact exec_moving h s
    obtain ⟨hBarred, hHalted, hRagged, hForeign⟩ := runI_common (r := r) hf fields body
    rw [he]
    exact ⟨fun h1 => by rw [hBarred h1]; rfl, fun h1 h2 => by rw [hHalted h1 h2]; rfl, fun h1 h2 h3 => by rw [hRagged h1 h2 h3]; rfl,
      fun h1 h2 h3 h4 => by rw [hForeign h1 h2 h3 h4]; rfl⟩
  · obtain ⟨fields, body, h⟩ := exec_plain he s
    rw [h, runI_badHeader hf hh (headerCheck_ragged hr)]; rfl
  · obtain ⟨fields, body, h⟩ := exec_moving he s
    rw [h, runI_badHeader hf hh (headerCheck_ragged hr)]; rfl
  · obtain ⟨fields, copy, al, h, -, hc⟩ := exec_stageable hb s
    have hb := headerCheck_ragged (r := b.rule) (hr.imp_right fun ht => ⟨ht, hs, hc⟩)
    rw [h, runE_badHeader _ _ _ _ hf hh hs hb]; rfl
  · obtain ⟨fields, copy, al, h, -⟩ := exec_stageable hb s
    have hb : headerCheck d b.rule = some stBadField := headerCheck_ragged (.inl hr)
    rw [h, runE_staged hf hh hs, hb, firstStatus, stageCmd_fault ht ho hl]; rfl

/-- Settles O27: each command of Table 2.11 goes to `stageCmd` with the result of its checks. -/
theorem stagingACommand : Obligations.StagingACommand := by
  refine ⟨fun q d s s1 b k hf hb hs hh ht ho hl => ⟨fun hv hn => ?_, fun st hv hst => ?_⟩, fun q d s s1 b hf hb hh hs hm => ?_⟩
  · obtain ⟨-, hHeader, hIssuer⟩ := hv
    obtain ⟨fields, copy, h, hFields, hCopy, -⟩ := exec_boundary hb s
    rw [h, runE_staged hf hh hs, hHeader, hIssuer, hFields, hn, hCopy]
    rw [firstStatus_three, stageCmd_open ht ho hl]; rfl
  · obtain ⟨-, hHeader, hIssuer⟩ := hv
    obtain ⟨fields, copy, h, hFields, -, -⟩ := exec_boundary hb s
    rw [h, runE_staged hf hh hs, hHeader, hIssuer, hFields, hst]
    rw [firstStatus_three, stageCmd_fault ht ho hl]
  · obtain ⟨fields, copy, h, -⟩ := exec_boundary hb s
    rw [h, hm, runE_mustStage _ _ _ _ hf hh hs]; rfl

end Sys2Proof.Machine

/-! Command queues: which queue the gaffer serves, the fetch and the completion of the operator queue, and the words that move a queue (R33 to R36, R451). -/

namespace Sys2Proof.Machine

/-! ### The turn and the fetch -/

/-- A queue with descriptors to fetch has HEAD and TAIL apart, modulo the ring (R33). -/
theorem head_ne_tail_of_backlog {x : CmdQueue} (h : backlog x ≠ 0) : x.head % 2 ^ x.n ≠ x.tail % 2 ^ x.n := by
  intro he
  refine h (Nat.sub_mod_eq_zero_of_mod_eq ?_)
  rw [Nat.add_mod_right, he]

/-- What makes a queue fetchable (R33, R36). -/
theorem fetchable_iff (x : CmdQueue) : fetchable x = true ↔
    x.enable = true ∧ x.stopped = false ∧ backlog x ≠ 0 ∧ x.posted + x.running < 2 ^ x.n := by
  simp [fetchable, and_assoc]

/-- The gaffer fetches from a queue that is fetchable and next, a descriptor with FENCE only where nothing of the queue runs. -/
theorem canFetch_iff {s : State} {q : QId} {x : CmdQueue} (hx : getQ s q = some x) (fence : Bool) : canFetch s q fence = true ↔
    gafferServes s = true ∧ fetchable x = true ∧ isNext s q x = true ∧ (fence = true → x.running = 0) := by
  cases fence <;> simp [canFetch, hx, and_assoc]

/-- The next queue's start tag is at most that of every tent queue that takes part (R34). -/
theorem vtag_le_of_isNext {s : State} {q : QId} {x : CmdQueue} (h : isNext s q x = true) {e : Nat × CmdQueue} (he : e ∈ s.gaf.cmdqs)
    (hf : fetchable e.2 = true) (hr : e.2.running = 0 ∨ headFence s false e.2 = false) : x.vtag ≤ e.2.vtag := by
  have hc : contends s false e.2 = true := by simpa [contends, hf] using hr
  have hk : (e.2.vtag, 1 + e.1) ∈ fetchKeys s :=
    List.mem_append_right _ (List.mem_map.2 ⟨e, List.mem_filter.2 ⟨he, hc⟩, rfl⟩)
  have hle : keyLe (x.vtag, qNum q) (e.2.vtag, 1 + e.1) = true := List.all_eq_true.1 h _ hk
  simp only [keyLe, Bool.or_eq_true, Bool.and_eq_true, decide_eq_true_eq] at hle
  omega

/-! ### The completion -/

/-- DETAIL with PHASE above it. -/
theorem place_detail_phase (detail : Nat) (phase : Bool) :
    place detail 0 15 ||| place (bitOf phase) 15 1 = detail % 2 ^ 15 + if phase then 2 ^ 15 else 0 := by
  have hlt : detail % 2 ^ 15 < 2 ^ 15 := Nat.mod_lt _ (by decide)
  cases phase
  · simp [place, bitOf]
  · have := Nat.two_pow_add_eq_or_of_lt hlt 1
    simp only [place, bitOf, if_true, Nat.shiftLeft_zero]
    rw [Nat.or_comm, Nat.add_comm]
    exact this.symm

/-- A completion has 16 bytes (Table 2.8). -/
theorem complBytes_length (tag status detail : Nat) (phase : Bool) (result : Nat) : (complBytes tag status detail phase result).length = 16 := by
  simp [complBytes]

/-- The operator queue after a completion in its ring: CQ_TAIL moves on, PHASE inverts at the wrap, one more entry is posted, one command fewer runs (R36). -/
def postedQueue (x : CmdQueue) : CmdQueue :=
  { x with cqTail := if x.cqTail + 1 = 2 ^ x.n then 0 else x.cqTail + 1
           phase := if x.cqTail + 1 = 2 ^ x.n then !x.phase else x.phase
           posted := x.posted + 1, running := x.running - 1 }

/-- The completion's bytes go into the operator window, and the queue moves on. -/
theorem postTo_operator (bs : List Byte) (s : State) :
    postTo .operator s.gaf.opq bs s = (true, { s with gaf := { s.gaf with
      opq := postedQueue s.gaf.opq, window := writeBytes s.gaf.window (cqEntry s.gaf.opq s.gaf.opq.cqTail) bs } }) := by
  simp only [postTo, updQ, postedQueue]

/-- What completing a command of the operator queue does: its 16 bytes go into the window, the queue moves on, and the vector follows with COMPL_INT. -/
theorem completes_operator (d : Desc) (status detail result : Nat) (s : State) :
    completes .operator d status detail result s =
      { s with
        gaf := { s.gaf with
          opq := postedQueue s.gaf.opq
          window := writeBytes s.gaf.window (cqEntry s.gaf.opq s.gaf.opq.cqTail) (complBytes d.tag.toNat status detail s.gaf.opq.phase result) }
        fab := { s.fab with out := s.fab.out ++ if d.complInt then [.vector (fld s .gafCmdqCtl 0 32 8)] else [] } } := by
  have hgen : genOf s .operator = s.gaf.opq.gen := rfl
  simp only [completes, complete, crefOf, getQ, hgen, bne_self_eq_false, Bool.false_eq_true, if_false, postTo_operator, if_true, signal]
  cases d.complInt
  · simp only [Bool.not_false, if_true, Bool.false_eq_true, if_false, List.append_nil]
  · simp only [Bool.not_true, Bool.false_eq_true, if_false, if_true]
    rfl

/-- Settles O22: the fetch from what `canFetch` asks of the queue, the completion from `completes_operator`. -/
theorem queueFetchAndCompletion : Obligations.QueueFetchAndCompletion := by
  refine ⟨fun d s s1 ⟨hc, _, _, hs1⟩ => ?_, fun d status detail result s => ?_⟩
  · obtain ⟨-, hfetch, hnext, hfence⟩ := (canFetch_iff (x := s.gaf.opq) rfl d.fence).1 hc
    obtain ⟨henable, hstopped, hbacklog, hroom⟩ := (fetchable_iff _).1 hfetch
    exact ⟨henable, hstopped, head_ne_tail_of_backlog hbacklog, hroom, hfence, fun e he hf hr => vtag_le_of_isNext hnext he hf hr, hs1⟩
  · intro x t a
    have ht : t = _ := completes_operator d status detail result s
    have hlen := complBytes_length d.tag.toNat status detail x.phase result
    rw [ht]
    refine ⟨?_, fun j hj => byteAt_writeBytes_outside _ _ (by rwa [hlen]), rfl, rfl, rfl, rfl, rfl, rfl, rfl, rfl⟩
    rw [← place_detail_phase]
    have hread := readBytes_writeBytes (complBytes d.tag.toNat status detail x.phase result) s.gaf.window a
    rwa [hlen] at hread

/-! ### Words of a queue -/

section Words

variable {q : QId} {v : BitVec 64} {x : CmdQueue} {s : State}

/-- A word below 2^16 reaches a queue that exists. -/
theorem doorReach_of_getQ (hx : getQ s q = some x) (hv : v.toNat < 65536) : doorReach s q v = true := by
  cases q <;> simp [doorReach, hx, hv]

/-- A doorbell word that reaches its queue is a write of TAIL (R33). -/
theorem exec_cmdqDoorbell (hx : getQ s q = some x) (hv : v.toNat < 65536) : exec (.cmdqDoorbell q v) s = .next (doorbell q v.toNat s) := by
  change execCmdqDoorbell q v s = _
  rw [execCmdqDoorbell, if_pos (doorReach_of_getQ hx hv), Nat.mod_eq_of_lt hv]

/-- A CQ_HEAD word that reaches its queue is a write of CQ_HEAD (R36). -/
theorem exec_cqHeadWrite (hx : getQ s q = some x) (hv : v.toNat < 65536) : exec (.cqHeadWrite q v) s = .next (cqHeadWrite q v.toNat s) := by
  change execCqHeadWrite q v s = _
  rw [execCqHeadWrite, if_pos (doorReach_of_getQ hx hv), Nat.mod_eq_of_lt hv]

/-- A TAIL that the unfetched part of the ring admits is taken (R33). -/
theorem doorbell_taken (hx : getQ s q = some x) {n : Nat} (hn : n < 2 ^ x.n)
    (hle : (x.tail + 2 ^ x.n - x.head) % 2 ^ x.n ≤ (n + 2 ^ x.n - x.head) % 2 ^ x.n) :
    doorbell q n s = updQ q (fun y => { y with tail := n, lastTail := n, vtag := if backlog y = 0 then s.gaf.vtime else y.vtag }) s := by
  simp [doorbell, hx, hn, hle]

/-- Any other TAIL is an error of the queue, which keeps what was written (R33). -/
theorem doorbell_refused (hx : getQ s q = some x) {n : Nat}
    (h : ¬(n < 2 ^ x.n ∧ (x.tail + 2 ^ x.n - x.head) % 2 ^ x.n ≤ (n + 2 ^ x.n - x.head) % 2 ^ x.n)) :
    doorbell q n s = queueError q (updQ q (fun y => { y with lastTail := n % 65536 }) s) := by
  simp only [doorbell, hx]
  exact if_neg (by simpa using h)

/-- A CQ_HEAD within the posted entries frees those up to it (R36). -/
theorem cqHeadWrite_taken (hx : getQ s q = some x) {n : Nat} (hn : n < 2 ^ x.n) (hle : (n + 2 ^ x.n - x.cqHead) % 2 ^ x.n ≤ x.posted) :
    cqHeadWrite q n s = updQ q (fun y => { y with cqHead := n, posted := y.posted - (n + 2 ^ x.n - x.cqHead) % 2 ^ x.n }) s := by
  simp [cqHeadWrite, hx, hn, hle]

/-- Enabling a tent queue that is not enabled starts it (R451). -/
theorem enableQueue_tent {t : BitVec 7} {k : BitVec 4} (hx : getQ s (.tent t k) = some x) (he : x.enable = false) :
    enableQueue (.tent t k) s = updQ (.tent t k) (fun y => { y with enable := true, stopped := false }) s := by
  simp [enableQueue, hx, he]

end Words

/-- Settles O25: each word does what the queue's own operation does. -/
theorem doorbellAndEnableResults : Obligations.DoorbellAndEnableResults := by
  intro q v x s hx
  refine ⟨fun hn hv hle => ?_, fun hv h => ?_, fun hn hv hle => ?_, ?_, ?_, ?_⟩
  · rw [exec_cmdqDoorbell hx hv, doorbell_taken hx hn hle]
  · rw [exec_cmdqDoorbell hx hv, doorbell_refused hx h, Nat.mod_eq_of_lt hv]
  · rw [exec_cqHeadWrite hx hv, cqHeadWrite_taken hx hn hle]
  · rintro t k rfl he
    exact congrArg Host.Outcome.next (enableQueue_tent hx he)
  · rintro t k rfl
    rfl
  · rintro rfl
    rfl

end Sys2Proof.Machine

/-! Takes: their beginning, their state, their end, and the commits that are refused (R41 to R45). -/

namespace Sys2Proof.Machine

section Takes

variable {q : QId} {d : Desc} {s s1 : State} {c : CRef} {k : Take}

/-- A descriptor without operands passes the check of a command that has none. -/
theorem fieldsNone_of_ops_zero (h : d.ops = 0) : fieldsNone d = none := if_pos h

/-- TAKE.BEGIN takes a lease of at most 60,000 ms (Table 2.13). -/
theorem fieldsTakeBegin_ok (hf : onlyFields d [(16, 0, 32)] = true) (hm : opf d 16 0 32 ≤ 60000) : fieldsTakeBegin d = none := by
  simp [fieldsTakeBegin, hf, Nat.not_lt.2 hm]

/-- A take that has not expired has at least a millisecond left. -/
theorem one_le_leaseLeft (k : Take) (now : Nat) : 1 ≤ leaseLeft k now := Nat.le_max_left _ _

/-- TAKE.BEGIN where a take and an identifier are free: the identifier is a free choice, and the lease runs from a reading of the clock (R41, R43). -/
theorem bodyTakeBegin_begins (hroom : s.gaf.takes.length < 16) (hfree : ∃ j, 1 ≤ j ∧ j < 2 ^ 32 ∧ has s.gaf.takes j = false) :
    ∃ j now, 1 ≤ j ∧ j < 2 ^ 32 ∧ has s.gaf.takes j = false ∧ s.now ≤ now
      ∧ bodyTakeBegin q d c s = complete c stSuccess 0 j { s with
          freeIx := s.freeIx + 2, now := now
          gaf := { s.gaf with takes := put s.gaf.takes j ⟨issuer q, .open, [], 0, now + (if opf d 16 0 32 = 0 then 10000 else opf d 16 0 32) * 1000000, 0⟩ } } := by
  obtain ⟨i, hi1, hi2, hi⟩ := hfree
  obtain ⟨j, hj1, hj2, hj, hdraw⟩ := drawFree_some (ok := fun k => !has s.gaf.takes k) (lo := 1) (n := 2 ^ 32 - 1) (s := s) (by omega)
    ⟨i, hi1, by omega, by simp [hi]⟩
  refine ⟨j, s.now + Config.free (s.freeIx + 1), hj1, by omega, by simpa using hj, Nat.le_add_right _ _, ?_⟩
  simp only [bodyTakeBegin, if_neg (Nat.not_le.2 hroom), hdraw, clock_eq]

/-- TAKE.ROLLBACK of a take that does not commit removes it and answers how many commands it held (R42, Table 2.14). -/
theorem bodyTakeRollback_removes (hk : takeOf s q d.takeId.toNat = some k) (hs : k.state ≠ .committing) :
    bodyTakeRollback q d c s
      = complete c stSuccess 0 (k.cmds.length % 65536) { s with gaf := { s.gaf with takes := del s.gaf.takes d.takeId.toNat } } := by
  simp [bodyTakeRollback, hk, hs, place]

/-- TAKE.QUERY of an open take answers what is left of its lease and how many commands it holds (R43). -/
theorem bodyTakeQuery_open (hk : takeOf s q d.takeId.toNat = some k) (hs : k.state = .open) :
    bodyTakeQuery q d c s = complete c stSuccess 0
      (place (leaseLeft k (s.now + Config.free s.freeIx)) 32 32 ||| place k.cmds.length 16 16)
      { s with freeIx := s.freeIx + 1, now := s.now + Config.free s.freeIx } := by
  simp [bodyTakeQuery, hk, hs, clock_eq, TakeState.code]

/-- A take whose lease ends while it does not commit is removed and logged (R43). -/
theorem execTakeLeaseExpiry_removes {id : BitVec 32} (hk : find s.gaf.takes id.toNat = some k) (hs : k.state ≠ .committing) :
    execTakeLeaseExpiry id s = .next (attn 3 (ras 0x0E 0 k.owner (selfNode s) 0 id.toNat
      { s with now := max s.now k.deadline, gaf := { s.gaf with takes := del s.gaf.takes id.toNat } })) := by
  simp only [execTakeLeaseExpiry, hk, if_neg hs]
  rfl

/-- TAKE.COMMIT of a take that its issuer does not hold answers NOT_FOUND (R41). -/
theorem bodyTakeCommit_absent (hk : takeOf s q d.takeId.toNat = none) : bodyTakeCommit q d c s = complete c stNotFound 0 0 s := by
  simp [bodyTakeCommit, hk, reject]

/-- TAKE.COMMIT of a failed take answers the index of the fault, and the take is gone (R42). -/
theorem bodyTakeCommit_failed (hk : takeOf s q d.takeId.toNat = some k) (hs : k.state = .failed) :
    bodyTakeCommit q d c s = complete c stTakeFailed k.failed 0 { s with gaf := { s.gaf with takes := del s.gaf.takes d.takeId.toNat } } := by
  simp [bodyTakeCommit, hk, hs]

/-- TAKE.COMMIT of a take that commits already answers TAKE_STATE (R44). -/
theorem bodyTakeCommit_committing (hk : takeOf s q d.takeId.toNat = some k) (hs : k.state = .committing) :
    bodyTakeCommit q d c s = complete c stTakeState 0 0 s := by
  simp [bodyTakeCommit, hk, hs, reject]

/-- TAKE.COMMIT whose descriptor runs and whose fields are in order does what its body says; what waited then moves. -/
theorem exec_takeCommit (h : Runs takeRule q d s s1) (hf : onlyFields d [(16, 0, 32)] = true) :
    exec (.takeCommit q d) s = .next (moved s (bodyTakeCommit q d (crefOf q d s1) s1)) := by
  have hrun := runI_runs h (fun d => if onlyFields d [(16, 0, 32)] then none else some stBadField) (bodyTakeCommit q d) (if_pos hf)
  exact congrArg (fun t => Host.Outcome.next (moved s t)) hrun

end Takes

/-- Settles O26, body by body. -/
theorem takeLifeCycle : Obligations.TakeLifeCycle := by
  refine ⟨fun q d s s1 => ⟨?begin, ?rollback, ?query, ?expiry⟩, fun q d s s1 hr hf => ?commits⟩
  case begin =>
    rintro ms hr hf rfl hms hroom hfree
    obtain ⟨j, now, h1, h2, hj, hnow, hbody⟩ := bodyTakeBegin_begins (q := q) (d := d) (c := crefOf q d s1) hroom hfree
    refine ⟨j, now, h1, h2, hj, hnow, ?_⟩
    exact congrArg Host.Outcome.next ((runI_runs hr _ _ (fieldsTakeBegin_ok hf hms)).trans hbody)
  case rollback =>
    intro k hr h0 hk hs
    exact congrArg Host.Outcome.next ((runI_runs hr _ _ (fieldsNone_of_ops_zero h0)).trans (bodyTakeRollback_removes hk hs))
  case query =>
    intro k hr h0 hk hs
    exact ⟨_, _, one_le_leaseLeft k _, Nat.le_add_right s1.now (Config.free s1.freeIx),
      congrArg Host.Outcome.next ((runI_runs hr _ _ (fieldsNone_of_ops_zero h0)).trans (bodyTakeQuery_open hk hs))⟩
  case expiry =>
    intro id k hk hs
    exact execTakeLeaseExpiry_removes hk hs
  case commits =>
    rw [exec_takeCommit hr hf]
    exact ⟨fun hk => congrArg (fun t => Host.Outcome.next (moved s t)) (bodyTakeCommit_absent hk),
      fun k hk hs => congrArg (fun t => Host.Outcome.next (moved s t)) (bodyTakeCommit_failed hk hs),
      fun k hk hs => congrArg (fun t => Host.Outcome.next (moved s t)) (bodyTakeCommit_committing hk hs)⟩

end Sys2Proof.Machine

/-! The epoch boundary of a commit (R46 to R49): which parts of the state each of its effects leaves alone. -/

namespace Sys2Proof.Machine

/-! ### Holds of path groups -/

/-- `t` is `s` but for the holds of path groups, the clock and the count of free values. -/
def SameButHolds (s t : State) : Prop :=
  ∃ holds now ix, t = { s with freeIx := ix, now := now, fab := { s.fab with holds := holds } }

theorem SameButHolds.refl (s : State) : SameButHolds s s := ⟨s.fab.holds, s.now, s.freeIx, rfl⟩

theorem SameButHolds.trans {s t u : State} (h : SameButHolds s t) (g : SameButHolds t u) : SameButHolds s u := by
  obtain ⟨_, _, _, rfl⟩ := h
  obtain ⟨holds, now, ix, rfl⟩ := g
  exact ⟨holds, now, ix, rfl⟩

/-- A path group is held. -/
def Holding (p : Nat) (s : State) : Prop := ∃ h ∈ s.fab.holds, h.ports = p

/-- Work that starts holds only: it changes nothing else, and every hold that runs goes on. -/
def HoldsMore (f : State → State) : Prop := ∀ s, SameButHolds s (f s) ∧ ∀ p, Holding p s → Holding p (f s)

theorem HoldsMore.id : HoldsMore fun s => s := fun s => ⟨.refl s, fun _ h => h⟩

theorem HoldsMore.foldl {α : Type} {f : State → α → State} (xs : List α) (h : ∀ x, HoldsMore (f · x)) : HoldsMore (xs.foldl f) := by
  intro s
  induction xs generalizing s with
  | nil => exact HoldsMore.id s
  | cons x xs ih =>
    obtain ⟨hsame, hhold⟩ := h x s
    obtain ⟨hsame', hhold'⟩ := ih (f s x)
    exact ⟨hsame.trans hsame', fun p hp => hhold' p (hhold p hp)⟩

theorem startHold_sameButHolds (p : Nat) (s : State) : SameButHolds s (startHold p s) := ⟨_, _, _, rfl⟩

theorem holding_startHold_same (p : Nat) (s : State) : Holding p (startHold p s) :=
  ⟨_, List.mem_append_right _ (List.mem_singleton_self _), rfl⟩

/-- Starting a hold again of one group keeps the holds of the others. -/
theorem holdsMore_startHold (p : Nat) : HoldsMore (startHold p) := by
  refine fun s => ⟨startHold_sameButHolds p s, fun j hj => ?_⟩
  by_cases hjp : j = p
  · exact hjp ▸ holding_startHold_same p s
  · obtain ⟨h, hh, rfl⟩ := hj
    exact ⟨h, List.mem_append_left _ (List.mem_filter.2 ⟨hh, by simpa using hjp⟩), rfl⟩

theorem holdsMore_startHolds (xs : List (Nat × NodeEntry)) : HoldsMore (xs.foldl fun s e => startHold e.2.ports s) :=
  HoldsMore.foldl xs fun e => holdsMore_startHold e.2.ports

theorem holdsMore_holdDiff (old : State) : HoldsMore (holdDiff old) := by
  intro s
  refine HoldsMore.foldl (f := fun t p => if usable old p = usable s p then t else usableChanged p t) _ (fun p t => ?_) s
  dsimp only
  split
  · exact HoldsMore.id t
  · exact holdsMore_startHolds _ t

/-- A fold that starts a hold for each node of a list holds the group of every one of them. -/
theorem holding_foldl_startHold {xs : List (Nat × NodeEntry)} {e : Nat × NodeEntry} (he : e ∈ xs) (s : State) :
    Holding e.2.ports (xs.foldl (fun s e => startHold e.2.ports s) s) := by
  induction xs generalizing s with
  | nil => cases he
  | cons x xs ih =>
    rcases List.mem_cons.1 he with rfl | he
    · exact (holdsMore_startHolds xs _).2 _ (holding_startHold_same _ _)
    · exact ih he _

/-- What a boundary holds changes nothing but holds (R77). -/
theorem holdMap_sameButHolds (old new : State) : SameButHolds new (holdMap old new) := by
  unfold holdMap
  exact (holdsMore_startHolds _ new).1.trans (holdsMore_holdDiff old _).1

/-- The group that a node's path moves to is held (R77). -/
theorem holding_holdMap {old new : State} {e : Nat × NodeEntry} (he : e ∈ new.fab.nodes) (hm : movesPath old e.2 = true) :
    Holding e.2.ports (holdMap old new) := by
  unfold holdMap
  exact (holdsMore_holdDiff old _).2 _ (holding_foldl_startHold (List.mem_filter.2 ⟨he, hm⟩) new)

/-! ### The attention word -/

/-- Setting a bit of GAF_ATTN changes the stored registers, and puts out at most a vector (R444). -/
theorem attn_same (b : Nat) (s : State) : ∃ csr out, attn b s = { s with csr := csr, fab := { s.fab with out := out } } := by
  unfold attn
  dsimp only
  split
  · exact ⟨_, _, rfl⟩
  · exact ⟨_, _, rfl⟩

theorem noteOver_same (old s : State) : ∃ csr out, noteOver old s = { s with csr := csr, fab := { s.fab with out := out } } := by
  unfold noteOver
  split
  · exact attn_same 9 s
  · exact ⟨s.csr, s.fab.out, rfl⟩

/-! ### The coherence domain -/

/-- A fold whose every step leaves the state as it is. -/
theorem foldl_eq_self {α : Type} {f : State → α → State} {xs : List α} {s : State} (h : ∀ x ∈ xs, f s x = s) : xs.foldl f s = s := by
  induction xs with
  | nil => rfl
  | cons x xs ih => rw [List.foldl_cons, h x List.mem_cons_self, ih fun y hy => h y (List.mem_cons_of_mem _ hy)]

/-- Where no agent and no coherent region stood, no flush begins (R118). -/
theorem cohBoundary_eq_self {old s : State} (ha : ∀ a, a < 32 → agValid (mapVal old .cohAgent a) = false)
    (hr : ∀ e ∈ s.pool.regions, e.2.coherent = false) : cohBoundary old s = s := by
  have hagents : (List.range 32).foldl (fun s a =>
      let e := mapVal old .cohAgent a
      if agValid e && mapVal s .cohAgent a != e then startAgentFlush a e s else s) s = s :=
    foldl_eq_self fun a hm => by simp [ha a (List.mem_range.1 hm)]
  have hregions : (s.pool.regions.filter fun e => e.2.coherent && !regionFlushing s e.1 && (List.range 16).all fun i => rangeRegion s i != some e.1) = [] :=
    List.filter_eq_nil_iff.2 fun e he => by simp [hr e he]
  simp only [cohBoundary, hagents, hregions, List.foldl_nil]

/-! ### The boundary -/

/-- The state of a boundary before its flushes, pins and holds: the take's map under the new epoch, the old map kept, its shapers started, crews counted as claimed, tents with nothing left to clear ended. -/
def boundaryCore (C : Commit) (s s2 : State) : State :=
  let now := s2.now + Config.free s2.freeIx
  let o : OldMap := { epoch := s.gaf.epoch.toNat, deadline := now + 2000000, drain := C.drain, self := s.fab.self, nodes := s.fab.nodes, attach := s.fab.attach
                      tables := s.gth.tables, caches := s.gth.caches, views := s.gth.views }
  let first := s2.gaf.stage = 6
  endTents (claimsMade (startShapers now { s2 with
    freeIx := s2.freeIx + 1, now := now
    gaf := { s2.gaf with epoch := nextEpoch s.gaf.epoch, oldMap := some o, stage := if first then 7 else s2.gaf.stage }
    chip := { s2.chip with critStreak := if first then 0 else s2.chip.critStreak } }))

/-- A boundary is that state with the flushes, pins, holds and alarms that follow from it. -/
theorem boundary_eq (C : Commit) (s s2 : State) : boundary C s s2 = noteOver s (holdMap s (flipPins s (cohBoundary s (boundaryCore C s s2)))) := rfl

/-- Settles O28: no flush begins, and pins, holds and the alarm leave every part that it speaks of. -/
theorem epochBoundaryResult : Obligations.EpochBoundaryResult := by
  intro C s s2 ha hr
  have hcoh : cohBoundary s (boundaryCore C s s2) = boundaryCore C s s2 := cohBoundary_eq_self ha hr
  obtain ⟨holds, now, ix, hh⟩ := holdMap_sameButHolds s (flipPins s (boundaryCore C s s2))
  obtain ⟨csr, out, hn⟩ := noteOver_same s (holdMap s (flipPins s (boundaryCore C s s2)))
  have hmoved : ∀ e ∈ s2.fab.nodes, movesPath s e.2 = true → Holding e.2.ports (holdMap s (flipPins s (boundaryCore C s s2))) :=
    fun e he hm => holding_holdMap (new := flipPins s (boundaryCore C s s2)) he hm
  rw [boundary_eq, hcoh, hn]
  refine ⟨?_, ⟨s2.now + Config.free s2.freeIx, Nat.le_add_right _ _, ?_, ?_⟩, fun e he ⟨o, ho, h1, h2, h3⟩ => ?_, ?_⟩
  · rw [hh]; rfl
  · rw [hh]; rfl
  · rw [hh]; rfl
  · exact hmoved e he (List.any_eq_true.2 ⟨o, ho, by simp [h1, h2, h3]⟩)
  · rw [hh]
    exact ⟨rfl, rfl, rfl, rfl, rfl, rfl, rfl, rfl, rfl, rfl⟩

end Sys2Proof.Machine

/-! Reels: opening, committing and closing them, the commit point, and opens and commits that wait (R88 to R95). -/

namespace Sys2Proof.Machine

section Reels

variable {q : QId} {d : Desc} {s : State} {c : CRef} {k : Nat} {r : Region}

/-! ### Opening -/

/-- Where a handle is free one is drawn, and nothing else of the machine changes. -/
theorem freeHandle_some (hroom : s.pool.handles.length < 65536) (hfree : ∃ h, h < 65536 ∧ has s.pool.handles h = false) :
    ∃ h, h < 65536 ∧ has s.pool.handles h = false ∧ freeHandle s = some (h, { s with freeIx := s.freeIx + 1 }) := by
  obtain ⟨i, hi, hfi⟩ := hfree
  obtain ⟨h, -, hh, hfh, hdraw⟩ := drawFree_some (ok := fun h => !has s.pool.handles h) (lo := 0) (n := 65536) (s := s) (by omega)
    ⟨i, Nat.zero_le i, by omega, by simp [hfi]⟩
  exact ⟨h, by omega, by simpa using hfh, (if_neg (Nat.not_le.2 hroom)).trans hdraw⟩

/-- Tiles that free tier 0 holds are taken from it. -/
theorem takeFree0_enough {n : Nat} (h : n ≤ s.pool.free0) : takeFree0 n s = some { s with pool := { s.pool with free0 := s.pool.free0 - n } } := if_pos h

/-- Without a writer the live reels are the committed ones. -/
theorem liveCount_of_no_writer (h : r.writer = none) : liveCount r = r.reels.length := by simp [liveCount, h]

/-- A read open that every check of R90 lets through takes the drawn handle on the current reel. -/
theorem openRead_opens {h : Nat} (ho : r.owner = d.tent.toNat) (hc : r.coherent = false)
    (hgate : ∃ e ∈ s.fab.gate, e.2.edge = false ∧ e.2.source = opf d 22 0 14 ∧ e.2.tent = d.tent.toNat ∧ e.2.rd = true ∧ covers e.2.base e.2.size r.base r.size = true)
    (hguy : ∀ g ∈ s.kpr.guys, ¬(g.1 = k ∧ g.2.secondary = true ∧ g.2.state = .syncing)) (hread : readEntry s k (opf d 22 0 14) = none)
    (hh : freeHandle s = some (h, { s with freeIx := s.freeIx + 1 })) :
    openRead k r d c s = complete c stSuccess 0 (place r.current 32 32 ||| h) { s with
      freeIx := s.freeIx + 1, pool := { s.pool with handles := put s.pool.handles h ⟨k, d.tent.toNat, false, opf d 22 0 14, r.current⟩ } } := by
  have hg : (s.fab.gate.any fun e => !e.2.edge && e.2.source = opf d 22 0 14 && e.2.tent = dtent d && e.2.rd && covers e.2.base e.2.size r.base r.size) = true := by
    obtain ⟨e, he, h1, h2, h3, h4, h5⟩ := hgate
    exact List.any_eq_true.2 ⟨e, he, by simp [h1, h2, h3, h4, h5, dtent]⟩
  have hs : (s.kpr.guys.any fun g => g.1 = k && g.2.secondary && g.2.state = .syncing) = false :=
    List.any_eq_false.2 fun g hm => by simpa [and_assoc] using hguy g hm
  simp only [openRead, dtent] at hg ⊢
  simp [ho, hc, hg, hs, hread, hh]

/-- A write open that every check of R92 lets through, with fewer than eight reels live, takes the drawn handle, its reserve and a head on the current reel. -/
theorem openWrite_opens {h : Nat} (ho : r.owner = d.tent.toNat) (hc : r.coherent = false)
    (hguy : ∀ g ∈ s.kpr.guys, ¬(g.1 = k ∧ g.2.secondary = true)) (hw : r.writer = none) (hwait : r.waiting = none) (hconv : r.conv = none)
    (hreserve : opf d 28 0 18 ≤ s.pool.free0) (hlive : r.reels.length < 8) (hh : freeHandle s = some (h, { s with freeIx := s.freeIx + 1 })) :
    openWrite k r d c s = complete c stSuccess 0 (place r.current 32 32 ||| h)
      (installWriter k h (opf d 28 0 18) (opf d 24 0 32) (opf d 20 1 1 = 1) { s with freeIx := s.freeIx + 1, pool := { s.pool with
        free0 := s.pool.free0 - opf d 28 0 18, handles := put s.pool.handles h ⟨k, d.tent.toNat, true, 0, r.current⟩ } }) := by
  have hs : (s.kpr.guys.any fun g => g.1 = k && g.2.secondary) = false := List.any_eq_false.2 fun g hm => by simpa using hguy g hm
  have hlive' : liveCount r < 8 := by rwa [liveCount_of_no_writer hw]
  simp only [openWrite, dtent]
  simp [ho, hc, hs, hw, hwait, hconv, hh, takeFree0, hreserve, hlive']

/-! ### The commit point -/

theorem region_updRegion_same (f : Region → Region) (h : region s k = some r) : region (updRegion k f s) k = some (f r) := by
  rw [region_updRegion, if_pos rfl, h, Option.map_some]

/-- Freeing a place changes no region. -/
theorem region_freePlace (p : Place) (s : State) (j : Nat) : region (freePlace p s) j = region s j := by cases p <;> rfl

/-- A freed place goes into the reserve of an open writer only: without one no region changes (R97). -/
theorem region_freeSource (p : Place) (h : (region s k).bind (·.writer) = none) : region (freeSource k p s) k = region s k := by
  rw [show freeSource k p s = freePlace p s by cases p <;> simp [freeSource, h]]
  exact region_freePlace p s k

theorem region_freeTile (x : Region) (tile : Nat) (h : (region s k).bind (·.writer) = none) : region (freeTile k x tile s) k = region s k := by
  unfold freeTile
  dsimp only
  split
  · rfl
  · exact region_freeSource (s := tileErase tile s) _ h

theorem region_foldl_freeTile (x : Region) (ts : List Nat) (h : (region s k).bind (·.writer) = none) :
    region (ts.foldl (fun s t => freeTile k x t s) s) k = region s k := by
  induction ts generalizing s with
  | nil => rfl
  | cons t ts ih =>
    have ht := region_freeTile x t h
    rw [List.foldl_cons, ih (by rw [ht, h]), ht]

theorem region_giveFree0 (n : Nat) (s : State) (k : Nat) : region (giveFree0 n s) k = region s k := rfl

/-- Header chunks that are not needed go back to free tier 0, or there are none (R152). -/
theorem trimHeads_cases (k : Nat) (s : State) :
    trimHeads k s = s ∨ ∃ m n, trimHeads k s = giveFree0 m (updRegion k (fun r => { r with heads := n }) s) := by
  unfold trimHeads
  split
  · exact .inl rfl
  · dsimp only
    split
    · exact .inr ⟨_, _, rfl⟩
    · exact .inl rfl

/-- Trimming the header chunks changes their number only. -/
theorem region_trimHeads (h : region s k = some r) : ∃ n, region (trimHeads k s) k = some { r with heads := n } := by
  obtain heq | ⟨m, n, heq⟩ := trimHeads_cases k s
  · exact ⟨r.heads, by rw [heq, h]⟩
  · exact ⟨n, by rw [heq, region_giveFree0, region_updRegion_same _ h]⟩

/-- Dropping a view that no writer stands on changes the region's header chunks at most. -/
theorem region_dropView (dead : View) (h : region s k = some r) (hw : r.writer = none) :
    ∃ n, region (dropView k dead s).2 k = some { r with heads := n } := by
  unfold dropView
  rw [h]
  refine region_trimHeads ?_
  rw [region_foldl_freeTile _ _ (by rw [h]; exact hw), h]

/-- A reel ceases to exist: the region lacks it, the tiles that only it held are freed and counted, and its weight-list entries close (R88). -/
def endReel (k : Nat) (acc : Nat × State) (x : Reel) : Nat × State :=
  let freed := dropView k x.view (updRegion k (fun r => { r with reels := r.reels.filter fun y => y.num != x.num }) acc.2)
  (acc.1 + freed.1, closeWeights k x.num freed.2)

/-- The reels that end are those neither current nor held. -/
theorem pruneReels_eq (h : region s k = some r) :
    pruneReels k s = (r.reels.filter fun x => x.num != r.current && !reelHeld s k x.num).foldl (endReel k) (0, s) := by
  unfold pruneReels
  rw [h]
  rfl

/-- The end of other reels keeps the current one, and all else of a region without a writer but its header chunks. -/
theorem region_foldl_endReel (dead : List Reel) (n : Nat) (h : region s k = some r) (hw : r.writer = none) (hd : ∀ x ∈ dead, x.num ≠ r.current) :
    ∃ heads reels, region (dead.foldl (endReel k) (n, s)).2 k = some { r with heads := heads, reels := reels }
      ∧ ∀ y ∈ r.reels, y.num = r.current → y ∈ reels := by
  induction dead generalizing s r n with
  | nil => exact ⟨r.heads, r.reels, h, fun y hy _ => hy⟩
  | cons x dead ih =>
    obtain ⟨heads, hv⟩ := region_dropView x.view (region_updRegion_same (fun r => { r with reels := r.reels.filter fun y => y.num != x.num }) h) hw
    obtain ⟨heads', reels, hr, hkeep⟩ := ih (s := (endReel k (n, s) x).2) (endReel k (n, s) x).1 hv hw fun y hy => hd y (List.mem_cons_of_mem _ hy)
    refine ⟨heads', reels, hr, fun y hy hn => hkeep y (List.mem_filter.2 ⟨hy, ?_⟩) hn⟩
    simpa [hn] using (hd x List.mem_cons_self).symm

/-- Ending the reels that are neither current nor held keeps the current reel (R88). -/
theorem region_pruneReels (h : region s k = some r) (hw : r.writer = none) :
    ∃ heads reels, region (pruneReels k s).2 k = some { r with heads := heads, reels := reels } ∧ ∀ y ∈ r.reels, y.num = r.current → y ∈ reels := by
  rw [pruneReels_eq h]
  refine region_foldl_endReel _ 0 h hw fun x hx => ?_
  obtain ⟨-, hx⟩ := List.mem_filter.1 hx
  simp only [Bool.and_eq_true, bne_iff_ne] at hx
  exact hx.1

/-- A commit point without REOPEN makes the head current, gives the handle and the reserve back, and ends the reels that nothing holds any more (R93). -/
theorem commitHead_eq {w : Writer} (h : region s k = some r) (hw : r.writer = some w) :
    commitHead k false s = (pruneReels k (returnReserve w (closeHandle w.handle (updRegion k
      (fun x => { x with current := nextReel r.current, reels := ⟨nextReel r.current, w.head⟩ :: x.reels, writer := none }) s)))).2 := by
  simp [commitHead, h, hw]

theorem region_returnReserve (w : Writer) (s : State) (k : Nat) : region (returnReserve w s) k = region s k := rfl

theorem region_closeHandle (j : Nat) (s : State) (k : Nat) : region (closeHandle j s) k = region s k := rfl

/-- At the commit point the head becomes the current reel under the next number, and the region has no writer (R93). -/
theorem region_commitHead {w : Writer} (h : region s k = some r) (hw : r.writer = some w) :
    ∃ heads reels, region (commitHead k false s) k = some { r with current := nextReel r.current, writer := none, heads := heads, reels := reels }
      ∧ (⟨nextReel r.current, w.head⟩ : Reel) ∈ reels := by
  rw [commitHead_eq h hw]
  obtain ⟨heads, reels, hr, hkeep⟩ := region_pruneReels ((region_returnReserve w _ k).trans ((region_closeHandle w.handle _ k).trans
    (region_updRegion_same (fun x => { x with current := nextReel r.current, reels := ⟨nextReel r.current, w.head⟩ :: x.reels, writer := none }) h))) rfl
  exact ⟨heads, reels, hr, hkeep _ List.mem_cons_self rfl⟩

/-! ### Commits and closes -/

/-- REEL.COMMIT without REOPEN performs the commit point, and where no guy line carries it answers the new reel's number (R93). -/
theorem bodyReelCommit_commits {x : Handle} {w : Writer} (hx : find s.pool.handles (opf d 16 0 16) = some x) (hi : issuer q = some x.tent) (hxw : x.writer = true)
    (hr : region s x.region = some r) (hw : r.writer = some w) (hwait : w.commitWait = none) (hreopen : opf d 18 0 1 = 0)
    (hguy : guyCommit x.region c (nextReel r.current) (commitHead x.region false s) = none) :
    bodyReelCommit guyCommit q d c s = complete c stSuccess 0 (place (nextReel r.current) 32 32) (commitHead x.region false s) := by
  simp [bodyReelCommit, hx, hi, hxw, hr, hw, hwait, hreopen, hguy]

/-- REEL.CLOSE of a reader's handle gives it back (R95). -/
theorem bodyReelClose_reader {x : Handle} (hx : find s.pool.handles (opf d 16 0 16) = some x) (ht : x.tent = d.tent.toNat) (hxw : x.writer = false) :
    bodyReelClose d c s = complete c stSuccess 0 (closeReader (opf d 16 0 16) x s).1 (closeReader (opf d 16 0 16) x s).2 := by
  simp [bodyReelClose, hx, ht, hxw, dtent]

/-- REEL.CLOSE of a writer's handle discards its head (R95). -/
theorem bodyReelClose_writer {x : Handle} {w : Writer} (hx : find s.pool.handles (opf d 16 0 16) = some x) (ht : x.tent = d.tent.toNat) (hxw : x.writer = true)
    (hr : region s x.region = some r) (hw : r.writer = some w) (hwait : w.commitWait = none) :
    bodyReelClose d c s = complete c stSuccess 0 (discardHead x.region s).1 (discardHead x.region s).2 := by
  simp [bodyReelClose, hx, ht, hxw, dtent, hr, hw, hwait]

/-! ### Opens and commits that wait -/

/-- A write open that waits gets its head once fewer than eight reels live (R92). -/
theorem endOpenWait_opens {w : OpenWait} (hr : region s k = some r) (hw : r.waiting = some w) (hl : liveCount r < 8) :
    endOpenWait k s = complete w.cref stSuccess 0 (place r.current 32 32 ||| w.handle) (installWriter k w.handle w.reserve w.timeout true s) := by
  simp [endOpenWait, hr, hw, hl]

theorem timeoutOpenWait_drops {w : OpenWait} {t : Nat} (hr : region s k = some r) (hw : r.waiting = some w) (ht : w.deadline = some t) :
    timeoutOpenWait k s = dropOpenWait k stTimeout (clockTo t s) := by
  simp [timeoutOpenWait, hr, hw, ht]

/-- A commit with REOPEN that waits is performed once its reels fit (R94). -/
theorem endCommitWait_commits {w : Writer} {dl : Option Nat} (hr : region s k = some r) (hw : r.writer = some w) (hwait : w.commitWait = some (dl, c))
    (hl : liveAfterReopen s k r ≤ 8) (hguy : guyCommit k c (nextReel r.current) (commitHead k true s) = none) :
    endCommitWait guyCommit k s = complete c stSuccess 0 (place (nextReel r.current) 32 32) (commitHead k true s) := by
  simp [endCommitWait, hr, hw, hwait, hl, hguy]

theorem timeoutCommitWait_ends {w : Writer} {t : Nat} (hr : region s k = some r) (hw : r.writer = some w) (hwait : w.commitWait = some (some t, c)) :
    timeoutCommitWait k s = complete c stTimeout 0 0 (updRegion k (fun r => { r with writer := r.writer.map fun w => { w with commitWait := none } }) (clockTo t s)) := by
  simp [timeoutCommitWait, hr, hw, hwait, reject]

end Reels

/-- Settles O32: the commands by their bodies, the commit point by the region that `commitHead` leaves, the waits by their rows. -/
theorem reelResults : Obligations.ReelResults := by
  refine ⟨fun q d s s1 k r => ⟨fun hrun hf hk hr ho hc hfree hroom => ?opens, ?commits, ?closes⟩, ?point, fun k r s hr => ⟨?openWait, ?openTimeout, ?commitWait, ?commitTimeout⟩⟩
  case opens =>
    subst hk
    obtain ⟨h, hlt, hh, hdraw⟩ := freeHandle_some hroom hfree
    refine ⟨fun hread hgate hguy hentry => ⟨h, hlt, hh, ?_⟩, fun hwrite hreserve hguy hw hwait hconv hlive => ⟨h, hlt, hh, ?_⟩⟩
    · have hbody : bodyReelOpen d (crefOf q d s1) s1 = openRead (opf d 16 0 18) r d (crefOf q d s1) s1 := by simp [bodyReelOpen, hr, hread]
      exact congrArg Host.Outcome.next ((runI_runs hrun _ _ hf).trans (hbody.trans (openRead_opens ho hc hgate hguy hentry hdraw)))
    · have hbody : bodyReelOpen d (crefOf q d s1) s1 = openWrite (opf d 16 0 18) r d (crefOf q d s1) s1 := by simp [bodyReelOpen, hr, hwrite]
      exact congrArg Host.Outcome.next ((runI_runs hrun _ _ hf).trans (hbody.trans (openWrite_opens ho hc hguy hw hwait hconv hreserve hlive hdraw)))
  case commits =>
    rintro _ x w hrun hf rfl hx hi hxw rfl hr hw hwait hreopen hguy
    exact congrArg (fun t => Host.Outcome.next (moved s t))
      ((runI_runs hrun fieldsReelCommit _ (if_pos hf)).trans (bodyReelCommit_commits hx hi hxw hr hw hwait hreopen hguy))
  case closes =>
    rintro _ x hrun hf rfl hx ht
    have hclose : exec (.reelClose q d) s = .next (moved s (bodyReelClose d (crefOf q d s1) s1)) :=
      congrArg (fun t => Host.Outcome.next (moved s t)) (runI_runs hrun (fun d => if onlyFields d [(16, 0, 16)] then none else some stBadField) _ (if_pos hf))
    refine ⟨fun hxw => ?_, fun w hxw hr hw hwait => ?_⟩
    · rw [hclose, bodyReelClose_reader hx ht hxw]; rfl
    · rw [hclose, bodyReelClose_writer hx ht hxw hr hw hwait]; rfl
  case point =>
    intro k r w s hr hw
    obtain ⟨heads, reels, hregion, hmem⟩ := region_commitHead hr hw
    exact ⟨_, hregion, rfl, rfl, hmem, rfl, rfl, rfl⟩
  case openWait => exact fun w hw hl => congrArg Host.Outcome.next (endOpenWait_opens hr hw hl)
  case openTimeout => exact fun w t hw ht => congrArg Host.Outcome.next (timeoutOpenWait_drops hr hw ht)
  case commitWait => exact fun w dl c hw hwait hl hguy => congrArg (fun t => Host.Outcome.next (moved s t)) (endCommitWait_commits hr hw hwait hl hguy)
  case commitTimeout => exact fun w t c hw hwait => congrArg Host.Outcome.next (timeoutCommitWait_ends hr hw hwait)

end Sys2Proof.Machine

/-! Regions: REGION.CREATE, REGION.RELEASE, REGION.SET_OWNER and CMP.SET_REGION issued alone (R52, R86, R87, R153, R154). -/

namespace Sys2Proof.Machine

section Regions

variable {q : QId} {d : Desc} {s s1 : State} {r : Region} {t : Tent} {k : Nat}

/-! ### What each command applies -/

/-- No region overlaps the range of a new one (R83). -/
theorem no_overlap {base size : Nat} (h : ∀ e ∈ s.pool.regions, overlaps e.2.base e.2.size base size = false) :
    (s.pool.regions.any fun e => overlaps e.2.base e.2.size base size) = false := List.any_eq_false.2 fun e he => by simp [h e he]

/-- REGION.CREATE in tier 0 takes the region's tiles from free tier 0 (R86). -/
theorem applyRegionCreate_tier0 (htier : opf d 20 0 2 = 0) (hk : has s.pool.regions (opf d 16 0 18) = false)
    (ho : ∀ e ∈ s.pool.regions, overlaps e.2.base e.2.size (opf d 24 0 64) (opf d 32 0 64) = false) (ht : tent s d.tent.toNat = some t)
    (hfree : opf d 32 0 64 / tileBytes ≤ s.pool.free0) (hroom : stackRoom s t.span t.stackSel (opf d 32 0 64 / tileBytes) = true) :
    applyRegionCreate d s = good { s with pool := { s.pool with
      nextExt := s.pool.nextExt + 1, free0 := s.pool.free0 - opf d 32 0 64 / tileBytes
      regions := put s.pool.regions (opf d 16 0 18)
        (newRegion t d.tent.toNat (opf d 24 0 64) (opf d 32 0 64) s.pool.nextExt [⟨0, opf d 32 0 64 / tileBytes, 0, []⟩] none none) } } := by
  have hroom' : stackRoom (freshExt s).2 t.span t.stackSel (opf d 32 0 64 / tileBytes) = true := hroom
  have htake : takeFree0 (opf d 32 0 64 / tileBytes) (freshExt s).2 = some _ := takeFree0_enough hfree
  simp only [applyRegionCreate, dtent, hk, no_overlap ho, ht, htier, Bool.false_eq_true, if_false, if_true]
  rw [hroom', if_pos rfl, htake]
  rfl

/-- REGION.CREATE in tier 1 or 2 stripes the region's tiles over the modules (R86, R124). -/
theorem applyRegionCreate_lower {runs : List Run} {last : Nat} (htier : opf d 20 0 2 = 1 ∨ opf d 20 0 2 = 2) (hk : has s.pool.regions (opf d 16 0 18) = false)
    (ho : ∀ e ∈ s.pool.regions, overlaps e.2.base e.2.size (opf d 24 0 64) (opf d 32 0 64) = false) (ht : tent s d.tent.toNat = some t)
    (ha : allocLower (tagOf t.slot false) (opf d 20 0 2) (opf d 16 0 18 % 8) 0 (opf d 32 0 64 / tileBytes)
      { s with pool := { s.pool with nextExt := s.pool.nextExt + 1 } } = some (runs, last, s1)) :
    applyRegionCreate d s = good { s1 with pool := { s1.pool with
      regions := put s1.pool.regions (opf d 16 0 18) (newRegion t d.tent.toNat (opf d 24 0 64) (opf d 32 0 64) s.pool.nextExt runs
        (if opf d 20 0 2 = 1 then some last else none) (if opf d 20 0 2 = 2 then some last else none)) } } := by
  have hlower : opf d 20 0 2 ≠ 0 := by omega
  simp only [applyRegionCreate, dtent, hk, no_overlap ho, ht, freshExt, if_neg hlower, Bool.false_eq_true, if_false]
  rw [ha]

/-- REGION.RELEASE ends a region that nothing uses, with its replica set (R87). -/
theorem applyRegionRelease_releases (hr : region s (opf d 16 0 18) = some r) (ho : r.owner = d.tent.toNat) (hw : r.writer = none) (hwait : r.waiting = none)
    (hc : r.coherent = false) (hg : has s.kpr.guys (opf d 16 0 18) = false) :
    applyRegionRelease d s = good { releaseRegion (opf d 16 0 18) s with
      kpr := { (releaseRegion (opf d 16 0 18) s).kpr with replicas := del s.kpr.replicas (opf d 16 0 18) } } := by
  simp [applyRegionRelease, dtent, fresh, hr, ho, hw, hwait, hc, hg]

/-- REGION.SET_OWNER gives the region its new owner and takes the old owner's pool entries on it out of the range gate (R52). -/
theorem applyRegionSetOwner_moves (hr : region s (opf d 16 0 18) = some r) (ho : r.owner = d.tent.toNat) (ht : (tent s (opf d 20 0 7)).isSome = true)
    (hw : r.writer = none) (hwait : r.waiting = none) (hc : r.coherent = false) (hn : opf d 20 0 7 ≠ r.owner) :
    applyRegionSetOwner d s = good (updRegion (opf d 16 0 18) (fun x => { x with owner := opf d 20 0 7 }) { s with fab := { s.fab with
      gate := s.fab.gate.filter fun e => e.2.edge || e.2.tent != r.owner || !overlaps e.2.base e.2.size r.base r.size } }) := by
  have ht' : (tent s (opf d 20 0 7)).isNone = false := by simpa using ht
  have hno : (r.owner != d.tent.toNat) = false := by simp [ho]
  simp only [applyRegionSetOwner, dtent, fresh, hr, hno, ht', hw, hwait, hc, if_neg hn]
  simp

/-- Tiles of the header chunks that a setting needs for a region of `n` tiles: none where compression is off (R152). -/
def headTiles (new : Option GsbSet) (n : Nat) : Nat := match new with
  | some g => headerTiles g n
  | none => 0

/-- A region whose conversion to a setting begins (R154). -/
def converting (d : Desc) (r x : Region) : Region :=
  { x with gsb := cmpSetting d, heads := headTiles (cmpSetting d) (granules r), conv := some (x.gsb, [], clapName (opf d 24 0 32)) }

/-- CMP.SET_REGION with another setting takes the tiles of the header chunks and begins the conversion; its own RESULT is the number of tiles to convert (R153, R154). -/
theorem applyCmpSetRegion_begins (hr : region s (opf d 16 0 18) = some r) (hclap : clapOk s (issuer q) (opf d 24 0 32) = true) (ho : r.owner = d.tent.toNat)
    (hc : r.coherent = false) (hg : has s.kpr.guys (opf d 16 0 18) = false) (hh : ∀ h ∈ s.pool.handles, h.2.region ≠ opf d 16 0 18) (hwait : r.waiting = none)
    (hlive : liveCount r ≤ 1) (hconv : r.conv = none) (hnew : r.gsb ≠ cmpSetting d)
    (hplace : ∀ g, g < granules r → placeOf s r (tileOf r (currentView r) g) = .t0) (hmax : (s.pool.regions.filter fun e => e.2.conv.isSome).length < 16)
    (hhead : headTiles (cmpSetting d) (granules r) ≤ s.pool.free0) (hpd : pdOff s 24 = false) :
    applyCmpSetRegion q d s = .ok (updRegion (opf d 16 0 18) (converting d r)
      { s with pool := { s.pool with free0 := s.pool.free0 - headTiles (cmpSetting d) (granules r) } }, granules r) := by
  have hbusy : (s.pool.handles.any fun h => h.2.region = opf d 16 0 18) = false := List.any_eq_false.2 fun h hm => by simpa using hh h hm
  have hmoved : ((List.range (granules r)).any fun g => placeOf s r (tileOf r (currentView r) g) != .t0) = false :=
    List.any_eq_false.2 fun g hm => by simp [hplace g (List.mem_range.1 hm)]
  have htake : takeFree0 (headTiles (cmpSetting d) (granules r)) s = some _ := takeFree0_enough hhead
  have hno : (r.owner != d.tent.toNat) = false := by simp [ho]
  have hon : pdOff { s with pool := { s.pool with free0 := s.pool.free0 - headTiles (cmpSetting d) (granules r) } } 24 = false := hpd
  unfold applyCmpSetRegion
  simp only [dtent, fresh, hr, hclap, hno, hc, hg, hbusy, hwait, hconv, hmoved, if_neg hnew, Nat.not_lt.2 hlive, Nat.not_le.2 hmax,
    Bool.not_true, Bool.false_and, Bool.or_false, Option.isSome_none, decide_false, Bool.false_eq_true, if_false]
  split
  · next hnone => cases hnone.symm.trans htake
  · next s1 hsome =>
    obtain rfl := Option.some.inj (hsome.symm.trans htake)
    rw [hon]
    rfl

/-! ### The commands, issued alone -/

/-- A command issued alone whose field check gives a status completes with it. -/
theorem runE_refused {rule : Rule} {st : Nat} (h : Runs rule q d s s1) (fields : State → Desc → Option Nat) (copy : State → List Byte) (i : Instr)
    (al : Staged → CRef → State → State) (hf : fields s1 d = some st) : runE q d rule false fields copy i al s = complete (crefOf q d s1) st 0 0 s1 := by
  obtain ⟨⟨hc, hw, hk, rfl⟩, ⟨hh, hb, hi⟩, hs⟩ := h
  simp [runE, hc, hw, hk, hh, hb, hi, hs, hf, firstStatus, reject]

/-- A descriptor leaves one state when it is fetched. -/
theorem Fetched.unique {t1 t2 : State} (h1 : Fetched q d s t1) (h2 : Fetched q d s t2) : t1 = t2 := by
  obtain ⟨-, -, -, rfl⟩ := h1
  obtain ⟨-, -, -, rfl⟩ := h2
  rfl

/-- What is left of the field check of CMP.SET_REGION where no field is at fault: the fuse of compression (R445). -/
theorem stageCmpSetRegion_fuse (h : stageCmpSetRegion d ≠ some 0x0102) :
    stageCmpSetRegion d = if (cmpSetting d).isSome ∧ fused 1 = true then some stFeatureDisabled else none := by
  have hon : (cmpSetting d).isSome = decide (opf d 20 7 1 = 1) := by
    unfold cmpSetting
    split <;> simp [*]
  revert h
  unfold stageCmpSetRegion
  dsimp only
  split
  · exact fun h => absurd rfl h
  · intro _
    simp [hon]

end Regions

/-- Settles O34: each command by the state that it applies to. -/
theorem regionCommandResults : Obligations.RegionCommandResults := by
  refine ⟨fun q d s s0 => ⟨?tier0, ?lower, ?release, ?owner⟩, ?compression⟩
  case tier0 =>
    intro t hf htier hk ho ht hfree hroom s2 happ
    exact alone_applies happ _ (fun _ => hf) (applyRegionCreate_tier0 htier hk ho ht hfree hroom)
  case lower =>
    intro t runs last s1 hf htier hk ho ht ha s2 happ
    exact alone_applies happ _ (fun _ => hf) (applyRegionCreate_lower htier hk ho ht ha)
  case release =>
    intro r hf hr ho hw hwait hc hg s2 happ
    exact alone_applies happ (fun _ => stageRegionRelease) (fun _ => if_pos hf) (applyRegionRelease_releases hr ho hw hwait hc hg)
  case owner =>
    intro r hf hr ho ht hw hwait hc hn s2 happ
    exact alone_applies happ (fun _ => stageRegionSetOwner) (fun _ => if_pos hf) (applyRegionSetOwner_moves hr ho ht hw hwait hc hn)
  case compression =>
    intro q d s s0 r k new head hstage hr hclap ho hc hg hh hwait hlive hconv hnew hplace hmax hhead hpd s2 s1 hfetched happ
    have hcheck := stageCmpSetRegion_fuse hstage
    split
    · next hfuse =>
      obtain ⟨t, hrun, -⟩ := happ
      obtain rfl := hrun.1.unique hfetched
      rw [if_pos hfuse] at hcheck
      exact congrArg (fun t => Host.Outcome.next (moved s t)) (runE_refused hrun (fun _ => stageCmpSetRegion) _ _ _ hcheck)
    · next hfuse =>
      rw [if_neg hfuse] at hcheck
      exact alone_applies happ _ (fun _ => hcheck) (applyCmpSetRegion_begins hr hclap ho hc hg hh hwait hlive hconv hnew hplace hmax hhead hpd)

end Sys2Proof.Machine

/-! Guy lines and the rushes session: messages of channel 7 for this switch, and what time brings to a line (R103, R340 to R346, R352, R354). -/

namespace Sys2Proof.Machine

section GuyLines

variable {p : Nat} {m m1 : Msg} {s s1 : State} {k : Nat} {g : Guy} {r : Region}

/-! ### Mirroring and commit points -/

/-- A message of channel 7 for this switch is handed on. -/
theorem peerArrives_here (h : ForThisNode p m s m1 s1) (ty : Nat) (f : Msg → State → State) : peerArrives p ty m f s = f m1 s1 := by
  obtain ⟨htakes, hrole, hen, hblocked, hrsv, hself⟩ := h
  rw [peerArrives, receive_takes htakes]
  rcases hrole with hrole | hrole <;> simp [hrole, hen, hblocked, hrsv, hself]

/-- A mirrored write in sequence is applied and acknowledged (R342). -/
theorem mirrorArrives_applies {s2 : State} (hg : guyFrom s m = some (k, g)) (hsec : g.secondary = true) (hseq : m.seq.toNat = g.seqIn) (hst : g.state ≠ .linking)
    (hr : region s k = some r) (hsize : bits m.addr.toNat 0 40 + m.data.length ≤ r.size) (hup : mirrorUp s r (bits m.addr.toNat 0 40) m.data.length = true)
    (ha : applyMirror k (bits m.addr.toNat 0 40) (m.addr.getLsbD 42) m.data m.mask.toNat s = some s2) :
    mirrorArrives m s = mirrorAck k g m.seq.toNat s2 := by
  simp only [mirrorArrives, hg, hsec, hseq, hst, hr, hup, ha, Nat.not_lt.2 hsize]
  simp

/-- A commit point in sequence makes the head the current reel where no synchronisation builds one, and is acknowledged (R103). -/
theorem mirrorCommits_applies (hg : guyFrom s m = some (k, g)) (hsec : g.secondary = true) (hseq : m.seq.toNat = g.seqIn) (hst : g.state ≠ .linking)
    (hr : region s k = some r) (hbase : r.mbase = none) :
    mirrorCommits m s = mirrorAck k g m.seq.toNat (pruneReels k (updRegion k (fun x => { x with
      current := nextReel r.current, reels := ⟨nextReel r.current, mirrorView x false⟩ :: x.reels, mhead := none }) s)).2 := by
  simp only [mirrorCommits, hg, hsec, hseq, hst, hr, hbase]
  simp

/-- A mirror message for no guy line is answered NOT_LINKED. -/
theorem mirrorArrives_unknown (hg : guyFrom s m = none) : mirrorArrives m s = notLinkedTo m.snode.toNat (guyRegion m) 0 s := by
  simp [mirrorArrives, hg]

/-! ### LINK and NOT_LINKED -/

/-- A LINKING side that has compared a LINK message with its own line: broken with its reason where a check failed, else SYNCING (R340, R341). -/
def afterLinkCheck (k : Nat) (g : Guy) (r : Region) (why : Nat) (s : State) : State :=
  if why ≠ 0 then setGuy k .broken why s
  else if g.secondary then heard k (updGuy k (fun y => { y with seqIn := 0 }) (setGuy k .syncing 0 s))
  else startSync k (List.range (granules r)) s

/-- A LINK message to a LINKING side; a partner that is LINKING itself, or STALE before a secondary, is told in turn (R340). -/
theorem linkArrives_linking {why : Nat} {s2 : State} (hk : k = leNat ((m.data.drop 8).take 4)) (hg : find s.kpr.guys k = some g) (hr : region s k = some r)
    (hpartner : g.partner = m.snode.toNat) (hst : g.state = .linking) (hwhy : linkReason s k g r m = (why, s2)) :
    linkArrives m s = if leNat ((m.data.drop 13).take 1) = 1 ∨ leNat ((m.data.drop 13).take 1) = 4 ∧ g.secondary = true
      then guyCtl 0 k (afterLinkCheck k g r why s2) else afterLinkCheck k g r why s2 := by
  subst hk
  simp only [linkArrives, hg, hr, hpartner, hst, hwhy, afterLinkCheck]
  simp

theorem notLinkedArrives_linking
    (hg : s.kpr.guys.find? (fun e => e.2.partner = m.snode.toNat && e.2.partnerRegion = leNat ((m.data.drop 4).take 4)) = some (k, g)) (hst : g.state = .linking) :
    notLinkedArrives m s = setGuy k .broken 5 s := by
  simp only [notLinkedArrives, hg, hst]
  simp

theorem notLinkedArrives_mirrors
    (hg : s.kpr.guys.find? (fun e => e.2.partner = m.snode.toNat && e.2.partnerRegion = leNat ((m.data.drop 4).take 4)) = some (k, g)) (hst : g.state ≠ .linking)
    (hmirrors : g.mirrors = true) : notLinkedArrives m s = goSolo k s 5 := by
  simp only [notLinkedArrives, hg, hst, hmirrors]
  simp

/-! ### Time -/

/-- A message of a guy line waits for its acknowledgement: of a granule copied, a commit point or a mirrored write (R343). -/
theorem mirrorTimeout_due {q : Nat}
    (h : (∃ e ∈ g.syncOut, e.2 = q) ∨ (∃ e ∈ g.commitOut, e.1 = q) ∨ ∃ x ∈ s.fab.txns, x.stage = .mirror k q) :
    (g.commitOut.any (·.1 = q) || g.syncOut.any (·.2 = q) || s.fab.txns.any (·.stage = .mirror k q)) = true := by
  simp only [Bool.or_eq_true, List.any_eq_true, decide_eq_true_eq]
  exact or_assoc.2 (or_left_comm.1 h)

end GuyLines

/-- Settles O48: each message of channel 7 by what its arrival does, each row of time by its own condition. -/
theorem guyLineResults : Obligations.GuyLineResults := by
  refine ⟨fun p m m1 s s1 hm => ?messages, fun k g s hg => ⟨fun h => ?linkTick, fun hprim h => ?keepalive, fun q h => ?mirrorTimeout, fun hsec h => ?silence⟩, fun q x s hst hx => ?late⟩
  case messages =>
    have harrives (ty : Nat) (f : Msg → State → State) : fabricDo (peerArrives p.toNat ty m f) s = .next (moved s (f m1 s1)) :=
      congrArg (fun t => Host.Outcome.next (moved s t)) (peerArrives_here hm ty f)
    refine ⟨fun k g r hg hsec hseq hst hr => ⟨fun s2 hsize hup ha => ?mirror, fun hbase => ?mirrorCommit⟩, fun k g hg hprim => ?mirrorAck,
      fun k g r why s2 hk hg hr hpartner hst hwhy => ?link, fun hg => ⟨?unknownKeepalive, ?unknownMirror⟩, fun x hg => ?knownKeepalive,
      fun k g hg => ⟨fun hst => ?notLinkedLinking, fun hst hmirrors => ?notLinkedMirrors⟩, fun hcand hst hpeer => ?shadowCopy, fun x hst hpeer hx => ?shadowResult⟩
    case mirror => exact (harrives 0x10 mirrorArrives).trans (by rw [mirrorArrives_applies hg hsec hseq hst hr hsize hup ha])
    case mirrorCommit => exact (harrives 0x10 mirrorCommits).trans (by rw [mirrorCommits_applies hg hsec hseq hst hr hbase])
    case mirrorAck => exact (harrives 0x11 _).trans (by simp [hg, hprim])
    case link => exact (harrives 0x12 linkArrives).trans (by rw [linkArrives_linking hk hg hr hpartner hst hwhy]; rfl)
    case unknownKeepalive => exact (harrives 0x12 _).trans (by simp [hg])
    case unknownMirror => exact (harrives 0x10 mirrorArrives).trans (by rw [mirrorArrives_unknown hg])
    case knownKeepalive => exact (harrives 0x12 _).trans (by simp [hg])
    case notLinkedLinking => exact (harrives 0x12 notLinkedArrives).trans (by rw [notLinkedArrives_linking hg hst])
    case notLinkedMirrors => exact (harrives 0x12 notLinkedArrives).trans (by rw [notLinkedArrives_mirrors hg hst hmirrors])
    case shadowCopy => exact (harrives 0x14 _).trans (by simp [hcand, hst, hpeer])
    case shadowResult => exact (harrives 0x15 _).trans (by simp [hst, hpeer, hx])
  case linkTick =>
    have hsends : (g.state = .linking || (g.state = .solo && !g.secondary)) = true := by simpa using h
    exact (fabricDo_eq _).trans (by simp only [hg, hsends, if_true])
  case keepalive =>
    have hidle : (!g.secondary && (g.mirrors || g.state = .solo)) = true := by simpa [hprim] using h
    exact (fabricDo_eq _).trans (by simp only [hg, hidle, if_true])
  case mirrorTimeout => exact (fabricDo_eq _).trans (by simp only [hg, mirrorTimeout_due h, if_true])
  case silence =>
    have hlistens : (g.secondary && (g.state = .inSync || g.state = .syncing)) = true := by simpa [hsec] using h
    exact (fabricDo_eq _).trans (by simp only [hg, hlistens, if_true])
  case late => exact (fabricDo_eq _).trans (by simp only [hx, hst]; simp)

end Sys2Proof.Machine

/-! Memory: copies that end, moves that switch over, conversions, re-encodes, scrubbing and clearing (R96, R126, R130, R131, R136, R154, R157, R357, R392). -/

namespace Sys2Proof.Machine

section Copies

variable {k g : Nat} {r : Region} {s : State}

/-! ### What leaves the running copies as they are -/

/-- A fold whose every step keeps a part of the state keeps it. -/
theorem foldl_keeps {α β : Type} (part : State → β) {f : State → α → State} (h : ∀ s x, part (f s x) = part s) (xs : List α) (s : State) :
    part (xs.foldl f s) = part s := by
  induction xs generalizing s with
  | nil => rfl
  | cons x xs ih => rw [List.foldl_cons, ih, h]

/-- Reading a tile out of a host's pool asks the host only. -/
theorem askParts_pool (t addr n len : Nat) (s : State) : (askParts t addr n len s).pool = s.pool := by
  induction n generalizing addr len s with
  | zero => rfl
  | succ n ih =>
    unfold askParts
    split
    · rfl
    · rw [ih]; rfl

theorem pullTile_pool (t : Nat) (x : Region) (tile : Nat) (s : State) : (pullTile t x tile s).pool = s.pool := by
  unfold pullTile
  split
  · exact foldl_keeps State.pool (fun _ _ => askParts_pool ..) _ s
  · rfl

theorem countServed_pool (code t n : Nat) (s : State) : (countServed code t n s).pool = s.pool := by
  unfold countServed
  split <;> rfl

theorem refill_pool (kind ix : Nat) (s : State) : (refill kind ix s).pool = s.pool := by
  unfold refill
  split <;> rfl

theorem charge_pool (kind ix t cls len : Nat) (s : State) : (charge kind ix t cls len s).pool = s.pool := by
  unfold charge
  split <;> rfl

theorem engUnit_pool (kind ix t cls len : Nat) (s : State) : (engUnit kind ix t cls len s).pool = s.pool := by
  unfold engUnit
  dsimp only
  split
  · exact refill_pool ..
  · split
    · exact refill_pool ..
    · rw [charge_pool]
      split <;> exact refill_pool ..

theorem engUnits_pool (kind ix t cls n len : Nat) (s : State) : (engUnits kind ix t cls n len s).pool = s.pool := by
  induction n generalizing len s with
  | zero => rfl
  | succ n ih =>
    unfold engUnits
    split
    · rfl
    · rw [ih, engUnit_pool]

theorem servedTier0_pool (x : Region) (t n off len : Nat) (s : State) : (servedTier0 x t n off len s).pool = s.pool := by
  induction n generalizing off len s with
  | zero => rfl
  | succ n ih =>
    unfold servedTier0
    split
    · rfl
    · dsimp only
      rw [ih, countServed_pool]

/-- Passing a shaped point changes shapers, counters and the clock only (R298). -/
theorem movePass_pool (x : Region) (p : Place) (t tile : Nat) (s : State) : (movePass x p t tile s).pool = s.pool := by
  cases p with
  | t0 => simp only [movePass, engPass, servedTier0_pool, engUnits_pool]
  | t1 m => simp only [movePass, engPass, countServed_pool, engUnits_pool]
  | t2 m => simp only [movePass, engPass, countServed_pool, engUnits_pool]
  | t3 q i => rfl

theorem wakeCopies_pool (s : State) : (wakeCopies s).pool = s.pool := by
  unfold wakeCopies
  split <;> rfl

theorem freePlace_copies (p : Place) (s : State) : (freePlace p s).pool.copies = s.pool.copies := by cases p <;> rfl

theorem freeSource_copies (k : Nat) (p : Place) (s : State) : (freeSource k p s).pool.copies = s.pool.copies := by
  unfold freeSource
  split
  · split <;> rfl
  · exact freePlace_copies _ s

theorem freeTile_copies (k : Nat) (x : Region) (tile : Nat) (s : State) : (freeTile k x tile s).pool.copies = s.pool.copies := by
  unfold freeTile
  dsimp only
  split
  · rfl
  · exact freeSource_copies ..

theorem giveFree0_copies (n : Nat) (s : State) : (giveFree0 n s).pool.copies = s.pool.copies := rfl

theorem updRegion_copies (k : Nat) (f : Region → Region) (s : State) : (updRegion k f s).pool.copies = s.pool.copies := rfl

theorem trimHeads_copies (k : Nat) (s : State) : (trimHeads k s).pool.copies = s.pool.copies := by
  obtain h | ⟨m, n, h⟩ := trimHeads_cases k s
  · rw [h]
  · rw [h, giveFree0_copies, updRegion_copies]

theorem clapOpt_pool (n : Option Nat) (v : Nat) (s : State) : (clapOpt n v s).pool = s.pool := by
  cases n with
  | none => rfl
  | some n =>
    unfold clapOpt clapAdd fireWaits
    dsimp only
    split <;> rfl

theorem endHint_copies (h : Nat) (s : State) : (endHint h s).pool.copies = s.pool.copies := by
  unfold endHint
  split
  · split
    · rw [clapOpt_pool]
    · rfl
  · rfl

theorem countAbort_pool (lost : Bool) (n : Nat) (s : State) : (countAbort lost n s).pool = s.pool := by cases lost <;> rfl

theorem abandon_copies (h : Nat) (p : TileMove → Bool) (lost count : Bool) (s : State) : (abandon h p lost count s).pool.copies = s.pool.copies := by
  unfold abandon
  split
  · rfl
  · split
    · rfl
    · dsimp only
      rw [wakeCopies_pool, endHint_copies]
      split
      · exact (congrArg Pool.copies (countAbort_pool ..)).trans (foldl_keeps (·.pool.copies) (fun _ _ => freePlace_copies ..) _ s)
      · exact foldl_keeps (·.pool.copies) (fun _ _ => freePlace_copies ..) _ s

theorem abandonIn_copies (k : Nat) (p : TileMove → Bool) (lost count : Bool) (s : State) : (abandonIn k p lost count s).pool.copies = s.pool.copies :=
  foldl_keeps (·.pool.copies) (fun _ _ => abandon_copies ..) _ s

/-- The head's new tile takes the content of the old one: a fresh extent, a copy of the bytes, and an entry of the head. -/
theorem copyTile_copies (k g old new n : Nat) (s : State) :
    (bump .snpCopyStats 0 32 32 1 (setHeadTile k g new (tileCopy old new { s with pool := { s.pool with nextExt := n } }))).pool.copies = s.pool.copies := rfl

/-- Copying a granule into a tile that has been taken leaves the list of running copies as it is. -/
theorem copyGranule_copies (k g : Nat) (x : Region) (s : State) : (copyGranule k g x s).pool.copies = s.pool.copies := by
  have hread (old : Nat) (p : Place) : (movePass x .t0 x.owner old (movePass x p x.owner old (pullTile x.owner x old s))).pool = s.pool := by
    rw [movePass_pool, movePass_pool, pullTile_pool]
  unfold copyGranule
  dsimp only [freshExt]
  split
  · rw [copyTile_copies, hread]
  · rw [trimHeads_copies, freeTile_copies, abandonIn_copies, copyTile_copies, hread]

/-! ### Copies that end -/

/-- The copy of a granule no longer runs. -/
def withoutCopy (k g : Nat) (s : State) : State := { s with pool := { s.pool with copies := s.pool.copies.filter (· != (k, g)) } }

theorem withoutCopy_ended (k g : Nat) (s : State) : (withoutCopy k g s).pool.copies.contains (k, g) = false := by simp [withoutCopy]

theorem copyShared_running (hrun : s.pool.copies.contains (k, g) = true) (hr : region s k = some r) : copyShared s k g = some (headShared r g) := by
  simp only [copyShared, hrun, hr, Option.any_some, if_true]

/-- While a granule's copy runs, the head gets the tile that the copy took at its start (R96, R98). -/
theorem ownGranule_running (hrun : s.pool.copies.contains (k, g) = true) (hr : region s k = some r)
    (hneed : headShared r g = true ∨ placeOf s r (tileOf r (headView r) g) ≠ .t0) :
    ownGranule k g s = some (wakeCopies (copyGranule k g r (withoutCopy k g s))) := by
  have hown : (!headShared r g && placeOf s r (tileOf r (headView r) g) = .t0) = false := by
    rcases hneed with h | h <;> simp [h]
  simp only [ownGranule, tileForCopy, hr, hown, hrun, Bool.true_or, Bool.false_eq_true, if_true, if_false]
  rfl

/-- The end of a copy gives the head of an open writer its own tile (R96, R98, R126). -/
theorem endCopy_owned (hrun : s.pool.copies.contains (k, g) = true) (hr : region s k = some r) (hw : r.writer.isSome = true)
    (hup : tileUp s r (r.base + g * tileBytes) (placeOf s r (tileOf r (headView r) g)) = true)
    (hneed : headShared r g = true ∨ placeOf s r (tileOf r (headView r) g) ≠ .t0) :
    endCopy k g s = wakeCopies (copyGranule k g r (withoutCopy k g s)) := by
  have hended : (wakeCopies (copyGranule k g r (withoutCopy k g s))).pool.copies.contains (k, g) = false := by
    rw [wakeCopies_pool, copyGranule_copies, withoutCopy_ended]
  simp only [endCopy, hr, hw, hup, ownGranule_running hrun hr hneed, Bool.and_self, if_true, Option.getD_some, hended, Bool.false_eq_true, if_false]

/-- The end of a copy whose writer has closed gives its tile back (R88). -/
theorem endCopy_closed (hrun : s.pool.copies.contains (k, g) = true) (hr : region s k = some r) (hw : r.writer = none) :
    endCopy k g s = wakeCopies (untakeTile k (withoutCopy k g s)) := by
  simp only [endCopy, hr, hw, hrun, Option.isSome_none, Bool.false_and, Bool.false_eq_true, if_true, if_false]
  rfl

theorem exec_copyComplete {k : BitVec 18} {g : BitVec 24} (h : copyShared s k.toNat g.toNat = some true) :
    exec (.copyComplete k g) s = .next (moved s (endCopy k.toNat g.toNat s)) := (fabricDo_eq _).trans (by rw [if_pos h])

theorem exec_promotionComplete {k : BitVec 18} {g : BitVec 24} (h : copyShared s k.toNat g.toNat = some false) :
    exec (.promotionComplete k g) s = .next (moved s (endCopy k.toNat g.toNat s)) := (fabricDo_eq _).trans (by rw [if_pos h])

end Copies

section Moves

/-! ### Moves, conversions and re-encodes -/

variable {s : State}

/-- A tile of a conversion has been read in the form that it holds, and counts as passed (R154). -/
def tileDecoded (k g tile : Nat) (r : Region) (s : State) : State :=
  updRegion k (fun r => { r with conv := r.conv.map fun c => (c.1, insNat c.2.1 g, c.2.2) })
    (dropBuffers (·.1 = tile) (movePass r .t0 r.owner tile (decodeBlocks r tile 0 tileBytes s)))

/-- The tile is written in its region's new form. -/
def tileEncoded (k tile : Nat) (s : State) : State := match region s k with
  | some x => dropBuffers (·.1 = tile) (movePass x .t0 x.owner tile (encodeBlocks x tile 0 tileBytes s))
  | none => s

theorem rewriteTile_eq {k g tile : Nat} {r : Region} (hr : region s k = some r) : rewriteTile k g tile s = tileEncoded k tile (tileDecoded k g tile r s) := by
  unfold rewriteTile
  rw [hr]
  rfl

/-- A conversion goes on by a granule that it has not passed, and ends with the last one (R154). -/
theorem exec_conversionSwitchOver {k : BitVec 18} {g : BitVec 24} {r : Region} {old : Option GsbSet} {done : List Nat} {c : Option Nat}
    (hr : region s k.toNat = some r) (hconv : r.conv = some (old, done, c)) (hg : g.toNat < granules r) (hd : g.toNat ∉ done) (hpd : pdOn s 24 = true) :
    exec (.conversionSwitchOver k g) s = .next (
      if done.length + 1 = granules r then endConversion k.toNat old (granules r) c (rewriteTile k.toNat g.toNat (tileOf r (currentView r) g.toNat) s)
      else rewriteTile k.toNat g.toNat (tileOf r (currentView r) g.toNat) s) := by
  have hgo : (granules r ≤ g.toNat || done.contains g.toNat || !pdOn s 24) = false := by simp [hg, hd, hpd]
  show execConversionSwitchOver k g s = _
  simp only [execConversionSwitchOver, hr, hconv, hgo, Bool.false_eq_true, if_false]

end Moves

/-- A row of time whose work goes as `h` says ends with everything that can then move. -/
theorem fabricDo_of {f : State → State} {s t : State} (h : f s = t) : fabricDo f s = .next (moved s t) := by rw [fabricDo_eq, h]

section Background

variable {s : State}

/-! ### Scrubbing and clearing -/

/-- A scrub read of a channel whose stack is on counts a corrected error, poisons the lines that it found, and moves on (R136). -/
theorem exec_scrubRead {ch : BitVec 7} (corrected : Bool) (ls : BitVec 4) (hpd : pdOn s (pdStack (ch.toNat / 32)) = true) :
    exec (.scrubRead ch corrected ls) s = .next (scrubAdvance ch.toNat
      (let counted := if corrected then bump .hbcEccStatus (ch.toNat / 32) 32 32 1
          { s with pool := { s.pool with ce := put s.pool.ce ch.toNat ((find s.pool.ce ch.toNat).getD 0 + 1) } } else s
      if ls = 0 then counted else scrubPoison ch.toNat ls.toNat counted)) := by
  refine congrArg Host.Outcome.next ?_
  simp only [hpd, Bool.not_true, Bool.false_eq_true, if_false]

/-- The clear engine runs from boot stage 3 on while its domain is on and its block is not reset (R392, Table 17.7). -/
theorem clearEngine_runs (hstage : 3 ≤ s.gaf.stage) (hpd : pdOn s 24 = true) (hrst : resetting s 0x51 = false) :
    (s.gaf.stage < 3 || !pdOn s 24 || resetting s 0x51) = false := by
  simp [hpd, hrst, hstage]

section Stores

variable {n : BitVec 4} (hruns : (s.gaf.stage < 3 || !pdOn s 24 || resetting s 0x51) = false)
include hruns

/-- The reserved area is cleared before any tile of tier 0 (R392). -/
theorem clearEngine_reserved (hn : n.toNat = 0) (hres : s.pool.reservedClear = false) :
    execClearEngineTile n s = .next { s with pool := { s.pool with reservedClear := true } } := by
  simp [execClearEngineTile, hruns, hn, hres]

theorem clearEngine_tier0 (hn : n.toNat = 0) (hres : s.pool.reservedClear = true) (hdirty : s.pool.dirty0 ≠ 0) :
    execClearEngineTile n s = .next (clearTick 0 { s with pool := { s.pool with dirty0 := s.pool.dirty0 - 1, free0 := s.pool.free0 + 1 } }) := by
  simp [execClearEngineTile, hruns, hn, hres, hdirty]

theorem clearEngine_module (h0 : n.toNat ≠ 0) (hle : n.toNat ≤ 8) (hup : trayUp s (n.toNat - 1) = true) (hdirty : (tray s (n.toNat - 1)).dirty1 ≠ 0) :
    execClearEngineTile n s = .next (clearTick n.toNat
      (updTray (n.toNat - 1) (fun t => { t with dirty1 := t.dirty1 - 1, free1 := t.free1 + 1 }) (gateTags (n.toNat - 1) 0 1 s))) := by
  simp [execClearEngineTile, hruns, h0, hle, hup, hdirty]

theorem clearEngine_region (hn : n.toNat = 9) : execClearEngineTile n s = .next (clearRegionTile s) := by
  simp [execClearEngineTile, hruns, hn]

end Stores

/-- A tile of MEM.CLEAR that is not the last leaves one fewer to clear (R329). -/
theorem clearRegionTile_more {k m : Nat} {clap : Option Nat} {rest : List (Nat × Nat × Option Nat)} (h : s.pool.clears = (k, m, clap) :: rest) (hm : 1 < m) :
    clearRegionTile s = { s with pool := { s.pool with clears := (k, m - 1, clap) :: rest } } := by
  simp only [clearRegionTile, h, if_pos hm]

/-- The last tile of MEM.CLEAR advances its clapper (R329). -/
theorem clearRegionTile_last {k m : Nat} {clap : Option Nat} {rest : List (Nat × Nat × Option Nat)} (h : s.pool.clears = (k, m, clap) :: rest) (hm : m ≤ 1) :
    clearRegionTile s = clapOpt clap 1 { s with pool := { s.pool with clears := rest } } := by
  simp only [clearRegionTile, h, if_neg (Nat.not_lt.2 hm)]

end Background

/-- Settles O51: a copy that ends by what `endCopy` does with and without a writer, every other row by its own condition. -/
theorem memoryEvents : Obligations.MemoryEvents := by
  refine ⟨⟨fun k g s => ⟨exec_copyComplete, exec_promotionComplete, fun r hrun hr => ?copies⟩, fun n t h m s hh hwhole hm hmay => ?tile, fun n h s hh hwhole hmay => ?whole,
      fun k g r old done c s hr hconv hg hd hpd => ?conversion, fun t b s hidle => ?reencodeStart, fun t b x xs k r z s htxns hr hz => ?reencode⟩,
    fun ch a s => ⟨rfl, rfl⟩, fun ch s hpd => ?scrub, fun ch s => rfl, fun n s hstage hpd hrst => ?clear⟩
  case copies =>
    have hshared := copyShared_running hrun hr
    refine ⟨fun hw hup => ⟨fun hs => ?_, fun hs hplace => ?_⟩, fun hw => ⟨fun hs => ?_, fun hs => ?_⟩⟩
    · rw [exec_copyComplete (hshared.trans (congrArg some hs)), endCopy_owned hrun hr hw hup (.inl hs)]; rfl
    · rw [exec_promotionComplete (hshared.trans (congrArg some hs)), endCopy_owned hrun hr hw hup (.inr hplace)]; rfl
    · rw [exec_copyComplete (hshared.trans (congrArg some hs)), endCopy_closed hrun hr hw]; rfl
    · rw [exec_promotionComplete (hshared.trans (congrArg some hs)), endCopy_closed hrun hr hw]; rfl
  case tile => exact fabricDo_of (by simp [hh, hm, hwhole, hmay])
  case whole =>
    have hall : h.moves.all (mayMove s h) = true := List.all_eq_true.2 hmay
    exact fabricDo_of (by simp [hh, hwhole, hall])
  case conversion =>
    intro tl pass s0 s1
    have hrewrite : rewriteTile k.toNat g.toNat (tileOf r (currentView r) g.toNat) s = s1 := rewriteTile_eq hr
    have hexec := exec_conversionSwitchOver hr hconv hg hd hpd
    rw [hrewrite] at hexec
    exact ⟨fun hmore => hexec.trans (by rw [if_neg hmore]), fun hlast => hexec.trans (by rw [if_pos hlast])⟩
  case reencodeStart =>
    have hnone : (s.fab.txns.any fun x => x.stage = .encoding t b.toNat) = false := List.any_eq_false.2 fun x hx => by simpa using hidle x hx
    exact congrArg Host.Outcome.next (by simp only [hnone, Bool.false_eq_true, if_false])
  case reencode => exact fabricDo_of (by simp only [htxns, hr, Option.bind_some, hz, Option.map_some])
  case scrub =>
    exact ⟨exec_scrubRead false 0 hpd, exec_scrubRead true 0 hpd, fun ls hls => (exec_scrubRead false ls hpd).trans (by simp only [if_neg hls, Bool.false_eq_true, if_false])⟩
  case clear =>
    have hruns := clearEngine_runs hstage hpd hrst
    refine ⟨fun hn hres => clearEngine_reserved hruns (congrArg BitVec.toNat hn) hres, fun hn hres hdirty => clearEngine_tier0 hruns (congrArg BitVec.toNat hn) hres hdirty,
      fun hn hle hup hdirty => clearEngine_module hruns (by bv_omega) hle hup hdirty, fun k m clap rest hn hclears => ?_⟩
    have hregion : exec (.clearEngineTile n) s = .next (clearRegionTile s) := clearEngine_region hruns (congrArg BitVec.toNat hn)
    exact ⟨fun hm => hregion.trans (by rw [clearRegionTile_more hclears hm]), fun hm => hregion.trans (by rw [clearRegionTile_last hclears hm])⟩

end Sys2Proof.Machine

/-! The coherence domain: what a caching request, an answer, a timeout and the end of a flush lead to; the one clause of O47 that fails in a table that lists a region twice. -/

namespace Sys2Proof.Machine

/-! ### Caching requests (R111, Table 5.5) -/

/-- RD_OWN is granted with the data (Table 5.5). -/
theorem cohEnd_rdOwn {a tag : Nat} {f : Nat × Nat} {s : State} (l : Nat) (hf : agentFailed s a = false) :
    cohEnd l (.rdOwn a tag f) none s = ([], cohSend a 0x24 0 l tag f (cohMem s l).1 (cohMem s l).2
      (cohSend a 0x23 2 l tag f [] false (setDir l { state := .owned, owner := a } (cohCount f.1 l none s)))) := by
  simp [cohEnd, hf]

theorem cohEnd_ownNoData {a tag : Nat} {f : Nat × Nat} {s : State} (l : Nat) (hf : agentFailed s a = false) :
    cohEnd l (.ownNoData a tag f) none s = ([], cohSend a 0x23 2 l tag f [] false (setDir l { state := .owned, owner := a } s)) := by
  simp [cohEnd, hf]

/-- A clean eviction removes its agent from the line (Table 5.5). -/
theorem cohEnd_evictClean (l a tag : Nat) (f : Nat × Nat) (s : State) :
    cohEnd l (.evict a tag f none) none s = ([], cohSend a 0x23 7 l tag f [] false (dropHolder l a s)) := by
  cases h : (dirOf s l).state <;> simp [cohEnd, dropHolder, h]

/-- A dirty eviction is written only while the directory lists its agent as the owner (Tables 5.5, 5.8). -/
theorem cohEnd_evictDirty (l a tag : Nat) (f : Nat × Nat) (b : List Byte) (q : Bool) (s : State) :
    cohEnd l (.evict a tag f (some (b, q))) none s = ([], cohSend a 0x23 7 l tag f [] false
      (if (dirOf s l).state = .owned ∧ (dirOf s l).owner = a then setDir l {} (cohPut l b (2 ^ 64 - 1) q s) else dropHolder l a s)) := by
  cases h : (dirOf s l).state
  case owned => by_cases ho : (dirOf s l).owner = a <;> simp [cohEnd, dropHolder, h, ho]
  all_goals simp [cohEnd, dropHolder, h]

section Plans

variable {s : State} {l a tag : Nat} {f : Nat × Nat} {e : DirEntry}

/-- No agent but `a` holds the line. -/
def HeldAlone (a : Nat) (e : DirEntry) : Prop :=
  e.state = .invalid ∨ e.state = .shared ∧ (e.sharers ||| 1 <<< a) ^^^ 1 <<< a = 0 ∨ e.state = .owned ∧ e.owner = a

theorem cohPlan_rdShared_exclusive (he : e.state = .invalid ∨ e.state = .owned ∧ e.owner = a) : cohPlan s l (.rdShared a tag f) e = (0, 0) := by
  rcases he with he | ⟨he, ho⟩
  · simp [cohPlan, he]
  · simp [cohPlan, he, ho]

theorem cohPlan_rdShared_shared (he : e.state = .shared) : cohPlan s l (.rdShared a tag f) e = (0, 0) := by simp [cohPlan, he]

theorem cohPlan_rdShared_owned (he : e.state = .owned) (ho : e.owner ≠ a) : cohPlan s l (.rdShared a tag f) e = (2, 1 <<< e.owner) := by
  simp [cohPlan, he, ho]

theorem cohPlan_rdOwn_alone (he : HeldAlone a e) : cohPlan s l (.rdOwn a tag f) e = (0, 0) := by
  rcases he with he | ⟨he, ho⟩ | ⟨he, ho⟩
  · simp [cohPlan, he]
  all_goals simp [cohPlan, he, ho]

theorem cohPlan_rdOwn_shared (he : e.state = .shared) : cohPlan s l (.rdOwn a tag f) e = (0, (e.sharers ||| 1 <<< a) ^^^ 1 <<< a) := by simp [cohPlan, he]

theorem cohPlan_rdOwn_owned (he : e.state = .owned) (ho : e.owner ≠ a) : cohPlan s l (.rdOwn a tag f) e = (1, 1 <<< e.owner) := by simp [cohPlan, he, ho]

theorem cohPlan_ownNoData_alone (he : HeldAlone a e) : cohPlan s l (.ownNoData a tag f) e = (0, 0) := by
  rcases he with he | ⟨he, ho⟩ | ⟨he, ho⟩
  · simp [cohPlan, he]
  all_goals simp [cohPlan, he, ho]

theorem cohPlan_ownNoData_shared (he : e.state = .shared) : cohPlan s l (.ownNoData a tag f) e = (0, (e.sharers ||| 1 <<< a) ^^^ 1 <<< a) := by
  simp [cohPlan, he]

theorem cohPlan_ownNoData_owned (he : e.state = .owned) (ho : e.owner ≠ a) : cohPlan s l (.ownNoData a tag f) e = (0, 1 <<< e.owner) := by
  simp [cohPlan, he, ho]

theorem cohPlan_evict (s : State) (l a tag : Nat) (f : Nat × Nat) (d : Option (List Byte × Bool)) (e : DirEntry) :
    cohPlan s l (.evict a tag f d) e = (0, 0) := by
  simp [cohPlan]

end Plans

/-- A grant that changes the line's entry takes nothing from the queue. -/
theorem granted_queue (a g l tag : Nat) (f : Nat × Nat) (e : DirEntry) (s : State) :
    (cohSend a 0x23 g l tag f [] false (setDir l e s)).coh.queue = s.coh.queue := by rw [cohSend_coh, setDir_queue]

/-- See `granted_queue`, for a grant with the line's data. -/
theorem grantedData_queue (a g l tag t : Nat) (f : Nat × Nat) (bs : List Byte) (q : Bool) (e : DirEntry) (s : State) :
    (cohSend a 0x24 0 l tag f bs q (cohSend a 0x23 g l tag f [] false (setDir l e (cohCount t l none s)))).coh.queue = s.coh.queue := by
  rw [cohSend_coh, granted_queue, cohCount_coh]

theorem one_shiftLeft_ne_zero (n : Nat) : 1 <<< n ≠ 0 := by simp [Nat.shiftLeft_eq]

/-- A caching request of a healthy agent on a coherent line of which no transaction runs, where no other request waits. -/
structure QuietRequest (p : BitVec 5) (c : BitVec 4) (m m1 : Msg) (s s1 : State) (a l k : Nat) (r : Region) : Prop where
  sent : FromAgent p.toNat 2 c m s a l m1 s1
  served : refusing s1 p.toNat = false
  line : regionAt s1 (l * 64) = some (k, r)
  coherent : r.coherent = true
  healthy : agentFailed s1 a = false
  running : resetting s1 0x52 = false
  queue : s1.coh.queue = []
  quiet : cohBusy s1 l = none

namespace QuietRequest

variable {p : BitVec 5} {c : BitVec 4} {m m1 : Msg} {s s1 : State} {a l k : Nat} {r : Region} (H : QuietRequest p c m m1 s s1 a l k r)
include H

/-- No snoop is needed: the request takes effect at once. -/
theorem effect {req : CohReq} {t : State} (hbar : cohBarred s1 l req = none) (hplan : cohPlan s1 l req (dirOf s1 l) = (0, 0))
    (hend : cohEnd l req none s1 = ([], t)) (hqueue : t.coh.queue = s1.coh.queue) : cohStart [(l, req)] s1 = t :=
  (cohStart_one H.queue H.quiet hbar).2 0 t hplan hend (hqueue.trans H.queue)

/-- The snoops that Table 5.5 asks for leave first. -/
theorem asks {req : CohReq} {op w : Nat} (hbar : cohBarred s1 l req = none) (hplan : cohPlan s1 l req (dirOf s1 l) = (op, w)) (hw : w ≠ 0) :
    cohStart [(l, req)] s1 = (setBits 32 w).foldl (fun s b => cohSend b 0x21 op l 0 (cohFlow s b req) [] false s)
      (awaitSnoop l { s1 with coh := { s1.coh with txns := s1.coh.txns ++ [⟨l, req, w, op, none, none⟩] } }) :=
  (cohStart_one H.queue H.quiet hbar).1 op w hplan hw

theorem exec_rdShared {t : Nat} {u : State} (hr : regionFlushing s1 k = false) (ha : agentFlushing s1 a = false)
    (hg : gatePool s1 (agNode (agentEntry s1 a)) (l * 64) 64 false false 0 = .ok t)
    (hu : cohStart [(l, .rdShared a m1.tag.toNat (t, classOf m1))] s1 = u) : exec (.rdShared p c m) s = .next (moved s u) :=
  fabricDo_of ((cacheRequest_starts (rd := true) (wr := false) H.sent H.served (by decide) H.line H.coherent H.healthy H.running (.inr ⟨hr, ha⟩) t 0 hg rfl rfl).trans hu)

theorem exec_rdOwn {t v : Nat} {u : State} (hr : regionFlushing s1 k = false) (ha : agentFlushing s1 a = false)
    (hg : gatePool s1 (agNode (agentEntry s1 a)) (l * 64) 64 false false 0 = .ok t)
    (hw : gatePool s1 (agNode (agentEntry s1 a)) (l * 64) 64 true false 0 = .ok v)
    (hu : cohStart [(l, .rdOwn a m1.tag.toNat (t, classOf m1))] s1 = u) : exec (.rdOwn p c m) s = .next (moved s u) :=
  fabricDo_of ((cacheRequest_starts (rd := true) (wr := true) H.sent H.served (by decide) H.line H.coherent H.healthy H.running (.inr ⟨hr, ha⟩) t v hg hw rfl).trans hu)

theorem exec_ownNodata {t : Nat} {u : State} (hr : regionFlushing s1 k = false) (ha : agentFlushing s1 a = false)
    (hw : gatePool s1 (agNode (agentEntry s1 a)) (l * 64) 64 true false 0 = .ok t)
    (hu : cohStart [(l, .ownNoData a m1.tag.toNat (t, classOf m1))] s1 = u) : exec (.ownNodata p c m) s = .next (moved s u) :=
  fabricDo_of ((cacheRequest_starts (rd := false) (wr := true) H.sent H.served (by decide) H.line H.coherent H.healthy H.running (.inr ⟨hr, ha⟩) 0 t rfl hw rfl).trans hu)

theorem exec_evictClean {t : Nat} {u : State} (hg : gatePool s1 (agNode (agentEntry s1 a)) (l * 64) 64 false false 0 = .ok t)
    (hu : cohStart [(l, .evict a m1.tag.toNat (t, classOf m1) none)] s1 = u) : exec (.evictClean p c m) s = .next (moved s u) :=
  fabricDo_of ((cacheRequest_starts (rd := true) (wr := false) H.sent H.served (by decide) H.line H.coherent H.healthy H.running (.inl rfl) t 0 hg rfl rfl).trans hu)

theorem exec_evictDirty {t : Nat} {u : State} (hw : gatePool s1 (agNode (agentEntry s1 a)) (l * 64) 64 true false 0 = .ok t)
    (hu : cohStart [(l, .evict a m1.tag.toNat (t, classOf m1) (some (fit 64 m1.data, m1.mask.getLsbD 0)))] s1 = u) :
    exec (.evictDirty p c m) s = .next (moved s u) :=
  fabricDo_of ((cacheRequest_starts (rd := false) (wr := true) H.sent H.served (by decide) H.line H.coherent H.healthy H.running (.inl rfl) 0 t rfl hw rfl).trans hu)

end QuietRequest

/-! ### Answers -/

theorem cohBusy_line {s : State} {l : Nat} {t : CohTxn} (h : cohBusy s l = some t) : t.line = l := by
  simpa using List.find?_some h

theorem cohStart_nil {s : State} (hq : s.coh.queue = []) : cohStart [] s = s := by
  rw [cohStart, hq, List.nil_append, coh_queue_eta hq, cohKick_empty _ _ hq]

/-- Settling a Hint's transaction frees its line (R112). -/
theorem cohSettle_hint {t : CohTxn} {s : State} (ht : t.req = .hint) (hq : s.coh.queue = []) :
    cohSettle t s = endLimit (snoopLimit t.line) { s with coh := { s.coh with txns := s.coh.txns.filter (·.line != t.line) } } := by
  simp only [cohSettle, ht, cohEnd]
  exact cohStart_nil hq

/-- An agent's answer that is handed on leads to what it does with its line. -/
theorem fabricDo_answer {p chan : Nat} {c : BitVec 4} {m m1 : Msg} {s s1 t : State} {a l : Nat} {f : Nat → Nat → Msg → State → State}
    (h : FromAgent p chan c m s a l m1 s1) (ht : f l a m1 s1 = t) : fabricDo (agentAnswers p chan c m f) s = .next (moved s t) :=
  fabricDo_of ((agentAnswers_from h f).trans ht)

section Answers

variable {p l a : Nat} {s : State}

theorem cohAnswer_unawaited (ans : CohAns) (h : cohBusy s l = none) : cohAnswer p l a ans s = bump .prtErrors p 16 16 1 s := by
  simp [cohAnswer, h]

theorem cohHintAnswer_unawaited (accept : Bool) (h : cohBusy s l = none) : cohHintAnswer p l a accept s = bump .prtErrors p 16 16 1 s := by
  simp [cohHintAnswer, h]

/-- An accepted Hint makes the agent the owner (R112). -/
theorem cohHintAnswer_accepts {t : CohTxn} (hb : cohBusy s l = some t) (hto : t.hintTo = some a) :
    cohHintAnswer p l a true s = cohSettle t (bump .cohStats 0 32 16 1 (setDir l { state := .owned, owner := a } s)) := by
  rw [cohHintAnswer, Option.filter_eq_some_iff.2 ⟨hb, decide_eq_true hto⟩]
  rfl

theorem cohHintAnswer_declines {t : CohTxn} (hb : cohBusy s l = some t) (hto : t.hintTo = some a) :
    cohHintAnswer p l a false s = cohSettle t (bump .cohStats 0 16 16 1 s) := by
  rw [cohHintAnswer, Option.filter_eq_some_iff.2 ⟨hb, decide_eq_true hto⟩]
  rfl

/-- A transaction goes on with what an answer left of it; with no answer outstanding it settles. -/
def afterAnswer (l : Nat) (t : CohTxn) (s : State) : State :=
  let s := { s with coh := { s.coh with txns := s.coh.txns.map fun x => if x.line = l then t else x } }
  if t.wait = 0 then cohSettle t s else s

/-- What an answer other than ACK_I leaves of the agent's hold, by the kind of snoop. -/
def keptHold (l a snoop : Nat) (s : State) : State :=
  if snoop = 2 then setDir l { state := .shared, sharers := 1 <<< a } s else if snoop = 3 then s else dropHolder l a s

/-- The agent's answer is not awaited any more. -/
def withoutWait (a : Nat) (t : CohTxn) : CohTxn := { t with wait := (t.wait ||| 1 <<< a) ^^^ 1 <<< a }

variable {t : CohTxn} (hb : cohBusy s l = some t) (hw : t.wait.testBit a = true)
include hb hw

theorem awaited_answer : (cohBusy s l).filter (fun t => t.wait.testBit a) = some t := Option.filter_eq_some_iff.2 ⟨hb, hw⟩

theorem cohAnswer_ackI : cohAnswer p l a .ackI s = afterAnswer l (withoutWait a t) (dropHolder l a s) := by
  simp only [cohAnswer, awaited_answer hb hw]
  rfl

theorem cohAnswer_ackS : cohAnswer p l a .ackS s = afterAnswer l (withoutWait a t) (keptHold l a t.snoop s) := by
  simp only [cohAnswer, awaited_answer hb hw]
  obtain ⟨line, req, wait, snoop, data, hintTo⟩ := t
  rcases snoop with _ | _ | _ | _ | snoop <;> rfl

theorem cohAnswer_clean (bs : List Byte) (q : Bool) (hs : t.snoop ≠ 0) : cohAnswer p l a (.data false bs q) s =
    afterAnswer l { withoutWait a t with data := some (bs, q) } (keptHold l a t.snoop s) := by
  simp only [cohAnswer, awaited_answer hb hw, if_neg hs]
  obtain ⟨line, req, wait, snoop, data, hintTo⟩ := t
  rcases snoop with _ | _ | _ | _ | snoop <;> rfl

theorem cohAnswer_dirty (bs : List Byte) (q : Bool) (hs : t.snoop ≠ 0) : cohAnswer p l a (.data true bs q) s =
    afterAnswer l { withoutWait a t with data := some (bs, q) }
      (if t.snoop = 3 then keptHold l a t.snoop s else cohPut l bs (2 ^ 64 - 1) q (keptHold l a t.snoop s)) := by
  simp only [cohAnswer, awaited_answer hb hw, if_neg hs]
  obtain ⟨line, req, wait, snoop, data, hintTo⟩ := t
  rcases snoop with _ | _ | _ | _ | snoop
  · exact absurd rfl hs
  all_goals rfl

end Answers

/-! ### Timeouts -/

theorem agentEntry_congr {s u : State} (hm : u.mapReg = s.mapReg) (hf : u.coh.flushes = s.coh.flushes) (a : Nat) : agentEntry u a = agentEntry s a := by
  simp only [agentEntry, mapVal, hm, hf]

theorem exec_snoopTimeout {l : BitVec 48} {a : BitVec 5} {t : CohTxn} {s : State} (hb : cohBusy s l.toNat = some t)
    (hw : t.wait.testBit a.toNat = true ∨ t.hintTo = some a.toNat) :
    exec (.snoopTimeout l a) s = .next (moved s (agentFail a.toNat (bump .cohStats 0 0 16 1 (limitOver (snoopLimit l.toNat) s)))) := by
  refine fabricDo_of ?_
  rw [Option.filter_eq_some_iff.2 ⟨hb, by simpa using hw⟩]

theorem exec_snoopTimeout_quiet {l : BitVec 48} {a : BitVec 5} {s : State} (hb : cohBusy s l.toNat = none) :
    exec (.snoopTimeout l a) s = .next (drain s) := by
  rw [← moved_self s]
  refine fabricDo_of ?_
  rw [hb, Option.filter_none]

/-- An agent that holds no line fails while its Hint, the only transaction, is unanswered (R112, R119). -/
theorem agentFail_hint {a : Nat} {t : CohTxn} {s : State} (htxns : s.coh.txns = [t]) (hto : t.hintTo = some a) (hreq : t.req = .hint)
    (hqueue : s.coh.queue = []) (hdir : s.coh.dir = []) (hf : agentFailed s a = false) :
    let u := bump .cohStats 0 16 16 1 (ras 0x0B 2 none (agNode (agentEntry s a)) a 0 { s with coh := { s.coh with failed := s.coh.failed ||| 1 <<< a } })
    agentFail a s = endLimit (snoopLimit t.line) { u with coh := { u.coh with txns := [] } } := by
  rw [agentFail, if_neg (by simp [hf])]
  have hcoh := ras_coh 0x0B 2 none (agNode (agentEntry s a)) a 0 { s with coh := { s.coh with failed := s.coh.failed ||| 1 <<< a } }
  generalize ras 0x0B 2 none (agNode (agentEntry s a)) a 0 { s with coh := { s.coh with failed := s.coh.failed ||| 1 <<< a } } = v at hcoh ⊢
  have hvq : v.coh.queue = [] := by rw [hcoh]; exact hqueue
  have hnone (p : Nat × DirEntry → Bool) : v.coh.dir.filter p = [] := by rw [hcoh]; simp [hdir]
  have hdrop : v.coh.dir.foldl (fun s e => dropHolder e.1 a s) v = v := by rw [hcoh]; simp [hdir]
  have hmine (p : Nat × CohReq → Bool) : v.coh.queue.filter p = [] := by simp [hvq]
  have hwaiting : v.coh.txns.filter (fun t => t.wait.testBit a || t.hintTo = some a) = [t] := by rw [hcoh]; simp [htxns, hto]
  have hlast : v.coh.txns.filter (·.line != t.line) = [] := by rw [hcoh]; simp [htxns]
  simp only [hnone, List.foldl_nil, hdrop, hmine, coh_queue_eta hvq, hwaiting, List.foldl_cons, if_pos hto]
  rw [cohSettle_hint hreq (by rw [bump_coh]; exact hvq), bump_coh, hlast]

/-! ### Ends of flushes -/

theorem exec_flushEnd_agent {n : BitVec 18} {s : State} (hfl : agentFlushing s n.toNat = true)
    (hdir : ∀ e ∈ s.coh.dir, ¬(e.2.state = .owned ∧ e.2.owner = n.toNat) ∧ ¬(e.2.state = .shared ∧ e.2.sharers.testBit n.toNat = true))
    (htxns : ∀ t ∈ s.coh.txns, t.wait.testBit n.toNat = false ∧ t.req ≠ .flush (some n.toNat))
    (hqueue : ∀ q ∈ s.coh.queue, q.2 ≠ .flush (some n.toNat)) :
    exec (.flushEnd true n) s = .next (moved s { s with coh := { s.coh with
      flushes := s.coh.flushes.filter fun f => match f with | .agent b _ => b != n.toNat | .region _ => true
      failed := (s.coh.failed ||| 1 <<< n.toNat) ^^^ 1 <<< n.toNat } }) := by
  refine fabricDo_of ?_
  have hheld : (s.coh.dir.any fun e => (e.2.state = .owned && e.2.owner = n.toNat) || (e.2.state = .shared && e.2.sharers.testBit n.toNat)) = false := by
    simpa [List.any_eq_false] using hdir
  have hbusy : (s.coh.txns.any fun t => t.wait.testBit n.toNat || t.req = .flush (some n.toNat)) = false := by
    simpa [List.any_eq_false] using htxns
  have hwaits : (s.coh.queue.any fun q => q.2 = .flush (some n.toNat)) = false := by
    simpa [List.any_eq_false] using hqueue
  rw [endAgentFlush, hfl, hheld, hbusy, hwaits]
  rfl

/-- A region outside the domain, with a number for its one live reel (R108). -/
def outOfDomain (n : Nat) (r : Region) : Region := { r with coherent := false, current := n, reels := r.reels.map fun x => { x with num := n } }

/-- The flush of region k, found as `r`, is over and its directory space is free. -/
def flushOver (k : Nat) (r : Region) (s : State) : State :=
  giveFree0 (dirTiles r) { s with coh := { s.coh with flushes := s.coh.flushes.filter (· != .region k) } }

theorem giveFree0_regions (n : Nat) (s : State) : (giveFree0 n s).pool.regions = s.pool.regions := rfl

theorem flushOver_regions (k : Nat) (r : Region) (s : State) : (flushOver k r s).pool.regions = s.pool.regions :=
  giveFree0_regions ..

theorem exec_flushEnd_region (n : BitVec 18) (s : State) : exec (.flushEnd false n) s = .next (moved s (leaveDomain n.toNat s)) :=
  fabricDo_of (if_neg Bool.false_ne_true)

theorem leaveDomain_flushed {k : Nat} {r : Region} {s : State} (hr : region s k = some r) (hfl : regionFlushing s k = true) (hdone : regionFlushed s r = true) :
    leaveDomain k s = closeWeights k r.current (updRegion k (outOfDomain (nextReel r.current)) (flushOver k r s)) := by
  simp only [leaveDomain, hr, hfl, hdone, Bool.and_self, if_true]
  rfl

/-- What the last clause of O47 says of the region's end instead: every entry under k takes the number after its own. -/
def leftDomain (k : Nat) (r : Region) (s : State) : State :=
  closeWeights k r.current (updRegion k (fun x => outOfDomain (nextReel x.current) x) (flushOver k r s))

/-- The last clause of O47, of one state. -/
def RegionFlushEnds (n : BitVec 18) (s : State) : Prop :=
  ∀ r, region s n.toNat = some r → regionFlushing s n.toNat = true → regionFlushed s r = true →
    exec (.flushEnd false n) s = .next (moved s (leftDomain n.toNat r s))

theorem upd_absent {α : Type} {t : List (Nat × α)} {k : Nat} (f : α → α) (h : ∀ e ∈ t, e.1 ≠ k) : upd t k f = t :=
  (List.map_congr_left fun e he => if_neg (h e he)).trans (List.map_id t)

/-- Two functions that agree on the entry under a key change a sorted table alike. -/
theorem upd_congr_of_sorted {α : Type} {t : List (Nat × α)} {k : Nat} {x : α} {f g : α → α} (hs : sorted t) (hx : find t k = some x) (h : f x = g x) :
    upd t k f = upd t k g := by
  induction t with
  | nil => rfl
  | cons e t ih =>
    obtain ⟨j, y⟩ := e
    have hcons (u : α → α) : upd ((j, y) :: t) k u = (if j = k then (j, u y) else (j, y)) :: upd t k u := rfl
    rw [hcons f, hcons g]
    by_cases hj : j = k
    · have hy : y = x := by simpa [find, hj] using hx
      have habsent : ∀ e ∈ t, e.1 ≠ k := fun e he => by have := sorted_lt hs e he; omega
      rw [upd_absent f habsent, upd_absent g habsent, hy, h]
    · rw [ih (sorted_tail hs) (by simpa [find, hj] using hx), if_neg hj, if_neg hj]

/-- Where the regions' table holds one entry under each key, the last clause of O47 holds. -/
theorem regionFlushEnds_of_sorted {s : State} (hs : sorted s.pool.regions) (n : BitVec 18) : RegionFlushEnds n s := by
  intro r hr hfl hdone
  have hupd : upd s.pool.regions n.toNat (outOfDomain (nextReel r.current)) = upd s.pool.regions n.toNat fun x => outOfDomain (nextReel x.current) x :=
    upd_congr_of_sorted hs hr rfl
  have hend : updRegion n.toNat (outOfDomain (nextReel r.current)) (flushOver n.toNat r s) = updRegion n.toNat (fun x => outOfDomain (nextReel x.current) x) (flushOver n.toNat r s) := by
    rw [updRegion, updRegion, flushOver_regions, hupd]
  rw [exec_flushEnd_region, leaveDomain_flushed hr hfl hdone, hend, leftDomain]

/-! ### The clauses of O47 -/

/-- Every clause of O47 but the last holds of every state. -/
theorem coherenceEvents_iff : Obligations.CoherenceEvents ↔ ∀ n s, RegionFlushEnds n s := by
  refine ⟨fun h n s => (h.2.2.2 n s).2, fun hflush => ⟨fun p c m m1 s s1 a l k r hsent hserved hline hcoh hhealthy hrun hqueue hquiet => ?requests,
    fun p c m m1 s s1 a l => ⟨fun t hb hw => ?awaited, fun t hb hto hreq hqueue hsent => ?hint, fun hb => ?unawaited⟩,
    fun l a s => ⟨fun t hb hw => exec_snoopTimeout hb hw, fun t htxns hline hto hreq hqueue hdir hhealthy => ?timeout, fun hb => exec_snoopTimeout_quiet hb⟩,
    fun n s => ⟨exec_flushEnd_agent, hflush n s⟩⟩⟩
  case requests =>
    have H : QuietRequest p c m m1 s s1 a l k r := ⟨hsent, hserved, hline, hcoh, hhealthy, hrun, hqueue, hquiet⟩
    intro may e others tag flow grant data ask
    refine ⟨fun hr ha => ?_, fun t hg => ?_, fun t hg => ?_⟩
    · have hbar (t : Nat) := cohBarred_none (tag := tag) (f := flow t) hline hhealthy hr ha
      refine ⟨fun t hg => ⟨fun he => ?_, fun he => ?_, fun he ho => ?_⟩, fun t v hg hw => ⟨fun he => ?_, fun he ho => ?_, fun he ho => ?_⟩,
        fun t hw => ⟨fun he => ?_, fun he ho => ?_, fun he ho => ?_⟩⟩
      · exact H.exec_rdShared hr ha hg (H.effect (hbar t).1 (cohPlan_rdShared_exclusive he) ((cohEnd_rdShared hhealthy _ rfl).1 he) (grantedData_queue ..))
      · exact H.exec_rdShared hr ha hg (H.effect (hbar t).1 (cohPlan_rdShared_shared he) ((cohEnd_rdShared hhealthy _ rfl).2 he) (grantedData_queue ..))
      · exact H.exec_rdShared hr ha hg (H.asks (hbar t).1 (cohPlan_rdShared_owned he ho) (one_shiftLeft_ne_zero _))
      · exact H.exec_rdOwn hr ha hg hw (H.effect (hbar t).2.1 (cohPlan_rdOwn_alone he) (cohEnd_rdOwn l hhealthy) (grantedData_queue ..))
      · exact H.exec_rdOwn hr ha hg hw (H.asks (hbar t).2.1 (cohPlan_rdOwn_shared he) ho)
      · exact H.exec_rdOwn hr ha hg hw (H.asks (hbar t).2.1 (cohPlan_rdOwn_owned he ho) (one_shiftLeft_ne_zero _))
      · exact H.exec_ownNodata hr ha hw (H.effect (hbar t).2.2 (cohPlan_ownNoData_alone he) (cohEnd_ownNoData l hhealthy) (granted_queue ..))
      · exact H.exec_ownNodata hr ha hw (H.asks (hbar t).2.2 (cohPlan_ownNoData_shared he) ho)
      · exact H.exec_ownNodata hr ha hw (H.asks (hbar t).2.2 (cohPlan_ownNoData_owned he ho) (one_shiftLeft_ne_zero _))
    · exact H.exec_evictClean hg (H.effect rfl (cohPlan_evict ..) (cohEnd_evictClean ..) (by rw [cohSend_coh, dropHolder_queue]))
    · refine H.exec_evictDirty hg (H.effect rfl (cohPlan_evict ..) (cohEnd_evictDirty ..) ?_)
      rw [cohSend_coh]
      split
      · rw [setDir_queue, cohPut_queue]
      · rw [dropHolder_queue]
  case awaited =>
    intro left holder answer
    refine ⟨fun hsent => ⟨?_, ?_⟩, fun hsent hs => ⟨?_, ?_, ?_⟩⟩
    · exact fabricDo_answer hsent (cohAnswer_ackI hb hw)
    · exact fabricDo_answer hsent (cohAnswer_ackS hb hw)
    · exact fabricDo_answer hsent (cohAnswer_clean hb hw _ _ hs)
    · intro h3
      exact fabricDo_answer hsent ((cohAnswer_dirty hb hw _ _ hs).trans (by rw [if_pos h3]; rfl))
    · intro h3
      exact fabricDo_answer hsent ((cohAnswer_dirty hb hw _ _ hs).trans (by rw [if_neg h3]; rfl))
  case hint =>
    intro ended
    have hline := cohBusy_line hb
    have hended (u : State) (hu : u.coh.queue = []) : cohSettle t u = ended u := by rw [cohSettle_hint hreq hu, hline]
    refine ⟨fabricDo_answer hsent ?_, fabricDo_answer hsent ?_⟩
    · rw [cohHintAnswer_accepts hb hto]
      exact hended _ (by rw [bump_coh, setDir_queue, hqueue])
    · rw [cohHintAnswer_declines hb hto]
      exact hended _ (by rw [bump_coh, hqueue])
  case unawaited =>
    have hanswer (ans : CohAns) := cohAnswer_unawaited (p := p.toNat) (a := a) ans hb
    have hhint (accept : Bool) := cohHintAnswer_unawaited (p := p.toNat) (a := a) accept hb
    exact ⟨fun hsent => ⟨fabricDo_answer hsent (hanswer _), fabricDo_answer hsent (hanswer _),
        fabricDo_answer hsent (hhint _), fabricDo_answer hsent (hhint _)⟩,
      fun hsent => ⟨fabricDo_answer hsent (hanswer _), fabricDo_answer hsent (hanswer _)⟩⟩
  case timeout =>
    intro u v
    have hb : cohBusy s l.toNat = some t := by simp [cohBusy, htxns, hline]
    have hu : u.coh = s.coh := bump_coh ..
    have hentry : agentEntry u a.toNat = agentEntry s a.toNat := agentEntry_congr (bump_mapReg ..) (congrArg Coh.flushes hu) _
    have hfails := agentFail_hint (s := u) (hu ▸ htxns) hto hreq (hu ▸ hqueue) (hu ▸ hdir) (by rw [agentFailed, hu]; exact hhealthy)
    rw [hentry, hline] at hfails
    exact (exec_snoopTimeout hb (.inr hto)).trans (by rw [hfails])

/-! ### The refutation -/

/-- Nothing is in flight in the fabric, the directory or at the ports. -/
structure Idle (s : State) : Prop where
  txns : s.fab.txns = []
  egress : s.fab.egress = []
  ports : s.fab.ports = []
  need : s.coh.need = []
  queue : s.coh.queue = []
  guys : s.kpr.guys = []

theorem drain_idle {s : State} (h : Idle s) : drain s = s := by
  obtain ⟨htxns, hegress, hports, hneed, hqueue, hguys⟩ := h
  have hdrive (n : Nat) : drive n s = s := by cases n <;> simp [drive, htxns, hneed, hqueue]
  have hpump : pump s = s := foldl_eq_self fun p _ => by simp [pumpPort, hegress]
  simp [drain, drainFor, freeGuyCopies, waitPoints, flushMirrors, guyReach, endMirrors, padAll, keys, hdrive, hpump, htxns, hguys, hports]

theorem moved_idle {s t : State} (hneed : t.coh.need = s.coh.need) (h : Idle t) : moved s t = t := by
  rw [moved, held_done hneed, drain_idle h]

/-- A coherent region with reel `n` current. -/
def coherentAt (n : Nat) : Region :=
  { owner := 0, base := 0, size := 0, ext := 0, runs := [], span := 0, stackSel := 0, seed := 0, slot := 0, keyGen := 0, keyDead := false
    current := n, reels := [], writer := none, waiting := none, gsb := none, conv := none, coherent := true, lastMod1 := none, lastMod2 := none }

/-- Region 0, being flushed, stands twice in the table, with reel 1 and with reel 5 current. -/
def listedTwice : State := { pool := { regions := [(0, coherentAt 1), (0, coherentAt 5)] }, coh := { flushes := [.region 0] } }

/-- The model gives both entries number 2, the clause 2 and 6. -/
theorem not_regionFlushEnds : ¬ RegionFlushEnds 0 listedTwice := by
  intro h
  have hleft : exec (.flushEnd false 0) listedTwice = .next (moved listedTwice (leftDomain 0 (coherentAt 1) listedTwice)) := h _ rfl (by decide) (by decide)
  rw [exec_flushEnd_region, moved_idle (s := listedTwice) (t := leftDomain 0 _ listedTwice) rfl ⟨rfl, rfl, rfl, rfl, rfl, rfl⟩] at hleft
  have hleaves : moved listedTwice (leaveDomain 0 listedTwice) = leaveDomain 0 listedTwice := moved_idle rfl ⟨rfl, rfl, rfl, rfl, rfl, rfl⟩
  have hnums := congrArg (fun t => t.pool.regions.map fun e => e.2.current) (hleaves.symm.trans (Host.Outcome.next.inj hleft))
  exact absurd hnums (by decide)

/-- Refutes O47: its last clause gives every entry under the region's key the number after the entry's own, the model the number after that of the first; in a table with two entries under one key (no sorted table has them, `regionFlushEnds_of_sorted`) the numbers differ. -/
theorem not_coherenceEvents : ¬ Obligations.CoherenceEvents :=
  fun h => not_regionFlushEnds (coherenceEvents_iff.1 h 0 listedTwice)

end Sys2Proof.Machine

/-! Tiers, clearing, slates and retraining: TIER.QUERY, PLACE.HINT, MEM.CLEAR, SLATE.GET and PORT.RETRAIN (R128, R129, R133, R329, R332, R364). -/

namespace Sys2Proof.Machine

section TierCommands

variable {q : QId} {d : Desc} {s s1 s2 : State} {c : CRef} {k : Nat} {r : Region}

/-- A command marked I that runs and whose field check gives a status completes with it. -/
theorem runI_fieldsRefused {rule : Rule} {st : Nat} (h : Runs rule q d s s1) (fields : Desc → Option Nat) (body : CRef → State → State) (hf : fields d = some st) :
    runI q d rule fields body s = complete (crefOf q d s1) st 0 0 s1 := by
  obtain ⟨hfetched, ⟨hh, hb, hi⟩, hs⟩ := h
  exact runI_refused hfetched fields body (by simp [hh, hb, hs, hi, hf, firstStatus])

/-! ### TIER.QUERY -/

/-- TIER.QUERY of a range that its tent may read writes the summary and answers the tiles below tier 0 and those that move (R133). -/
theorem bodyTierQuery_answers (hr : regionAt s (opf d 24 0 64) = some (k, r))
    (hrange : rangeCheck s k r (dtent d) (opf d 22 0 14) (opf d 24 0 64) (opf d 32 0 64) = none) :
    let ts := rangeTiles s r (viewFor s k r (opf d 22 0 14)) (opf d 24 0 64) (opf d 32 0 64)
    let moves := ts.filter fun x => s.pool.hints.any fun h => h.2.moves.any (·.tile = x.1)
    engWriteS (opf d 22 0 14) (dtent d) (opf d 40 0 64) (tierSummary (ts.map Prod.snd)) s = (true, s2) →
    bodyTierQuery d c s = complete c 0 0 (place moves.length 32 32 ||| (ts.filter fun x => x.2.tier != 0).length) s2 := by
  intro ts moves hwrite
  simp only [bodyTierQuery, hr, hrange]
  rw [hwrite]
  rfl

/-! ### PLACE.HINT -/

/-- What is left of the field check of PLACE.HINT where no field is at fault: the fuse of tier 3 (R445). -/
theorem fieldsPlaceHint_fuse (h : fieldsPlaceHint d ≠ some 0x0102) :
    fieldsPlaceHint d = if opf d 20 0 2 = 3 ∧ fused 12 = true then some stFeatureDisabled else none := by
  unfold fieldsPlaceHint at h ⊢
  dsimp only at h ⊢
  rw [if_neg fun hbad => h (if_pos hbad)]
  simp

/-- A range that passes the checks of R128 lies in its region. -/
theorem fits_of_rangeCheck {t src base size : Nat} (h : rangeCheck s k r t src base size = none) : ¬ r.base + r.size < base + size := by
  intro hover
  simp [rangeCheck, hover] at h

/-- The target tier of a hint is there for its tent, and its power is on (R128, Table 14.6). -/
def HintTarget (q : QId) (d : Desc) (s : State) : Prop :=
  opf d 20 0 2 = 0 ∨ ((opf d 20 0 2 = 1 ∨ opf d 20 0 2 = 2) ∧ (pdOff s 13 = false ∨ pdOff s 14 = false))
    ∨ (opf d 20 0 2 = 3 ∧ ¬(q = .operator ∧ tentSealed s (dtent d) = true)
      ∧ ∃ host n p, t3Pool s (opf d 21 0 4) = some (dtent d, host, n) ∧ edgePortOf s host = some p ∧ pdOff s (pdFabric p) = false)

theorem issuer_eq_none_iff (q : QId) : issuer q = none ↔ q = .operator := by cases q <;> simp [issuer]

/-- A hint's target that is there passes the checks of PLACE.HINT on it: the pool exists, is the tent's and not closed to the operator, and has power. -/
theorem HintTarget.admitted (h : HintTarget q d s) :
    (decide (opf d 20 0 2 = 3) && (t3Pool s (opf d 21 0 4)).isNone) = false
    ∧ (decide (opf d 20 0 2 = 3) && ((t3Pool s (opf d 21 0 4)).map Prod.fst != some (dtent d) || (decide (issuer q = none) && tentSealed s (dtent d)))) = false
    ∧ (((decide (opf d 20 0 2 = 1) || decide (opf d 20 0 2 = 2)) && pdOff s 13 && pdOff s 14)
      || (decide (opf d 20 0 2 = 3) && (edgePortOf s (((t3Pool s (opf d 21 0 4)).map (·.2.1)).getD 0)).any fun p => pdOff s (pdFabric p))) = false := by
  rcases h with h0 | ⟨hlower, hpower⟩ | ⟨h3, hsealed, host, n, p, hpool, hport, hpower⟩
  · simp [h0]
  · have h3 : opf d 20 0 2 ≠ 3 := by omega
    rcases hpower with hpower | hpower <;> simp [h3, hpower]
  · simpa [h3, hpool, hport, hpower, issuer_eq_none_iff] using hsealed

/-- PLACE.HINT that every check of R128 lets through takes its places, lists its moves and answers how many tiles stay and how many move. -/
theorem bodyPlaceHint_lists {h : Nat} {ps : List Place} (hr : regionAt s (opf d 24 0 64) = some (k, r))
    (hrange : rangeCheck s k r (dtent d) (opf d 22 0 14) (opf d 24 0 64) (opf d 32 0 64) = none) (hclap : clapOk s (issuer q) (opf d 16 0 32) = true)
    (hcoh : r.coherent = false) (htarget : HintTarget q d s) :
    let ts := rangeTiles s r (viewFor s k r (opf d 22 0 14)) (opf d 24 0 64) (opf d 32 0 64)
    let mv := ts.filter fun x => x.2.tier != opf d 20 0 2
    firstFree s.pool.hints 0 256 = some h → setAside k r (opf d 20 0 2) (opf d 21 0 4) mv.length s = some (ps, s2) →
    let x : Hint := { region := k, tent := dtent d, whole := opf d 20 2 1 = 1, clapper := clapName (opf d 16 0 32), owner := issuer q
                      moves := List.zipWith (fun m p => ⟨m.1, p, false⟩) mv ps
                      seq := s2.pool.hints.foldl (fun a e => max a (e.2.seq + 1)) 0 }
    bodyPlaceHint q d c s
      = endHint h (complete c 0 0 (place (ts.length - mv.length) 32 32 ||| mv.length) { s2 with pool := { s2.pool with hints := put s2.pool.hints h x } }) := by
  intro ts mv hfree haside
  obtain ⟨hpool, hopen, hpower⟩ := htarget.admitted
  simp only [bodyPlaceHint, hr, if_neg (fits_of_rangeCheck hrange), hpool, hclap, hrange, hcoh, hopen, hpower, hfree,
    Bool.not_true, Bool.or_self, Bool.false_eq_true, if_false]
  rw [haside]
  rfl

/-! ### MEM.CLEAR -/

/-- The region under its next key generation, with the next reel current (R329). -/
def rekeyed (r : Region) : Region :=
  { r with keyGen := r.keyGen + 1, current := nextReel r.current, reels := r.reels.map fun x => { x with num := nextReel r.current } }

/-- MEM.CLEAR of a region that nothing uses rekeys it and lists the tiles to clear (R329). -/
theorem bodyMemClear_rekeys (hr : region s (opf d 16 0 18) = some r) (hclap : clapOk s none (opf d 20 0 32) = true)
    (hh : ∀ h ∈ s.pool.handles, h.2.region ≠ opf d 16 0 18) (hwait : r.waiting = none) (hlive : liveCount r ≤ 1) :
    ∃ s2, bodyMemClear d c s = complete c 0 0 0 s2 ∧ region s2 (opf d 16 0 18) = some (rekeyed r)
      ∧ find s2.pool.clears (opf d 16 0 18) = some (granules r, clapName (opf d 20 0 32)) := by
  have hbusy : (s.pool.handles.any fun h => h.2.region = opf d 16 0 18) = false := List.any_eq_false.2 fun h hm => by simpa using hh h hm
  have hregion : region (updRegion (opf d 16 0 18) rekeyed (dropRegionBuffers r s)) (opf d 16 0 18) = some (rekeyed r) := region_updRegion_same rekeyed hr
  simp only [bodyMemClear, hr, hclap, hbusy, hwait, Nat.not_lt.2 hlive, Bool.not_true, Option.isSome_none, Bool.or_self, decide_false, Bool.false_eq_true, if_false]
  exact ⟨_, rfl, hregion, find_put_same ..⟩

/-! ### SLATE.GET -/

/-- SLATE.GET of the device on the operator queue signs the slate at a reading of the clock and writes it where the window has room (R332, R384). -/
theorem bodySlateGet_device {x : Tent} (ht : tent s (dtent d) = some x) (hx : x.state = .active) (hall : opf d 16 0 16 = 0xFFFF) :
    ∃ now, s.now ≤ now ∧
      (let s2 := { s with freeIx := s.freeIx + 1, now := now }
       let bs := Config.slate (deviceBlocks s ++ tentBlocks s2 (dtent d) x now) (opBytes d 24 32)
       bodySlateGet .operator d c s = if inWindow (opf d 56 0 64) bs.length then complete c 0 0 (bs.length % 2 ^ 32) (windowWrite (opf d 56 0 64) bs s2)
         else complete c 0x0201 0 0 s2) := by
  refine ⟨s.now + Config.free s.freeIx, Nat.le_add_right _ _, ?_⟩
  simp only [bodySlateGet, ht, hx, hall, bne_self_eq_false, Bool.false_eq_true, if_false, if_true, slateFinish, clock_eq]
  rfl

/-- SLATE.GET of a weight commitment lists the reel of the reader's handle to be hashed, which holds PD 24 (R332, Table 17.14). -/
theorem bodySlateGet_hashes {x : Tent} {y : Handle} (ht : tent s (dtent d) = some x) (hx : x.state = .active) (hone : opf d 16 0 16 ≠ 0xFFFF)
    (hy : find s.pool.handles (opf d 16 0 16) = some y) (hyt : y.tent = dtent d) (hyw : y.writer = false) (hr : region s y.region = some r)
    (hroom : x.weights.length + (s.kpr.hashing.filter (·.tent = dtent d)).length < 64) (hpd : pdOn s 24 = true) :
    bodySlateGet q d c s = updDomain 24 (fun z => { z with holds := z.holds ++ [.slate (dtent d)] }) { s with kpr := { s.kpr with
      hashing := s.kpr.hashing ++ [⟨c, dtent d, measure s y r, (match q with | .operator => none | .tent _ _ => (getQ s q).map (·.source)),
        opf d 56 0 64, opBytes d 24 32⟩] } } := by
  cases q <;> simp only [bodySlateGet, ht, hx, hone, hy, hyt, hyw, hr, Nat.not_le.2 hroom, hpd, bne_self_eq_false, Option.filter_some, decide_true,
    Bool.not_false, Bool.and_self, Bool.not_true, Bool.false_eq_true, if_false, if_true]

/-! ### PORT.RETRAIN -/

/-- PORT.RETRAIN of a port with power notes itself at the port, whose link retrains (R364). -/
theorem bodyPortRetrain_notes (hpd : pdOff s (pdFabric (opf d 16 0 5)) = false) :
    bodyPortRetrain d c s = holdDiff (noteRetrain (opf d 16 0 5) s) (updPort (opf d 16 0 5) (fun x => { x with
      maxRate := opf d 17 0 2, retrain := x.retrain ++ [c], link := if x.link = .l0 then .retrain else x.link }) (noteRetrain (opf d 16 0 5) s)) := by
  simp [bodyPortRetrain, hpd]

end TierCommands

/-- Settles O38: each command by its body. -/
theorem tierSlateAndRetrainResults : Obligations.TierSlateAndRetrainResults := by
  intro q d s s1 t src base size
  refine ⟨?query, ?hint, ?clear, ?device, ?weights, ?retrain⟩
  case query =>
    intro k r s2 hrun hf hr hrange ts moves hwrite
    exact congrArg Host.Outcome.next ((runI_runs hrun _ _ hf).trans (bodyTierQuery_answers hr hrange hwrite))
  case hint =>
    intro k r h ps s2 hrun hf hr hrange hclap hcoh htarget ts mv hfree haside x
    have hcheck := fieldsPlaceHint_fuse hf
    split
    · next hfuse =>
      rw [if_pos hfuse] at hcheck
      exact congrArg Host.Outcome.next (runI_fieldsRefused hrun _ _ hcheck)
    · next hfuse =>
      rw [if_neg hfuse] at hcheck
      exact congrArg Host.Outcome.next ((runI_runs hrun _ _ hcheck).trans (bodyPlaceHint_lists hr hrange hclap hcoh htarget hfree haside))
  case clear =>
    intro r hrun hf hr hclap hh hwait hlive
    obtain ⟨s2, hbody, hregion, hclears⟩ := bodyMemClear_rekeys (c := crefOf q d s1) hr hclap hh hwait hlive
    exact ⟨s2, rekeyed r, congrArg Host.Outcome.next ((runI_runs hrun _ _ hf).trans hbody), hregion, rfl, rfl, rfl, rfl, rfl, rfl, hclears⟩
  case device =>
    rintro x rfl hrun hf ht hx hall
    obtain ⟨now, hnow, hbody⟩ := bodySlateGet_device (c := crefOf .operator d s1) ht hx hall
    exact ⟨now, hnow, congrArg Host.Outcome.next ((runI_runs hrun _ _ hf).trans hbody)⟩
  case weights =>
    intro x y r hrun hf ht hx hone hy hyt hyw hr hroom hpd op
    exact congrArg Host.Outcome.next ((runI_runs hrun _ _ hf).trans (bodySlateGet_hashes ht hx hone hy hyt hyw hr hroom hpd))
  case retrain =>
    intro hrun hf hpd p s2
    exact congrArg Host.Outcome.next ((runI_runs hrun fieldsPortRetrain (fun c s => noteOver s (bodyPortRetrain d c s)) hf).trans
      (congrArg (noteOver s1) (bodyPortRetrain_notes hpd)))

end Sys2Proof.Machine

/-! Vector instructions: the registers that a ready cell retires with, the elements of a register, and the element-wise instructions (R191 to R194, R198, Table 9.6). -/

namespace Sys2Proof.Machine

section Retirement

variable {c : CellId} {s : State} {ok : Bool}

/-- An instruction on its own cell retires with the registers that it computes. -/
theorem runPure_done (h : Ready c s) (i : Instr) (f : Cell → Cell) (hp : ∀ x, (f x).pc = x.pc) (hi : ∀ x, (f x).instrs = x.instrs) :
    runPure c i (fun x => .done (f x)) s = retired c f s := by
  rw [runPure_ready h]
  exact applyOut_done _ _ f s hp hi

/-- A vector instruction whose tag and predicate are accepted is one on its own cell. -/
theorem runV_accepted (hok : ok = true) (i : Instr) (f : Cell → CellOut) : runV c i ok f s = runPure c i f s := by
  subst hok; rfl

/-- A tag or predicate that is not accepted raises ILLEGAL (R168). -/
theorem runV_refused (h : Ready c s) (hok : ok = false) (i : Instr) (f : Cell → CellOut) : runV c i ok f s = faulted c cIllegal (wordOf i) 0 0 s := by
  subst hok
  exact runPure_raise h i _ _ _ _ rfl

/-- A result for a vector register. -/
theorem runPure_vector (h : Ready c s) (i : Instr) (d : BitVec 4) (v : Cell → BitVec 256) :
    runPure c i (fun x => .done (x.wv d (v x))) s = retiredV c d v s := runPure_done h i _ (fun _ => rfl) (fun _ => rfl)

/-- A result for an accumulator. -/
theorem runPure_accum (h : Ready c s) (i : Instr) (d : BitVec 2) (a : Cell → Accum) :
    runPure c i (fun x => .done (x.wx d (a x))) s = retired c (fun x => x.wx d (a x)) s := runPure_done h i _ (fun _ => rfl) (fun _ => rfl)

/-- A vector instruction with a result for a vector register. -/
theorem runV_vector (h : Ready c s) (hok : ok = true) (i : Instr) (d : BitVec 4) (v : Cell → BitVec 256) :
    runV c i ok (fun x => .done (x.wv d (v x))) s = retiredV c d v s := by rw [runV_accepted hok, runPure_vector h]

/-- A vector instruction with a result for an accumulator. -/
theorem runV_accum (h : Ready c s) (hok : ok = true) (i : Instr) (d : BitVec 2) (a : Cell → Accum) :
    runV c i ok (fun x => .done (x.wx d (a x))) s = retired c (fun x => x.wx d (a x)) s := by rw [runV_accepted hok, runPure_accum h]

/-- A vector instruction with a result for a g register. -/
theorem runV_scalar (h : Ready c s) (hok : ok = true) (i : Instr) (d : BitVec 5) (v : Cell → U64) :
    runV c i ok (fun x => .done (x.wg d (v x))) s = retiredG c d v s := by rw [runV_accepted hok]; exact runG_ready h i d v

end Retirement

/-! ### Elements of a register (R191, R192) -/

section Elements

variable {w n k : Nat}

/-- The number whose digits in base `2 ^ w`, lowest first, are the elements cut to their width. -/
def packed (w : Nat) (es : List Nat) : Nat := es.foldr (fun e a => e % 2 ^ w + 2 ^ w * a) 0

theorem packed_cons (w e : Nat) (es : List Nat) : packed w (e :: es) = e % 2 ^ w + 2 ^ w * packed w es := rfl

/-- A register is its elements packed. -/
theorem vecOf_eq_packed (w : Nat) (es : List Nat) : vecOf w es = BitVec.ofNat 256 (packed w es) := rfl

/-- Packed elements take no more bits than their widths together. -/
theorem packed_lt (w : Nat) (es : List Nat) : packed w es < 2 ^ (w * es.length) := by
  induction es with
  | nil => exact Nat.two_pow_pos _
  | cons e es ih =>
    have hdigit : e % 2 ^ w < 2 ^ w := Nat.mod_lt _ (Nat.two_pow_pos w)
    rw [packed_cons, List.length_cons]
    calc e % 2 ^ w + 2 ^ w * packed w es < 2 ^ w + 2 ^ w * packed w es := Nat.add_lt_add_right hdigit _
      _ = 2 ^ w * (packed w es + 1) := by rw [Nat.mul_add, Nat.mul_one, Nat.add_comm]
      _ ≤ 2 ^ w * 2 ^ (w * es.length) := Nat.mul_le_mul_left _ ih
      _ = 2 ^ (w * (es.length + 1)) := by rw [← Nat.pow_add, Nat.mul_add, Nat.mul_one, Nat.add_comm]

/-- Bits `w * k` and up of packed elements begin with element k. -/
theorem packed_div_mod (w : Nat) (es : List Nat) (hk : k < es.length) : packed w es / 2 ^ (w * k) % 2 ^ w = es[k] % 2 ^ w := by
  induction es generalizing k with
  | nil => exact absurd hk (Nat.not_lt_zero k)
  | cons e es ih =>
    rw [packed_cons]
    cases k with
    | zero => rw [Nat.mul_zero, Nat.pow_zero, Nat.div_one, Nat.add_mul_mod_self_left, Nat.mod_mod, List.getElem_cons_zero]
    | succ k =>
      have hdigit : e % 2 ^ w < 2 ^ w := Nat.mod_lt _ (Nat.two_pow_pos w)
      have hpow : 2 ^ (w * (k + 1)) = 2 ^ w * 2 ^ (w * k) := by rw [← Nat.pow_add, Nat.mul_add, Nat.mul_one, Nat.add_comm]
      rw [hpow, ← Nat.div_div_eq_div_mul, Nat.add_mul_div_left _ _ (Nat.two_pow_pos w), Nat.div_eq_of_lt hdigit, Nat.zero_add]
      rw [ih (Nat.lt_of_succ_lt_succ hk), List.getElem_cons_succ]

/-- An element of a register reads as it was put there, cut to its width. -/
theorem elem_vecOf {es : List Nat} (hfit : w * es.length ≤ 256) (hk : k < es.length) : elem (vecOf w es) w k = es[k] % 2 ^ w := by
  have hlt : packed w es < 2 ^ 256 := Nat.lt_of_lt_of_le (packed_lt w es) (Nat.pow_le_pow_right (by decide) hfit)
  rw [elem, bits, vecOf_eq_packed, BitVec.toNat_ofNat, Nat.mod_eq_of_lt hlt, Nat.shiftRight_eq_div_pow, packed_div_mod w es hk]

/-- Reading an element cuts it to its width. -/
theorem elem_mod (v : BitVec 256) (w k : Nat) : elem v w k % 2 ^ w = elem v w k := Nat.mod_mod _ _

/-- A governed element takes its new value, cut to its width, and another keeps its old one (R192). -/
theorem elem_mapElems (hfit : w * n ≤ 256) (hk : k < n) (p : BitVec 32) (old : BitVec 256) (f : Nat → Nat) :
    elem (mapElems p w n old f) w k = if governed p w k then f k % 2 ^ w else elem old w k := by
  have hlen : ((List.range n).map fun k => if governed p w k then f k else elem old w k).length = n := by rw [List.length_map, List.length_range]
  rw [mapElems, elem_vecOf (hlen.symm ▸ hfit) (hlen.symm ▸ hk), List.getElem_map, List.getElem_range]
  split
  · rfl
  · exact elem_mod old w k

/-- The elements of every tag fit in a register (Table 9.1). -/
theorem tag_fits (t : BitVec 4) : tagBits t * tagCount t ≤ 256 := by
  revert t; decide

end Elements

/-! ### Element-wise instructions (R194, R198, Table 9.6) -/

section Elementwise

variable {c : CellId} {s : State} {ok : Bool} {t : BitVec 4} {f : FF}

/-- An integer tag has no floating format. -/
theorem tagFF_of_tagI (h : tagI t = true) : tagFF t = none := by
  revert t; decide

/-- On a floating tag the operation on values is rounded once; on an integer tag the one on integers wraps (R194). -/
theorem numOp_float (hf : tagFF t = some f) (g : FV → FV → FV) (h : Int → Int → Int) (a b : Nat) :
    numOp t g h a b = f.round (g (f.decode a) (f.decode b)) := by simp only [numOp, hf]

theorem numOp_int (hf : tagFF t = none) (g : FV → FV → FV) (h : Int → Int → Int) (a b : Nat) :
    numOp t g h a b = wrap (tagBits t) (h (sext (tagBits t) a) (sext (tagBits t) b)) := by simp only [numOp, hf]

/-- See `numOp_float`, for one element. -/
theorem numOp1_float (hf : tagFF t = some f) (g : FV → FV) (h : Int → Int) (a : Nat) : numOp1 t g h a = f.round (g (f.decode a)) := by
  simp only [numOp1, hf]

theorem numOp1_int (hf : tagFF t = none) (g : FV → FV) (h : Int → Int) (a : Nat) : numOp1 t g h a = wrap (tagBits t) (h (sext (tagBits t) a)) := by
  simp only [numOp1, hf]

/-- An element-wise instruction on an accepted tag writes `g` of the elements of vs1, vs2 and vd, where `g` is what its operation gives. -/
theorem runElem_ready (h : Ready c s) (hok : ok = true) {i : Instr} {vd a b : BitVec 4} {p : BitVec 3} {f g : Nat → Nat → Nat → Nat} (hfg : ∀ x y z, f x y z = g x y z) :
    runElem c i ok vd a b t p f s = retiredV c vd (fun x =>
      mapElems (x.rp p) (tagBits t) (tagCount t) (x.rv vd) fun k => g (elem (x.rv a) (tagBits t) k) (elem (x.rv b) (tagBits t) k) (elem (x.rv vd) (tagBits t) k)) s := by
  obtain rfl : f = g := funext fun x => funext fun y => funext fun z => hfg x y z
  exact runV_vector h hok i vd _

/-- See `runElem_ready`, for an operation of one source: it looks at no element of another register. -/
theorem runElem_unary (h : Ready c s) (hok : ok = true) {i : Instr} {vd a b : BitVec 4} {p : BitVec 3} {f g : Nat → Nat → Nat → Nat} (hfg : ∀ x y z u, f x y z = g x u z) :
    runElem c i ok vd a a t p f s = retiredV c vd (fun x =>
      mapElems (x.rp p) (tagBits t) (tagCount t) (x.rv vd) fun k => g (elem (x.rv a) (tagBits t) k) (elem (x.rv b) (tagBits t) k) (elem (x.rv vd) (tagBits t) k)) s := by
  rw [runElem_ready h hok fun _ _ _ => rfl]
  exact congrArg (retiredV c vd · s) (funext fun x => congrArg (mapElems _ _ _ _) (funext fun k => hfg _ _ _ _))

/-- vfma on a floating tag rounds the exact sum of its addend and its product once. -/
theorem execVfma_float (hf : tagFF t = some f) (vd a b : BitVec 4) (p : BitVec 3) :
    execVfma c vd a b t p s = .next (runElem c (.vfma c vd a b t p) (tagF t || tagI t) vd a b t p (fun x y z => f.round (sumFV [f.decode z, mulFV (f.decode x) (f.decode y)])) s) := by
  simp only [execVfma, hf]

/-- vfma on an integer tag wraps (R199). -/
theorem execVfma_int (hf : tagFF t = none) (vd a b : BitVec 4) (p : BitVec 3) :
    execVfma c vd a b t p s = .next (runElem c (.vfma c vd a b t p) (tagF t || tagI t) vd a b t p
      (fun x y z => wrap (tagBits t) (sext (tagBits t) z + sext (tagBits t) x * sext (tagBits t) y)) s) := by
  simp only [execVfma, hf]

/-- An arithmetic right shift divides by a power of 2, rounding down. -/
theorem sext_shiftRight (w x n : Nat) : sext w x >>> n = sext w x / 2 ^ n := by
  rw [Int.shiftRight_eq_div_pow, Int.natCast_pow]; rfl

end Elementwise

/-- Settles O12: each instruction is `runElem` of its operation on values or on integers; the last clause is `elem_mapElems` at the width of a tag. -/
theorem elementwiseResults : Obligations.ElementwiseResults := by
  refine ⟨fun c vd a b t p s h => ?results, fun p t old f k hk => elem_mapElems (tag_fits t) hk p old f⟩
  intro w each int
  have hBinary : ∀ {ok i f g}, ok = true → (∀ x y z, f x y z = g x y z) → (.next (runElem c i ok vd a b t p f s) : Res) = .next (each g) :=
    fun hok hfg => congrArg _ (runElem_ready h hok hfg)
  have hUnary : ∀ {ok i f g}, ok = true → (∀ x y z u, f x y z = g x u z) → (.next (runElem c i ok vd a a t p f s) : Res) = .next (each g) :=
    fun hok hfg => congrArg _ (runElem_unary h hok hfg)
  clear_value each
  refine ⟨fun f hf ht => ?float, fun ht => ?int⟩
  case float =>
    have hok : (tagF t || tagI t) = true := by simp [ht]
    intro flt
    refine ⟨hBinary hok ?vadd, hBinary hok ?vsub, hBinary hok ?vmul, (execVfma_float hf vd a b p).trans (hBinary hok ?vfma), hBinary hok ?vmin, hBinary hok ?vmax,
      hUnary hok ?vabs, hUnary hok ?vneg⟩
    case vadd | vsub | vmul | vmin | vmax => exact fun x y _ => numOp_float hf _ _ x y
    case vfma => exact fun _ _ _ => rfl
    case vabs | vneg => exact fun x _ _ _ => numOp1_float hf _ _ x
  case int =>
    have hok : (tagF t || tagI t) = true := by simp [ht]
    have hf := tagFF_of_tagI ht
    refine ⟨hBinary hok ?vadd, hBinary hok ?vsub, hBinary hok ?vmul, (execVfma_int hf vd a b p).trans (hBinary hok ?vfma), hBinary hok ?vmin, hBinary hok ?vmax,
      hUnary hok ?vabs, hUnary hok ?vneg, hBinary ht ?vand, hBinary ht ?vor, hBinary ht ?vxor, hBinary ht ?vshl, hBinary ht ?vshr, hBinary ht ?vsra⟩
    case vadd | vsub | vmul | vmin | vmax => exact fun x y _ => numOp_int hf _ _ x y
    case vfma | vand | vor | vxor => exact fun _ _ _ => rfl
    case vabs | vneg => exact fun x _ _ _ => numOp1_int hf _ _ x
    case vshl => exact fun x _ _ => Nat.shiftLeft_eq x _
    case vshr => exact fun x _ _ => Nat.shiftRight_eq_div_pow x _
    case vsra => exact fun x _ _ => congrArg (wrap _) (sext_shiftRight _ x _)

end Sys2Proof.Machine

/-! Vector functions, vmov, vsel and comparisons, dot products and conversions (R199 to R204). -/

namespace Sys2Proof.Machine

section Functions

variable {c : CellId} {s : State} {t : BitVec 4} {f : FF}

/-- A function of R200 on an accepted tag is taken of each governed element and rounded once. -/
theorem runFn_ready (h : Ready c s) (ht : tagFn t = true) (hf : tagFF t = some f) (i : Instr) (vd a : BitVec 4) (p : BitVec 3) (g : FV → FV) :
    runFn c i vd a t p g s = retiredV c vd (fun x =>
      mapElems (x.rp p) (tagBits t) (tagCount t) (x.rv vd) fun k => f.round (g (f.decode (elem (x.rv a) (tagBits t) k)))) s :=
  runElem_ready (g := fun x _ _ => f.round (g (f.decode x))) h ht fun x _ _ => numOp1_float hf g id x

/-- Elements of 32 bits are governed by every fourth bit of a predicate. -/
theorem mapElems_words (p : BitVec 32) (old : BitVec 256) (f : Nat → Nat) :
    mapElems p 32 8 old f = vecOf 32 ((List.range 8).map fun k => if p.getLsbD (4 * k) then f k else elem old 32 k) := by
  have hlane (k : Nat) : 32 * k / 8 = 4 * k := by omega
  simp only [mapElems, governed, hlane]

/-- vmov moves the governed words of its source, whatever they hold. -/
theorem execVmov_ready (h : Ready c s) (vd a : BitVec 4) (p : BitVec 3) :
    execVmov c vd a p s = .next (retiredV c vd (fun x => mapElems (x.rp p) 32 8 (x.rv vd) fun k => elem (x.rv a) 32 k) s) :=
  congrArg _ (runElem_ready (t := 0) h rfl fun _ _ _ => rfl)

end Functions

section Compare

variable {c : CellId} {s : State} {t : BitVec 4} {f : FF}

/-- A vector instruction with a result for a predicate. -/
theorem runV_predicate {ok : Bool} (h : Ready c s) (hok : ok = true) (i : Instr) (d : BitVec 3) (v : Cell → BitVec 32) :
    runV c i ok (fun x => .done (x.wp d (v x))) s = retiredP c d v s := by rw [runV_accepted hok]; exact runP_ready h i d v

variable (h : Ready c s) (i : Instr) (pd : BitVec 3) (a b : BitVec 4) (p : BitVec 3) (g : FV → FV → Bool) (k : Int → Int → Bool)

include h

/-- A comparison on a floating tag compares the values of the elements (R199). -/
theorem runCompare_float (ht : tagF t = true) (hf : tagFF t = some f) :
    runCompare c i pd a b t p g k s = retiredP c pd (fun x => predElems (x.rp p) (tagBits t) (tagCount t) fun j =>
      g (f.decode (elem (x.rv a) (tagBits t) j)) (f.decode (elem (x.rv b) (tagBits t) j))) s := by
  have hok : (tagF t || tagI t) = true := by simp [ht]
  simp only [runCompare, hf]
  exact runV_predicate h hok i pd _

/-- A comparison on an integer tag compares the elements as signed integers. -/
theorem runCompare_int (ht : tagI t = true) :
    runCompare c i pd a b t p g k s = retiredP c pd (fun x => predElems (x.rp p) (tagBits t) (tagCount t) fun j =>
      k (sext (tagBits t) (elem (x.rv a) (tagBits t) j)) (sext (tagBits t) (elem (x.rv b) (tagBits t) j))) s := by
  have hok : (tagF t || tagI t) = true := by simp [ht]
  simp only [runCompare, tagFF_of_tagI ht]
  exact runV_predicate h hok i pd _

end Compare

/-- Settles O13: the functions through `runFn_ready`, the comparisons through `runCompare_float` and `runCompare_int`. -/
theorem compareSelectFunctionResults : Obligations.CompareSelectFunctionResults := by
  intro c vd a b t q p s h w
  refine ⟨fun f hf ht => ?functions, ?vmov, fun hok => ?vsel, fun f hf ht => ?float, fun ht => ?int⟩
  case functions =>
    intro each
    have hFn (i : Instr) (g : FV → FV) : (.next (runFn c i vd a t p g s) : Res) = .next (each g) := congrArg _ (runFn_ready h ht hf i vd a p g)
    exact ⟨hFn _ exp2FV, hFn _ log2FV, hFn _ rcpFV, hFn _ rsqrtFV, hFn _ sqrtFV⟩
  case vmov =>
    refine (execVmov_ready h vd a p).trans ?_
    simp only [mapElems_words]
  case vsel => exact congrArg _ (runV_vector h hok _ vd _)
  case float =>
    intro holds
    have hCompare (i : Instr) (g : FV → FV → Bool) (k : Int → Int → Bool) : (.next (runCompare c i q a b t p g k s) : Res) = .next (holds g) :=
      congrArg _ (runCompare_float h i q a b p g k ht hf)
    exact ⟨hCompare _ eqFV _, hCompare _ ltFV _, hCompare _ (fun x y => ltFV x y || eqFV x y) _⟩
  case int =>
    intro holds
    have hCompare (i : Instr) (g : FV → FV → Bool) (k : Int → Int → Bool) : (.next (runCompare c i q a b t p g k s) : Res) = .next (holds k) :=
      congrArg _ (runCompare_int h i q a b p g k ht)
    exact ⟨hCompare _ _ fun x y => decide (x = y), hCompare _ _ fun x y => decide (x < y), hCompare _ _ fun x y => decide (x ≤ y)⟩

section LocalLoads

variable {c : CellId} {s : State}

/-- An instruction that loads retires with the registers that it computes from the bytes it read. -/
theorem runCell_load (h : Ready c s) (i : Instr) {addr : Cell → Nat} {len : Nat} {l : Loc} (hl : Loadable s c (addr (cellOf s (cellNum c))) len l) (f : List Byte → Cell → Cell)
    (hp : ∀ bs x, (f bs x).pc = x.pc) (hi : ∀ bs x, (f bs x).instrs = x.instrs) :
    runCell c i (fun x s => loadThen (cellNum c) (addr x) len len (fun bs => .done (f bs x)) s) s = retired c (f (locRead s (cellNum c) l len)) s := by
  rw [runCell_ready h]
  simp only [loadThen_ok hl]
  exact applyOut_done _ _ (f _) s (hp _) (hi _)

end LocalLoads

section DotProducts

variable {c : CellId} {s : State} {t : BitVec 4} {p : BitVec 3}

/-- A dot product with a memory operand on an accepted tag takes its first operand from the 32 bytes at its address register (R202). -/
theorem runDotM_ready (h : Ready c s) (hok : dotOk t p = true) (i : Instr) (vd n b : BitVec 4) (inc : Bool) {l : Loc}
    (hl : Loadable s c ((cellOf s (cellNum c)).rg (n.setWidth 5)).toNat 32 l) :
    runDotM c i vd n b t p inc s = retired c (fun y =>
      let z := y.wv vd (dotResult t (y.rp p) (BitVec.ofNat 256 (leNat (locRead s (cellNum c) l 32))) (y.rv b) (y.rv vd))
      if inc then z.wg (n.setWidth 5) (y.rg (n.setWidth 5) + 32) else z) s := by
  simp only [runDotM, hok, Bool.not_true, Bool.false_eq_true, if_false]
  exact runCell_load h i (addr := fun x => (x.rg (n.setWidth 5)).toNat) hl _ (by cases inc <;> simp) (by cases inc <;> simp)

/-- A dot product with a memory operand on a tag or predicate that it does not accept raises ILLEGAL before it reads memory. -/
theorem runDotM_refused (h : Ready c s) (hok : dotOk t p = false) (i : Instr) (vd n b : BitVec 4) (inc : Bool) :
    runDotM c i vd n b t p inc s = faulted c cIllegal (wordOf i) 0 0 s := by
  simp only [runDotM, hok, Bool.not_false, if_true]
  exact runPure_raise h i (fun _ => .raise cIllegal 0 0) cIllegal 0 0 rfl

/-- Adding the values of a function one after the other adds their sum. -/
theorem foldl_add_eq_sum (g : Nat → Int) (v : Int) (ks : List Nat) : ks.foldl (fun v k => v + g k) v = v + (ks.map g).sum := by
  induction ks generalizing v with
  | nil => simp
  | cons k ks ih => rw [List.foldl_cons, ih, List.map_cons, List.sum_cons, Int.add_assoc]

/-- Lane i of a dot product: the wrapped sum of the lane and its products for .i8 and .i4, and the fp32 rounding of their exact sum for the other tags (R201). -/
theorem dotLane_eq (t : BitVec 4) (q : BitVec 32) (a b : BitVec 256) (old i : Nat) :
    dotLane t q a b old i
      = if t = 5 ∨ t = 6 then
          wrap 32 (sext 32 old + ((List.range (tagCount t / 8)).map fun j =>
            sext (tagBits t) (elem a (tagBits t) (tagCount t / 8 * i + j)) * sext (tagBits t) (elem b (tagBits t) (tagCount t / 8 * i + j))).sum)
        else FF.f32.round (sumFV (FF.f32.decode old :: (List.range (tagCount t / 8)).map fun j =>
            mulFV (elemValue t q 0 a (tagCount t / 8 * i + j)) (elemValue t q 1 b (tagCount t / 8 * i + j)))) := by
  have hint : (t = 0x5 || t = 0x6) = true ↔ t = 5 ∨ t = 6 := by simp
  simp only [dotLane, hint]
  split
  · rw [foldl_add_eq_sum, List.map_map]; rfl
  · rw [List.map_map]; rfl

end DotProducts

/-- Settles O14: the products with a memory operand through `runDotM_ready`, and the lane through `dotLane_eq`. -/
theorem dotProductAndConversionResults : Obligations.DotProductAndConversionResults := by
  refine ⟨fun c vd a b t x p op s h => ⟨fun hok => ⟨?vdot, fun l hl => ⟨?vdotm, ?vdotmPlus⟩⟩, fun hok => ⟨?vdotRefused, ?vdotmRefused, ?vdotmPlusRefused⟩, fun hok => ?vcvt, fun hok => ?vcvtRefused⟩,
    fun t q a b old i _ => dotLane_eq t q a b old i⟩
  case vdot => exact congrArg _ (runV_vector h hok _ vd _)
  case vdotm => exact congrArg _ (runDotM_ready h hok _ vd a b false hl)
  case vdotmPlus => exact congrArg _ (runDotM_ready h hok _ vd a b true hl)
  case vdotRefused => exact congrArg _ (runV_refused h hok _ _)
  case vdotmRefused => exact congrArg _ (runDotM_refused h hok _ vd a b false)
  case vdotmPlusRefused => exact congrArg _ (runDotM_refused h hok _ vd a b true)
  case vcvt => exact congrArg _ (runV_vector h hok _ vd _)
  case vcvtRefused => exact congrArg _ (runV_refused h hok _ _)

end Sys2Proof.Machine

/-! Reductions, permutations, moves between register files, and vector loads and stores with their memory frame (R205 to R207). -/

namespace Sys2Proof.Machine

section Reductions

variable {c : CellId} {s : State} {t : BitVec 4} {ok : Bool}

/-- A register with one element given holds it, cut to its width, and zeros above. -/
theorem vecOf_singleton (w e : Nat) : vecOf w [e] = BitVec.ofNat 256 (e % 2 ^ w) := by simp [vecOf]

/-- A reduction on an accepted tag writes element 0 and zeroes the others (R205). -/
theorem runReduce_ready (h : Ready c s) (hok : ok = true) (i : Instr) (vd a : BitVec 4) (p : BitVec 3) (f : List (Option Nat) → Nat) :
    runReduce c i ok vd a t p f s = retiredV c vd (fun x => BitVec.ofNat 256 (f ((List.range (tagCount t)).map fun k =>
      if governed (x.rp p) (tagBits t) k then some (elem (x.rv a) (tagBits t) k) else none) % 2 ^ tagBits t)) s := by
  rw [runReduce, runV_vector h hok]
  simp only [vecOf_singleton]

end Reductions

/-! ### Addresses and local memory -/

section LocalMemory

variable {c : CellId} {s : State} {n a len : Nat} {l : Loc}

/-- The scaled offset of a vector access, as an integer (R207). -/
theorem vecAddr_eq (x : Cell) (b : BitVec 5) (off : BitVec 12) (k : Nat) : vecAddr x b off (BitVec.ofNat 64 k) = (x.rg b + BitVec.ofInt 64 (off.toInt * k)).toNat := by
  rw [BitVec.ofInt_mul, BitVec.ofInt_natCast]; rfl

/-- The address of vld and vst (Table 9.9). -/
theorem vecAddr_vector (x : Cell) (b : BitVec 5) (off : BitVec 12) : vecAddr x b off 32 = (x.rg b + BitVec.ofInt 64 (off.toInt * 32)).toNat := vecAddr_eq x b off 32

/-- The address of xld and xst (Table 9.9). -/
theorem vecAddr_record (x : Cell) (b : BitVec 5) (off : BitVec 12) : vecAddr x b off 64 = (x.rg b + BitVec.ofInt 64 (off.toInt * 64)).toNat := vecAddr_eq x b off 64

/-- A range of local memory lies wholly in scratch or wholly in crew memory (Table 8.1). -/
theorem locOf_cases (h : locOf a len = some l) : (l = .scratch a ∧ a + len ≤ 0x10000) ∨ (l = .crew (a - crewBase) ∧ crewBase ≤ a ∧ a + len ≤ crewBase + crewBytes) := by
  unfold locOf at h
  split at h
  · next hs => exact .inl ⟨(Option.some.inj h).symm, hs⟩
  · split at h
    · next hc => exact .inr ⟨(Option.some.inj h).symm, by simpa using hc⟩
    · cases h

/-- A byte of the range that a store writes reads as it was stored. -/
theorem locByte_locWrite_inside {bs : List Byte} (hl : locOf a bs.length = some l) {k : Nat} (hk : k < bs.length) : locByte (locWrite n l bs s) n (a + k) = some bs[k] := by
  rcases locOf_cases hl with ⟨rfl, hle⟩ | ⟨rfl, hlo, hhi⟩
  · simp [locByte, locWrite, show a + k < 0x10000 by omega, byteAt_writeBytes_inside _ _ _ _ hk]
  · have hbase : 0x10000 ≤ crewBase := by decide
    simp [locByte, locWrite, show ¬ a + k < 0x10000 by omega, show crewBase ≤ a + k by omega, show a + k < crewBase + crewBytes by omega,
      show a + k - crewBase = a - crewBase + k by omega, byteAt_writeBytes_inside _ _ _ _ hk]

/-- A byte outside the range that a store writes reads as before. -/
theorem locByte_locWrite_outside {bs : List Byte} (hl : locOf a bs.length = some l) {j : Nat} (hj : j < a ∨ a + bs.length ≤ j) :
    locByte (locWrite n l bs s) n j = locByte s n j := by
  rcases locOf_cases hl with ⟨rfl, hle⟩ | ⟨rfl, hlo, hhi⟩
  · simp [locByte, locWrite, byteAt_writeBytes_outside _ _ hj]
  · by_cases hc : crewBase ≤ j
    · simp [locByte, locWrite, byteAt_writeBytes_outside bs (crewOf s (n / 32)).mem (a := a - crewBase) (j := j - crewBase) (by omega)]
    · simp [locByte, locWrite, hc]

/-- A store changes nothing of its cell but scratch memory. -/
theorem cellOf_locWrite_same (n : Nat) (l : Loc) (bs : List Byte) (s : State) : ∃ m, cellOf (locWrite n l bs s) n = { cellOf s n with scratch := m } := by
  cases l with
  | scratch o => exact ⟨_, cellOf_updCell_same ..⟩
  | crew o => exact ⟨_, rfl⟩

/-- A store changes no other cell. -/
theorem cellOf_locWrite_other {m : Nat} (l : Loc) (bs : List Byte) (s : State) (h : m ≠ n) : cellOf (locWrite n l bs s) m = cellOf s m := by
  cases l with
  | scratch o => exact cellOf_updCell_other _ s h
  | crew o => rfl

/-- A store changes no other crew than that of its cell. -/
theorem crewOf_locWrite_other {k : Nat} (l : Loc) (bs : List Byte) (s : State) (h : k ≠ n / 32) : crewOf (locWrite n l bs s) k = crewOf s k := by
  cases l with
  | scratch o => rfl
  | crew o => exact crewOf_updCrew_other _ s h

/-- A store and its retirement change nothing outside the crews and cells. -/
theorem retired_locWrite_rest (c : CellId) (l : Loc) (bs : List Byte) (s : State) : { retired c id (locWrite n l bs s) with crw := s.crw } = s := by
  cases l <;> rfl

/-- Retirement alone leaves the memory that a cell sees. -/
theorem locByte_retired (c : CellId) (s : State) (j : Nat) : locByte (retired c id s) (cellNum c) j = locByte s (cellNum c) j := by
  simp [locByte, retired]

/-- A store's outcome hands on the memory just written, so that applying it is retirement alone. -/
theorem applyOut_store (n w : Nat) (l : Loc) (bs : List Byte) (s : State) :
    applyOut n w (.done { cellOf s n with scratch := (cellOf (locWrite n l bs s) n).scratch, marks := (cellOf (locWrite n l bs s) n).marks }) (locWrite n l bs s)
      = updCell n (fun x => { x with pc := x.pc + 4, instrs := x.instrs + 1 }) (locWrite n l bs s) := by
  obtain ⟨m, hm⟩ := cellOf_locWrite_same n l bs s
  simp [applyOut, updCell, Cell.next, hm]

/-- An instruction that stores retires in the state with its bytes written. -/
theorem runCell_store (h : Ready c s) (i : Instr) {addr : Cell → Nat} {bytes : Cell → List Byte} (hlen : (bytes (cellOf s (cellNum c))).length = len)
    (hl : Storable s c (addr (cellOf s (cellNum c))) len l) :
    runCell c i (fun x s => storeThen (cellNum c) (addr x) len (bytes x) x s) s = retired c id (locWrite (cellNum c) l (bytes (cellOf s (cellNum c))) s) := by
  rw [runCell_ready h]
  simp only [storeThen, hlen, storeCheck_ok hl]
  exact applyOut_store _ _ l _ s

/-- The record that xst writes: VALUE, COUNT and FLAGS, then KIND 0 and reserved bytes 0 (R207, Table 9.11). -/
theorem accBytes_sum (a : Accum) : accBytes a 0 = leBytes 40 a.value.toNat ++ leBytes 4 a.count.toNat ++ leBytes 1 a.flags.toNat ++ List.replicate 19 0 := by
  simp [accBytes, leBytes, List.replicate_succ]

end LocalMemory

/-- Settles O15: reductions through `runReduce_ready`, loads through `runCell_load`, stores through `runCell_store` and the rules of `locWrite`. -/
theorem reductionMoveAndVectorMemoryResults : Obligations.ReductionMoveAndVectorMemoryResults := by
  refine ⟨fun c vd a b t d g k p s h => ?registers, fun c v y b o s h => ?memory⟩
  case registers =>
    intro w red
    have hReduce {ok} (i : Instr) (hok : ok = true) (f : List (Option Nat) → Nat) : (.next (runReduce c i ok vd a t p f s) : Res) = .next (red f) :=
      congrArg _ (runReduce_ready h hok i vd a p f)
    exact ⟨fun hok => ⟨hReduce _ hok _, hReduce _ hok _, hReduce _ hok _⟩, fun hok => hReduce _ hok _,
      congrArg _ (runV_vector h rfl _ vd _), congrArg _ (runPure_vector h _ vd _), congrArg _ (runG_ready h _ d _),
      fun hok => congrArg _ (runV_vector h hok _ vd _), fun hok => congrArg _ (runV_scalar h hok _ d _)⟩
  case memory =>
    intro n x a e
    have ha : vecAddr x b o 32 = a := vecAddr_vector x b o
    have he : vecAddr x b o 64 = e := vecAddr_record x b o
    refine ⟨fun l hl => ?vld, fun l hl => ?xld, fun i ad bs hi l hl => ?store⟩
    case vld => exact congrArg _ (runCell_load h _ (addr := fun x => vecAddr x b o 32) (ha ▸ hl) (fun bs x => x.wv v (BitVec.ofNat 256 (leNat bs))) (fun _ _ => rfl) (fun _ _ => rfl))
    case xld => exact congrArg _ (runCell_load h _ (addr := fun x => vecAddr x b o 64) (he ▸ hl) (fun bs x => x.wx y (accOf bs)) (fun _ _ => rfl) (fun _ _ => rfl))
    case store =>
      have hexec : exec i s = .next (retired c id (locWrite n l bs s)) := by
        simp only [List.mem_cons, Prod.mk.injEq, List.not_mem_nil, or_false] at hi
        rcases hi with ⟨rfl, rfl, rfl⟩ | ⟨rfl, rfl, rfl⟩
        · have hl : Storable s c (vecAddr x b o 32) 32 l := by rw [ha]; simpa using hl
          exact congrArg _ (runCell_store h _ (addr := fun x => vecAddr x b o 32) (bytes := fun x => leBytes 32 (x.rv v).toNat) (leBytes_length ..) hl)
        · have hl : Storable s c (vecAddr x b o 64) 64 l := by rw [he]; simpa using hl
          rw [← accBytes_sum]
          exact congrArg _ (runCell_store h _ (addr := fun x => vecAddr x b o 64) (bytes := fun x => accBytes (x.rx y) 0) (by simp [accBytes]) hl)
      obtain ⟨-, hloc, -, -⟩ := hl
      obtain ⟨scratch, hscratch⟩ := cellOf_locWrite_same n l bs s
      have hcell : cellOf (retired c id (locWrite n l bs s)) n = { x with scratch := scratch, pc := x.pc + 4, instrs := x.instrs + 1 } := by
        rw [retired, cellOf_updCell_same, hscratch]; rfl
      refine ⟨_, hexec, fun k hk => ?_, fun j hj => ?_, fun m hm => ?_, fun k hk => crewOf_locWrite_other l bs s hk, ?_, ?_, ?_, ?_, ?_, retired_locWrite_rest c l bs s⟩
      · rw [locByte_retired, locByte_locWrite_inside hloc hk]
      · rw [locByte_retired, locByte_locWrite_outside hloc hj]
      · rw [retired, cellOf_updCell_other _ _ hm, cellOf_locWrite_other l bs s hm]
      all_goals rw [hcell]

end Sys2Proof.Machine

/-! The exact accumulators: absorbing an addend, merging, reading out, and the instructions on them (R209 to R212, Table 9.12). -/

namespace Sys2Proof.Machine

section Accumulators

variable {c : CellId} {s : State} {t : BitVec 4} {f : FF}

/-- A signed mantissa is its sign times its magnitude. -/
theorem sgn_eq_mul (neg : Bool) (m : Nat) : sgn neg m = (if neg then -1 else 1) * (m : Int) := by
  cases neg <;> simp [sgn]

/-- COUNT saturates and OVF is set past 2^31, whatever VALUE holds (R210). -/
theorem accCount_eq (a : Accum) (n : Nat) :
    accCount a n = ⟨a.value, BitVec.ofNat 32 (min (a.count.toNat + n) (2 ^ 32 - 1)),
      if 2 ^ 31 < min (a.count.toNat + n) (2 ^ 32 - 1) then a.flags ||| flOvf else a.flags⟩ := rfl

/-- A readout on an accepted tag is an instruction that reads its accumulator's record (R212). -/
theorem execXrd_accepted (h : Ready c s) (ht : tagXrd t = true) (hf : tagFF t = some f) (d : BitVec 5) (xs : BitVec 2) :
    execXrd c d xs t s = .next (if ((cellOf s (cellNum c)).rx xs).has flPoison
      then faulted c cPoison (wordOf (.xrd c d xs t)) (Config.free s.freeIx % 2 ^ 64) 0 { s with freeIx := s.freeIx + 1 }
      else retiredG c d (fun x => BitVec.ofNat 64 (accRead (x.rx xs) f)) s) := by
  rw [execXrd, runCell_ready h]
  simp only [ht, hf]
  split
  · rfl
  · exact congrArg _ (applyOut_done _ _ (fun x => x.wg d (BitVec.ofNat 64 (accRead (x.rx xs) f))) s (by simp) (by simp))

end Accumulators

/-- Settles O17: xrd through `execXrd_accepted`, the others through the rule of their result. -/
theorem accumulatorResults : Obligations.AccumulatorResults := by
  intro c xd xs a t d p s h
  refine ⟨?xclr, fun ht => ⟨?xadd, ?xsub⟩, ?xmrg, ?xflg, fun f ht hf hp => ?value, fun f ht hf hp => ?poison⟩
  case xclr => exact congrArg _ (runPure_accum h _ xd _)
  case xadd | xsub => exact congrArg _ (runV_accum h ht _ xd _)
  case xmrg => exact congrArg _ (runPure_accum h _ xd _)
  case xflg => exact congrArg _ (runG_ready h _ d _)
  case value => exact (execXrd_accepted h ht hf d xs).trans (congrArg _ (if_neg (by simp [hp])))
  case poison => exact ⟨_, (execXrd_accepted h ht hf d xs).trans (congrArg _ (if_pos hp))⟩

/-- Settles O18: `accCount` under each kind of addend and under a merge; the readout is the order of Table 9.12. -/
theorem accumulatorAlgebra : Obligations.AccumulatorAlgebra := by
  intro a b neg m e up sat
  refine ⟨?finite, ?nan, ?infinity, ?merge, ?readout⟩
  case finite => rw [accAdd, accCount_eq, sgn_eq_mul]
  case nan => rfl
  case infinity => rfl
  case merge => exact accCount_eq ..
  case readout => rfl

end Sys2Proof.Machine

/-! Collective windows: COLL.OPEN, COLL.CLOSE and COLL.REPORT, the FP64 tree, the end of a filter's scan, timeouts and the decode kernel (R222 to R224, R234, R237, R238, R241, R243, R255, R263). -/

namespace Sys2Proof.Machine

section Collectives

variable {q : QId} {d : Desc} {c : CRef} {s s1 s2 s3 : State} {p : EngRead} {l : Lists} {x : Window} {w : Nat}

/-! ### COLL.OPEN -/

/-- What is left of the field check of COLL.OPEN where no field is at fault: the fuse of FILTER windows (R445). -/
theorem fieldsCollOpen_fuse (h : fieldsCollOpen d ≠ some 0x0102) :
    fieldsCollOpen d = if opf d 18 0 3 = 6 ∧ fused 4 = true then some stFeatureDisabled else none := by
  unfold fieldsCollOpen at h ⊢
  rw [if_neg fun hbad => h (if_pos hbad)]
  simp

/-- COLL.OPEN that runs, with no field at fault, is refused by the fuse of FILTER windows, or does what its body says once its lines are there. -/
theorem exec_collOpen (hrun : Runs anyRule q d s s1) (hcheck : fieldsCollOpen d ≠ some 0x0102) :
    exec (.collOpen q d) s = .next (if opf d 18 0 3 = 6 ∧ fused 4 = true then complete (crefOf q d s1) stFeatureDisabled 0 0 s1
      else held s s1 (bodyCollOpen d (crefOf q d s1) s1)) := by
  have hfields := fieldsCollOpen_fuse hcheck
  refine congrArg Host.Outcome.next ?_
  split
  · next hfuse => exact runI_fieldsRefused hrun _ _ (hfields.trans (if_pos hfuse))
  · next hfuse => exact runI_orLater hrun _ _ (hfields.trans (if_neg hfuse))

/-- The kinds whose result is multicast take a replication buffer (R233). -/
abbrev Multicasts (d : Desc) : Prop := opf d 18 0 3 = 1 ∨ opf d 18 0 3 = 4

/-- Records that a window binds in each of its crews (R222). -/
def boundRecords (d : Desc) (bs : List Byte) : Nat :=
  if opf d 18 0 3 ≤ 2 then recordsOf (fieldAt bs 8 4) (winSize (fieldAt bs 1 1)) (setBits 128 (fieldAt bs 16 16)).length else 0

/-- The window that COLL.OPEN makes of a parameter block and its lists, with a replication buffer, at a reading of the clock (Tables 10.3, 10.4 and 10.12). -/
def openedWindow (d : Desc) (bs : List Byte) (l : Lists) (b : Option Nat) (now : Nat) : Window where
  tent := d.tent.toNat
  kind := opf d 18 0 3
  source := opf d 20 0 14
  clapper := clapName (opf d 24 0 32)
  timeout := opf d 28 0 32
  op := fieldAt bs 0 1
  inFmt := fieldAt bs 1 1
  outFmt := fieldAt bs 2 1
  count := fieldAt bs 8 4
  lateNs := fieldAt bs 12 4
  crews := setBits 128 (fieldAt bs 16 16)
  areaBase := fieldAt bs 32 4
  records := boundRecords d bs
  dataAddr := fieldAt bs 48 8
  members := (membersOf ((l.members.map (·.data)).getD []) (fieldAt bs 4 2)).map fun n => { node := n }
  dests := (List.range (fieldAt bs 6 1)).map fun i =>
    { addr := fieldAt bs (64 + 8 * i) 8, notify := if fieldAt bs (224 + 8 * i) 8 = 2 ^ 64 - 1 then none else some (fieldAt bs (224 + 8 * i) 8) }
  buffer := b
  filter := if opf d 18 0 3 = 6 then some (filterOf bs l) else none
  state := if opf d 18 0 3 = 6 then .completing else .open
  start := now

/-- The window is in its slot, and its records, all empty, are reserved in the areas of its crews (R222, R224). -/
def withWindow (d : Desc) (bs : List Byte) (x : Window) (s : State) : State :=
  emptyRecords x ((setBits 128 (fieldAt bs 16 16)).foldl
    (fun s k => updCrew k (fun y => { y with area := some ⟨fieldAt bs 32 4, boundRecords d bs, opf d 16 0 12⟩ }) s) { s with win := put s.win (opf d 16 0 12) x })

/-- A parameter block and its lists that SOURCE read pass the checks of their fields (steps 2 and 3 of R223). -/
structure BlockRead (d : Desc) (p : EngRead) (l : Lists) (s1 s2 s3 : State) : Prop where
  block : engRead (opf d 20 0 14) d.tent.toNat (opf d 32 0 64) 512 s1 = (some p, s2)
  clean : p.poison = false
  params : paramBad p.data (opf d 18 0 3) = false
  lists : readLists p.data (opf d 18 0 3) (opf d 20 0 14) d.tent.toNat s2 = (l, s3)
  listsGood : listsBad p.data l = false

/-- What a window names is there, its tent's and free, and there is room for it (steps 4 to 10 of R223). -/
structure WindowFits (d : Desc) (bs : List Byte) (l : Lists) (s : State) : Prop where
  lengths : lengthBad bs (opf d 18 0 3) = false
  clapper : clapOk s (some d.tent.toNat) (opf d 24 0 32) = true
  ranges : rangesOk s bs (opf d 18 0 3) (opf d 20 0 14) d.tent.toNat l = true
  slotFree : window s (opf d 16 0 12) = none
  crews : ∀ k ∈ setBits 128 (fieldAt bs 16 16), assigned s k = some d.tent.toNat ∧ pdOff s (pdCrew k) = false ∧ (crewOf s k).area = none
  areaRoom : fieldAt bs 32 4 + 64 * boundRecords d bs ≤ 2097152
  memberRoom : memberSlots s + fieldAt bs 4 2 ≤ 262144
  bloomRoom : bloomBytes s + l.blooms.foldl (fun a b => a + 2 ^ (bloomAt bs b.1).2.1 / 8) 0 ≤ 16777216
  buffer : Multicasts d → ∃ i, i < 64 ∧ claimed s 4 i = false ∧ bufferHeld s i = false

/-- What COLL.OPEN draws: a free buffer for a multicast, else nothing. -/
def drawnBuffer (d : Desc) (s : State) : Option (Option Nat × State) :=
  if opf d 18 0 3 = 1 || opf d 18 0 3 = 4 then (drawFree (fun i => !claimed s 4 i && !bufferHeld s i) 0 64 s).map fun b => (some b.1, b.2)
  else some (none, s)

/-- A drawn buffer: a free one for a multicast, none for the other kinds (R224). -/
def DrawnFree (d : Desc) (s : State) (b : Option Nat) : Prop :=
  (Multicasts d → ∃ i, b = some i ∧ i < 64 ∧ claimed s 4 i = false ∧ bufferHeld s i = false) ∧ (¬Multicasts d → b = none)

/-- Where a multicast finds a free buffer, the draw gives one. -/
theorem drawnBuffer_some (h : Multicasts d → ∃ i, i < 64 ∧ claimed s 4 i = false ∧ bufferHeld s i = false) :
    ∃ b, DrawnFree d s b ∧ drawnBuffer d s = some (b, { s with freeIx := s.freeIx + if Multicasts d then 1 else 0 }) := by
  by_cases hm : Multicasts d
  · obtain ⟨i, hi, hc, hb⟩ := h hm
    obtain ⟨j, -, hj, hfree, hdraw⟩ := drawFree_some (ok := fun i => !claimed s 4 i && !bufferHeld s i) (lo := 0) (n := 64) (s := s) (by omega)
      ⟨i, Nat.zero_le i, by omega, by simp [hc, hb]⟩
    simp only [Bool.and_eq_true, Bool.not_eq_true'] at hfree
    obtain ⟨hcj, hbj⟩ := hfree
    exact ⟨some j, ⟨fun _ => ⟨j, rfl, by omega, hcj, hbj⟩, fun hn => absurd hm hn⟩, by rw [drawnBuffer, if_pos (by simpa using hm), if_pos hm, hdraw]; rfl⟩
  · exact ⟨none, ⟨fun hy => absurd hy hm, fun _ => rfl⟩, by rw [drawnBuffer, if_neg (by simpa using hm), if_neg hm]; rfl⟩

/-- The ordered sum of F64 is refused where its fuse is blown, once the block and its lists are read (R445). -/
theorem bodyCollOpen_fused (h : BlockRead d p l s1 s2 s3) (hk : opf d 18 0 3 ≤ 2) (hf : fieldAt p.data 1 1 = 5) (hfuse : fused 5 = true) :
    bodyCollOpen d c s1 = complete c stFeatureDisabled 0 0 s3 := by
  obtain ⟨hblock, hclean, hparams, hlists, hgood⟩ := h
  simp only [bodyCollOpen, dtent, hblock, hclean, hparams, hlists, hgood, hk, hf, hfuse]
  rfl

/-- COLL.OPEN that every check of R223 lets through makes its window, with a free buffer for a multicast, and answers members and records (R224). -/
theorem bodyCollOpen_opens (h : BlockRead d p l s1 s2 s3) (hfit : WindowFits d p.data l s3) (hfuse : ¬(opf d 18 0 3 ≤ 2 ∧ fieldAt p.data 1 1 = 5 ∧ fused 5 = true))
    {b : Option Nat} (hbuf : drawnBuffer d s3 = some (b, { s3 with freeIx := s3.freeIx + if Multicasts d then 1 else 0 })) :
    ∃ now, s3.now ≤ now ∧ bodyCollOpen d c s1 = complete c stSuccess 0 (place (fieldAt p.data 4 2) 32 32 ||| boundRecords d p.data)
      (withWindow d p.data (openedWindow d p.data l b now) { s3 with freeIx := s3.freeIx + (if Multicasts d then 2 else 1), now := now }) := by
  obtain ⟨hblock, hclean, hparams, hlists, hgood⟩ := h
  obtain ⟨hlengths, hclap, hranges, hslot, hcrews, harea, hmembers, hbloom, -⟩ := hfit
  have howner : ((setBits 128 (fieldAt p.data 16 16)).any fun k => assigned s3 k != some d.tent.toNat) = false :=
    List.any_eq_false.2 fun k hk => by simp [(hcrews k hk).1]
  have hpower : ((setBits 128 (fieldAt p.data 16 16)).any fun k => pdOff s3 (pdCrew k)) = false :=
    List.any_eq_false.2 fun k hk => by simp [(hcrews k hk).2.1]
  have hbound : ((setBits 128 (fieldAt p.data 16 16)).any fun k => (crewOf s3 k).area.isSome) = false :=
    List.any_eq_false.2 fun k hk => by simp [(hcrews k hk).2.2]
  have hf64 : (decide (opf d 18 0 3 ≤ 2) && decide (fieldAt p.data 1 1 = 5) && fused 5) = false := by
    simpa [and_assoc] using hfuse
  have hroom : (decide (2097152 < fieldAt p.data 32 4 + 64 * boundRecords d p.data) || decide (262144 < memberSlots s3 + fieldAt p.data 4 2)
      || decide (16777216 < bloomBytes s3 + l.blooms.foldl (fun a b => a + 2 ^ (bloomAt p.data b.1).2.1 / 8) 0)) = false := by
    simp [harea, hmembers, hbloom]
  unfold boundRecords at hroom
  refine ⟨s3.now + Config.free (s3.freeIx + if Multicasts d then 1 else 0), Nat.le_add_right _ _, ?_⟩
  simp only [bodyCollOpen, dtent, hblock, hclean, hparams, hlists, hgood, hf64, hlengths, hclap, howner, hranges, hpower, hbound, hslot, hroom,
    Bool.or_self, Bool.not_true, Option.isSome_none, Bool.false_eq_true, if_false]
  rw [drawnBuffer] at hbuf
  have hdraws : s3.freeIx + (if Multicasts d then 2 else 1) = s3.freeIx + (if Multicasts d then 1 else 0) + 1 := by split <;> rfl
  rw [hbuf, hdraws]
  rfl

/-- What COLL.OPEN comes to once its block, its lists and what they name pass every check but the fuses (R223, R224, R445). -/
theorem bodyCollOpen_eq (h : BlockRead d p l s1 s2 s3) (hfit : WindowFits d p.data l s3) :
    ∃ now b, s3.now ≤ now ∧ DrawnFree d s3 b ∧ bodyCollOpen d c s1 =
      if opf d 18 0 3 ≤ 2 ∧ fieldAt p.data 1 1 = 5 ∧ fused 5 = true then complete c stFeatureDisabled 0 0 s3
      else complete c stSuccess 0 (place (fieldAt p.data 4 2) 32 32 ||| boundRecords d p.data)
        (withWindow d p.data (openedWindow d p.data l b now) { s3 with freeIx := s3.freeIx + (if Multicasts d then 2 else 1), now := now }) := by
  obtain ⟨b, hfree, hbuf⟩ := drawnBuffer_some hfit.buffer
  split
  · next hf64 =>
    obtain ⟨hk, hf, hfuse⟩ := hf64
    exact ⟨s3.now, b, Nat.le_refl _, hfree, bodyCollOpen_fused h hk hf hfuse⟩
  · next hf64 =>
    obtain ⟨now, hnow, hbody⟩ := bodyCollOpen_opens h hfit hf64 hbuf
    exact ⟨now, b, hnow, hfree, hbody⟩

/-! ### COLL.CLOSE and COLL.REPORT -/

/-- A tent finds its own window in a slot. -/
theorem window_filter_own (hx : window s w = some x) (ht : x.tent = d.tent.toNat) : (window s w).filter (·.tent = dtent d) = some x :=
  Option.filter_eq_some_iff.2 ⟨hx, decide_eq_true ht⟩

/-- COLL.CLOSE that runs, with no field at fault, does what its body says. -/
theorem exec_collClose (hrun : Runs anyRule q d s s1) (hf : onlyFields d [(16, 0, 12), (18, 0, 1)] = true) :
    exec (.collClose q d) s = .next (bodyCollClose d (crefOf q d s1) s1) :=
  congrArg Host.Outcome.next (runI_runs hrun _ _ (if_pos hf))

/-- COLL.CLOSE without REARM ends its tent's window (R237). -/
theorem bodyCollClose_ends (hx : window s (opf d 16 0 12) = some x) (ht : x.tent = d.tent.toNat) (hr : opf d 18 0 1 = 0) :
    bodyCollClose d c s = complete c stSuccess 0 0 (dropWindow (opf d 16 0 12) s) := by
  simp only [bodyCollClose, window_filter_own hx ht, hr, if_true]

/-- COLL.CLOSE with REARM of a window whose round is over begins the next round and answers its number (R237). -/
theorem bodyCollClose_rearms (hx : window s (opf d 16 0 12) = some x) (ht : x.tent = d.tent.toNat) (hr : opf d 18 0 1 = 1)
    (hopen : x.state ≠ .open) (hcompleting : x.state ≠ .completing) :
    bodyCollClose d c s = complete c stSuccess 0 (x.round + 1) (rearm (opf d 16 0 12) x s) := by
  simp [bodyCollClose, window_filter_own hx ht, hr, hopen, hcompleting]

/-- COLL.REPORT that runs, with no field at fault and a report address of a whole line, does what its body says. -/
theorem exec_collReport (hrun : Runs anyRule q d s s1) (hf : onlyFields d [(16, 0, 12), (24, 0, 64)] = true) (halign : opf d 24 0 64 % 64 = 0) :
    exec (.collReport q d) s = .next (bodyCollReport d (crefOf q d s1) s1) :=
  congrArg Host.Outcome.next (runI_runs hrun _ _ (if_pos (by simp [hf, halign])))

/-- COLL.REPORT writes the report at a reading of the clock and answers its length (R238). -/
theorem bodyCollReport_writes (hx : window s (opf d 16 0 12) = some x) (ht : x.tent = d.tent.toNat)
    (hw : ∀ n, (engWriteS x.source x.tent (opf d 24 0 64) (arrivalReport x n) { s with freeIx := s.freeIx + 1, now := n }).1 = true) :
    ∃ now, s.now ≤ now ∧ bodyCollReport d c s = complete c stSuccess 0 (arrivalReport x now).length
      (engWriteS x.source x.tent (opf d 24 0 64) (arrivalReport x now) { s with freeIx := s.freeIx + 1, now := now }).2 := by
  refine ⟨s.now + Config.free s.freeIx, Nat.le_add_right _ _, ?_⟩
  simp only [bodyCollReport, window_filter_own hx ht, clock_eq, hw, if_true]

/-! ### Events of a window and of the decode kernel -/

/-- A window that runs and has a time limit fails once with CAUSE 1 (R243). -/
theorem exec_windowTimeout {w : BitVec 16} (hx : window s w.toNat = some x) (hlimit : x.timeout ≠ 0) (htimed : x.timed = false)
    (hruns : x.state = .open ∨ x.state = .completing) :
    exec (.windowTimeout w) s
      = .next (moved s (winFailing w.toNat 1 (updWin w.toNat (fun x => { x with timed := true }) (clockTo (x.start + x.timeout * 1000) s)))) := by
  have hrunning : (decide (x.state = .open) || decide (x.state = .completing)) = true := by simpa using hruns
  rw [show exec (.windowTimeout w) s = execWindowTimeout w s from rfl, execWindowTimeout, fabricDo_eq]
  simp only [hx, hlimit, htimed, hrunning, decide_false, Bool.or_self, Bool.not_true, Bool.false_eq_true, if_false]

/-- The tree of a window that completes and has issued nothing is summed line by line, and its result goes on (R234). -/
theorem exec_f64TreeDone {w : BitVec 16} (hx : window s w.toNat = some x) (htree : x.tree = true) (hstate : x.state = .completing)
    (hfailing : x.failing = false) (hdests : ∀ d ∈ x.dests, d.out = 0 ∧ d.asked = false) :
    let summed := (List.range (x.count / 8)).foldl (fun s l => treeLine w.toNat x l s) s
    exec (.f64TreeDone w) s = .next (moved s (if x.multi then startMulticast w.toNat summed else winComplete w.toNat summed)) := by
  have hquiet : (x.dests.any fun d => d.out != 0 || d.asked) = false := List.any_eq_false.2 fun d hd => by simp [hdests d hd]
  rw [show exec (.f64TreeDone w) s = execF64TreeDone w s from rfl, execF64TreeDone, fabricDo_eq]
  simp [hx, htree, hstate, hfailing, hquiet]

/-- The scan of a FILTER window that runs ends (R241). -/
theorem exec_filterScanDone {w : BitVec 16} {f : Filter} (hx : window s w.toNat = some x) (hf : x.filter = some f) (hstate : x.state = .completing) :
    exec (.filterScanDone w) s = .next (held s s (scanEnd w.toNat x f s)) := by
  rw [show exec (.filterScanDone w) s = execFilterScanDone w s from rfl, execFilterScanDone, ready]
  simp [hx, hf, hstate]

/-- A bag result that is not read leaves the buffer at the end of its hold (R255). -/
theorem exec_bufHoldExpiry {n : BitVec 32} {b : Buffered} (hb : find s.gth.buf n.toNat = some b) :
    exec (.bufHoldExpiry n) s = .next (clockTo b.deadline (updGth (fun g => { g with buf := del g.buf n.toNat }) s)) := by
  rw [show exec (.bufHoldExpiry n) s = execBufHoldExpiry n s from rfl, execBufHoldExpiry, hb]

/-- The decode kernel writes its records, gives its crews back, completes with their number and advances its clapper (R263, R267). -/
theorem decodeDone_writes {n : Nat} {y : Decode} {k : KvCache} (hy : find s.gth.decodes n = some y) (hk : find s.gth.caches y.cache = some k) :
    let j := jobOf y.job
    let r := decodeRecords y (j.batch * j.maxSplits * (j.group * k.hkv)) s
    decodeDone n s = clapOpt y.clapper 1 (complete y.cref stSuccess 0 r.1 (freeDecode n y r.2)) := by
  simp only [decodeDone, hy, hk]

end Collectives

/-- Settles O40: the commands by their bodies, the events by the conditions under which each is due. -/
theorem collectiveResults : Obligations.CollectiveResults := by
  refine ⟨fun q d s s1 hrun => ⟨?opens, ?closes, ?reports⟩, fun w x s hx => ⟨?timeout, ?tree, ?scan⟩, fun n s => ⟨?hold, ?decode⟩⟩
  case opens =>
    intro p l s2 s3 hcheck hblock hclean hparams hlists hgood hlengths hclap hranges hslot f crews recs hcrews harea hmembers hbloom multi hfree
    have hread : BlockRead d p l s1 s2 s3 := ⟨hblock, hclean, hparams, hlists, hgood⟩
    have hfit : WindowFits d p.data l s3 := ⟨hlengths, hclap, hranges, hslot, hcrews, harea, hmembers, hbloom, hfree⟩
    obtain ⟨now, b, hnow, ⟨hmulti, hsingle⟩, hbody⟩ := bodyCollOpen_eq (c := crefOf q d s1) hread hfit
    exact ⟨now, b, hnow, hmulti, hsingle, by rw [exec_collOpen hrun hcheck, hbody]; rfl⟩
  case closes =>
    intro x hf hx ht
    rw [exec_collClose hrun hf]
    exact ⟨fun hr => congrArg _ (bodyCollClose_ends hx ht hr), fun hr ho hc => congrArg _ (bodyCollClose_rearms hx ht hr ho hc)⟩
  case reports =>
    intro x hf halign hx ht hwrite
    obtain ⟨now, hnow, hbody⟩ := bodyCollReport_writes (c := crefOf q d s1) hx ht hwrite
    exact ⟨now, hnow, (exec_collReport hrun hf halign).trans (congrArg _ hbody)⟩
  case timeout => exact fun hlimit htimed hruns => exec_windowTimeout hx hlimit htimed hruns
  case tree => exact fun htree hstate hfailing hdests => exec_f64TreeDone hx htree hstate hfailing hdests
  case scan => exact fun f hf hstate => exec_filterScanDone hx hf hstate
  case hold => exact fun b hb => exec_bufHoldExpiry hb
  case decode => exact fun y k hy hk => congrArg (fun t => Host.Outcome.next (held s s t)) (decodeDone_writes hy hk)

end Sys2Proof.Machine

/-! Near-bank units: NBU.PROGRAM, NBU.RUN and NBU.RESET, the answers of a module's units, and the time limits of their messages and steps (R277, R282 to R287, R289). -/

namespace Sys2Proof.Machine

section NearBank

variable {q : QId} {d : Desc} {c : CRef} {s s1 s2 : State} {r : EngRead} {m : Nat}

/-- A command behind a fuse that runs, with no field at fault, is refused where the fuse is blown, or does what its body says once its lines are there (R445). -/
theorem runI_behindFuse {rule : Rule} {check : Desc → Option Nat} {f : Nat} (hrun : Runs rule q d s s1) (hcheck : check d = none)
    (body : CRef → State → State) :
    runI q d rule (behindFuse f check) (orLater s body) s
      = if fused f then complete (crefOf q d s1) stFeatureDisabled 0 0 s1 else held s s1 (body (crefOf q d s1) s1) := by
  have hfields : behindFuse f check d = if fused f then some stFeatureDisabled else none := by rw [behindFuse, hcheck]
  split
  · next hfuse => exact runI_fieldsRefused hrun _ _ (hfields.trans (if_pos hfuse))
  · next hfuse => exact runI_orLater hrun _ _ (hfields.trans (if_neg hfuse))

/-- The command's tent owns the allotment that it names, on a module that has units and power (R282, R283). -/
structure OwnsAllotment (d : Desc) (al : Nat × Nat × Nat) (s : State) : Prop where
  units : nbuUnits s (opf d 16 0 3) ≠ 0
  allot : allotOf s (opf d 16 0 3) (opf d 17 0 4) = some al
  owner : al.1 = d.tent.toNat
  power : pdOn s (pdTray (opf d 16 0 3)) = true

/-! ### NBU.PROGRAM -/

/-- A digest adds one entry at most to an image list (R186). -/
theorem digestIndex_length_le (l : List (List Byte)) (x : List Byte) : (digestIndex l x).2.length ≤ l.length + 1 := by
  unfold digestIndex
  split <;> simp

/-- No run, waiting or running, uses an allotment of a module. -/
def AllotIdle (s : State) (m a : Nat) : Prop :=
  (∀ y ∈ (nbuOf s m).queue, y.allot ≠ a) ∧ ∀ y, (nbuOf s m).running = some y → y.allot ≠ a

/-- No run uses the allotment, as NBU.PROGRAM asks it. -/
theorem AllotIdle.not_used {a : Nat} (h : AllotIdle s m a) :
    ((nbuOf s m).queue.any (·.allot = a) || (nbuOf s m).running.any (·.allot = a)) = false := by
  obtain ⟨hqueue, hrunning⟩ := h
  rw [Bool.or_eq_false_iff]
  exact ⟨List.any_eq_false.2 fun y hy => by simpa using hqueue y hy, (Option.any_eq_false _ _).2 fun y hy => by simpa using hrunning y hy⟩

/-- NBU.PROGRAM that every check of R282 lets through notes itself and sends its steps to every unit. -/
theorem bodyNbuProgram_sends {al : Nat × Nat × Nat} {x : Tent}
    (hread : engRead (opf d 18 0 14) d.tent.toNat (opf d 24 0 64) (16 * opf d 20 0 16) s1 = (some r, s2))
    (hsteps : ∀ y ∈ stepsOf r.data, stepIsBad y.toNat = false) (hown : OwnsAllotment d al s1)
    (hidle : AllotIdle s1 (opf d 16 0 3) (opf d 17 0 4)) (htent : tent s1 d.tent.toNat = some x) (hroom : x.images.length < 64) :
    let noted := updNbu (opf d 16 0 3) (fun y => { y with programs := y.programs ++
      [⟨c, opf d 17 0 4, 16 * nbuUnits s1 (opf d 16 0 3), stepsOf r.data, d.tent.toNat, Config.sha384 r.data⟩] }) s2
    bodyNbuProgram d c s1 = pushDown (opf d 16 0 3) (slotMsgs (nbuUnits noted (opf d 16 0 3)) (opf d 17 0 4) (stepsOf r.data) (.program c)) noted := by
  obtain ⟨hunits, hallot, howner, hpower⟩ := hown
  have hgood : ((stepsOf r.data).any fun y => stepIsBad y.toNat) = false := List.any_eq_false.2 fun y hy => by simp [hsteps y hy]
  have hlist : ¬64 < (digestIndex x.images (Config.sha384 r.data)).2.length := by
    have := digestIndex_length_le x.images (Config.sha384 r.data)
    omega
  simp only [bodyNbuProgram, dtent, hread, Option.map_some, Option.getD_some, hgood, hunits, hallot, howner, hidle.not_used, htent, hlist, hpower,
    Option.isNone_some, decide_false, Bool.or_self, bne_self_eq_false, Bool.not_true, Bool.false_eq_true, if_false]

/-! ### NBU.RUN -/

/-- The bindings of a run block, in an allotment that begins at `base` (Table 12.10). -/
def blockBinds (bs : List Byte) (base : Nat) : List Bind := (List.range (bits (fieldAt bs 0 1) 0 5)).map fun b => blockBind bs base b

/-- Copy `i` of a run block: pooled-memory offset and binding (Table 12.10). -/
def blockCopy (bs : List Byte) (i : Nat) : Nat × Nat := (fieldAt bs (320 + 16 * i) 8, fieldAt bs (328 + 16 * i) 1)

/-- The in-copies of a run block. -/
def blockIns (bs : List Byte) : List (Nat × Nat) := (List.range (bits (fieldAt bs 1 1) 0 4)).map (blockCopy bs)

/-- The out-copies of a run block, which follow its in-copies. -/
def blockOuts (bs : List Byte) : List (Nat × Nat) :=
  (List.range (bits (fieldAt bs 1 1) 4 4)).map fun i => blockCopy bs (bits (fieldAt bs 1 1) 0 4 + i)

/-- Bytes of a binding by its number. -/
def bindLen (binds : List Bind) (b : Nat) : Nat := (binds[b]?).elim 0 fun x => x.rows * x.rowBytes

/-- The run that NBU.RUN makes of its block. -/
def blockRun (d : Desc) (c : CRef) (bs : List Byte) (base : Nat) : NbuRun where
  cref := c
  tent := d.tent.toNat
  allot := opf d 17 0 4
  source := opf d 18 0 14
  clapper := clapName (opf d 20 0 32)
  binds := blockBinds bs base
  ins := blockIns bs
  outs := blockOuts bs

/-- SOURCE may use the buffers of a run block (check 4 of R283). -/
structure BuffersPermitted (d : Desc) (bs : List Byte) (base : Nat) (s : State) : Prop where
  binds : ∀ b ∈ blockBinds bs base, bindPermitted s (opf d 16 0 3) (opf d 18 0 14) d.tent.toNat b = true
  ins : ∀ x ∈ blockIns bs, mayRead s (opf d 18 0 14) d.tent.toNat x.1 (bindLen (blockBinds bs base) x.2) = true
  outs : ∀ x ∈ blockOuts bs, mayGateWrite s (opf d 18 0 14) d.tent.toNat x.1 (bindLen (blockBinds bs base) x.2) = true

/-- No binding is refused, as NBU.RUN looks for one. -/
theorem BuffersPermitted.no_bind {bs : List Byte} {base : Nat} (h : BuffersPermitted d bs base s) :
    ((List.range (bits (fieldAt bs 0 1) 0 5)).find? fun b =>
      !(((blockBinds bs base)[b]?).all (bindPermitted s (opf d 16 0 3) (opf d 18 0 14) d.tent.toNat))) = none := by
  refine List.find?_eq_none.2 fun b _ => ?_
  have hall : ((blockBinds bs base)[b]?).all (bindPermitted s (opf d 16 0 3) (opf d 18 0 14) d.tent.toNat) = true :=
    (Option.all_eq_true _ _).2 fun y hy => h.binds y (List.mem_of_getElem? hy)
  simp [hall]

/-- No copy is refused, as NBU.RUN looks for one. -/
theorem BuffersPermitted.no_copy {bs : List Byte} {base : Nat} (h : BuffersPermitted d bs base s) :
    ((blockIns bs).find? fun x => !mayRead s (opf d 18 0 14) d.tent.toNat x.1 (bindLen (blockBinds bs base) x.2)).or
      ((blockOuts bs).find? fun x => !mayGateWrite s (opf d 18 0 14) d.tent.toNat x.1 (bindLen (blockBinds bs base) x.2)) = none := by
  rw [Option.or_eq_none_iff]
  exact ⟨List.find?_eq_none.2 fun x hx => by simp [h.ins x hx], List.find?_eq_none.2 fun x hx => by simp [h.outs x hx]⟩

/-- NBU.RUN that every check of R283 lets through joins the queue of its module (R284). -/
theorem bodyNbuRun_joins {al : Nat × Nat × Nat}
    (hread : engRead (opf d 18 0 14) d.tent.toNat (opf d 24 0 64) 512 s1 = (some r, s2)) (hown : OwnsAllotment d al s1)
    (hblock : blockBad r.data (some al.2.1) = false)
    (hclap : clapOk s1 (some d.tent.toNat) (opf d 20 0 32) = true) (hbuffers : BuffersPermitted d r.data al.2.2 s1)
    (hprogram : ∀ y ∈ programOf (nbuOf s1 (opf d 16 0 3)) (opf d 17 0 4), stepFault (blockBinds r.data al.2.2) y = none)
    (htiles : (blockBinds r.data al.2.2).foldl (fun a b => a + b.count) 0 ≤ 4096) (hqueue : (nbuOf s1 (opf d 16 0 3)).queue.length < 64) :
    bodyNbuRun d c s1 = joinQueue (opf d 16 0 3) (blockRun d c r.data al.2.2) s2 := by
  obtain ⟨hunits, hallot, howner, hpower⟩ := hown
  have hsteps := List.findSome?_eq_none_iff.2 hprogram
  have hroom : (decide (4096 < (blockBinds r.data al.2.2).foldl (fun a b => a + b.count) 0)
      || decide (64 ≤ (nbuOf s1 (opf d 16 0 3)).queue.length)) = false := by simp [htiles, hqueue]
  have hbind := hbuffers.no_bind
  have hcopy := hbuffers.no_copy
  unfold blockBinds at hsteps hroom hbind hcopy
  unfold blockIns blockOuts bindLen blockCopy at hcopy
  simp only [bodyNbuRun, dtent, hread, Option.map_some, Option.getD_some, hblock, hunits, hallot, howner, hclap, hbind, hcopy, hsteps, hroom, hpower,
    Option.isNone_some, decide_false, Bool.and_false, Bool.or_self, bne_self_eq_false, Bool.not_true, Bool.false_eq_true, if_false]
  rfl

/-! ### NBU.RESET -/

/-- NBU.RESET of an admitted module whose port group is on waits with the reset in progress, or begins one (R287). -/
theorem bodyNbuReset_resets (hadmitted : (tray s (opf d 16 0 3)).admitted = true) (hpower : pdOn s (pdTray (opf d 16 0 3)) = true) :
    let noted := updNbu (opf d 16 0 3) (fun x => { x with resets := x.resets ++ [c] }) s
    bodyNbuReset d c s = if (nbuOf noted (opf d 16 0 3)).resetting && (nbuOf noted (opf d 16 0 3)).waits.any (·.2.2 = .reset) then noted
      else moduleReset (opf d 16 0 3) noted := by
  simp only [bodyNbuReset, hadmitted, hpower, Bool.not_true, Bool.false_eq_true, if_false]

/-! ### Answers of units -/

section Answers

variable {t : BitVec 3} {b : BitVec 512} {k u : Nat} {caps : Bool}

/-- An acknowledgement of a step of NBU.PROGRAM counts for its command (R282). -/
theorem exec_ack_program (h : find (nbuOf s t.toNat).waits (upTag b) = some (k, .program c)) :
    exec (.ack t b) s = .next (programAck t.toNat c (answered t.toNat (upTag b) s)) := by
  rw [show exec (.ack t b) s = execAck t b s from rfl]
  simp only [execAck, h]

/-- An acknowledgement of a message that no work waits for counts off its message (R277). -/
theorem exec_ack_plain (h : find (nbuOf s t.toNat).waits (upTag b) = some (k, .plain)) :
    exec (.ack t b) s = .next (answered t.toNat (upTag b) s) := by
  rw [show exec (.ack t b) s = execAck t b s from rfl]
  simp only [execAck, h]

/-- An answer to a read of the admission check that fails a row of Table 12.13 leaves the module without units (R291). -/
theorem exec_regData_fails {i : Nat} (h : find (nbuOf s t.toNat).waits (upTag b) = some (k, .probe caps u))
    (hrow : capsFault (tray (answered t.toNat (upTag b) s) t.toNat).units caps u (upStatus b) (bits b.toNat 128 64) = some i) :
    exec (.regData t b) s = .next (failUnits t.toNat i (answered t.toNat (upTag b) s)) := by
  rw [show exec (.regData t b) s = execRegData t b s from rfl]
  simp only [execRegData, h, hrow]

/-- An answer to a read of the admission check that meets Table 12.13 leaves one read less outstanding; UNIT_CAPS gives the rates (R291). -/
theorem exec_regData_meets (h : find (nbuOf s t.toNat).waits (upTag b) = some (k, .probe caps u))
    (hrows : capsFault (tray (answered t.toNat (upTag b) s) t.toNat).units caps u (upStatus b) (bits b.toNat 128 64) = none) :
    let v := bits b.toNat 128 64
    exec (.regData t b) s = .next (updNbu t.toNat
      (fun x => if caps then { x with probes := x.probes - 1, unitGbps := bits v 56 8, busGbps := bits v 48 8 } else { x with probes := x.probes - 1 })
      (answered t.toNat (upTag b) s)) := by
  rw [show exec (.regData t b) s = execRegData t b s from rfl]
  simp only [execRegData, h, hrows]

/-- A UNIT_CAPS that meets the rates and the row buffer of Table 12.13. -/
theorem capsFault_caps {units st v : Nat} (hst : st = 0) (hlocal : 8 ≤ bits v 56 8) (hbus : 32 ≤ bits v 48 8) (hrow : 128 ≤ bits v 32 16)
    (hzero : bits v 0 32 = 0) : capsFault units true u st v = none := by
  simp [capsFault, hst, Nat.not_lt.2 hlocal, Nat.not_lt.2 hbus, Nat.not_lt.2 hrow, hzero]

/-- A UNIT_ID that names its unit and the module's number of units (Table 12.13). -/
theorem capsFault_id {units st v : Nat} (hst : st = 0) (hunits : bits v 16 4 + 1 = units) (hunit : bits v 20 4 = u) (hversion : bits v 24 8 = 1)
    (hzero : bits v 0 16 = 0) : capsFault units false u st v = none := by
  simp [capsFault, hst, hunits, hunit, hversion, hzero]

/-- A read that a unit refuses fails the Register area row of Table 12.13. -/
theorem capsFault_refused {units st v : Nat} (h : st ≠ 0) : capsFault units caps u st v = some 4 := by
  simp [capsFault, h]

/-- A module that offers units loses them with the item of the row that failed logged (R291). -/
theorem failUnits_logs {item : Nat} (h : (tray s m).units ≠ 0) :
    failUnits m item s = ras 0x09 2 none (selfNode s) (Config.itemCode item) m
      (updNbu m (fun x => { x with probes := 0 }) (updTray m (fun t => { t with units := 0 }) s)) := if_neg h

/-- STEP_DONE of a unit whose answer to the present START is outstanding moves the run on (R285). -/
theorem exec_stepDone_awaited {r : NbuRun} (h : find (nbuOf s t.toNat).waits (upTag b) = some (k, .start)) (hr : (nbuOf s t.toNat).running = some r)
    (htag : r.tag = upTag b) (hleft : upUnit b ∈ r.left) :
    exec (.stepDone t b) s = .next (moved s (stepAnswer t.toNat (upUnit b) (upStatus b) r (answered t.toNat (upTag b) s))) := by
  rw [show exec (.stepDone t b) s = execStepDone t b s from rfl, execStepDone, fabricDo_eq]
  simp [h, hr, htag, hleft]

/-- RESET_DONE completes the NBU.RESET commands that wait for it (R287). -/
theorem exec_resetDone_awaited (h : find (nbuOf s t.toNat).waits (upTag b) = some (k, .reset)) :
    let s1 := answered t.toNat (upTag b) s
    exec (.resetDone t b) s = .next ((nbuOf s1 t.toNat).resets.foldl (fun s c => complete c stSuccess 0 0 s)
      (updNbu t.toNat (fun x => { x with resetting := false, resets := [] }) s1)) := by
  rw [show exec (.resetDone t b) s = execResetDone t b s from rfl]
  simp only [execResetDone, h]
  rfl

end Answers

/-! ### Time limits, and runs that leave the queue -/

section Limits

variable {t : BitVec 3} {tag : BitVec 16} {k : Nat}

/-- A message is no longer waited for, and what waited for its place is sent (R277, R381). -/
def unwaited (m tag : Nat) (s : State) : State := sendDown m 17 (updNbu m (fun x => { x with waits := del x.waits tag }) s)

/-- What the end of a message's time limit ends: an NBU.PROGRAM, the resets, the admission check, or nothing; a START has the limit of its step (R277, R282, R286, R287, R291). -/
def endUnanswered (m tag : Nat) (s : State) : NbuWait → State
  | .program c => endProgram m c stTimeout (unwaited m tag s)
  | .reset => (nbuOf s m).resets.foldl (fun s c => complete c stTimeout 0 0 s) (updNbu m (fun x => { x with resets := [] }) (unwaited m tag s))
  | .probe .. => failUnits m 5 (unwaited m tag s)
  | .plain => unwaited m tag s
  | .start => s

/-- A message without its answers in time ends what it was sent for. -/
theorem exec_nbuAckTimeout {w : NbuWait} (h : find (nbuOf s t.toNat).waits tag.toNat = some (k, w)) :
    exec (.nbuAckTimeout t tag) s = .next (endUnanswered t.toNat tag.toNat s w) := by
  rw [show exec (.nbuAckTimeout t tag) s = execNbuAckTimeout t tag s from rfl]
  cases w <;> simp only [execNbuAckTimeout, h] <;> rfl

/-- A module without a run starts the first run of the tent with the least start tag (R284, R296). -/
theorem exec_runDequeue_starts {n u : Nat} {r : NbuRun} {rest : List NbuRun} (hfree : (nbuOf s t.toNat).running = none)
    (hreset : (nbuOf s t.toNat).resetting = false) (hunits : nbuUnits s t.toNat ≠ 0) (hup : trayUp s t.toNat = true)
    (hleast : least ((nbuOf s t.toNat).tags.map fun e => (e.2, e.1)) = some (n, u))
    (hfirst : takeFirst (fun r : NbuRun => r.tent = u) (nbuOf s t.toNat).queue = some (r, rest)) :
    let tags := if rest.any (·.tent = u) then put (nbuOf s t.toNat).tags u (n + tagUnit / tentWeight s u) else del (nbuOf s t.toNat).tags u
    exec (.runDequeue t) s = .next (moved s (startRun t.toNat r (updNbu t.toNat (fun x => { x with queue := rest, v := n, tags := tags }) s))) := by
  rw [show exec (.runDequeue t) s = execRunDequeue t s from rfl, execRunDequeue, fabricDo_eq]
  simp only [hfree, hreset, hunits, hup, hleast, hfirst, Option.isSome_none, decide_false, Bool.or_self, Bool.not_true, Bool.false_eq_true, if_false]
  rfl

/-- A step that some unit has not done in time leaves what its run wrote unknown, ends the run with TIMEOUT and resets the module (R286). -/
theorem exec_stepTimeout_resets {r : NbuRun} (hr : (nbuOf s t.toNat).running = some r) (hleft : r.left ≠ []) :
    exec (.stepTimeout t) s
      = .next (moduleReset t.toNat (killRun t.toNat stTimeout (unknownRun t.toNat r (clockTo r.limit s)))) := by
  have hwaits : r.left.isEmpty = false := by simpa using hleft
  rw [show exec (.stepTimeout t) s = execStepTimeout t s from rfl, execStepTimeout]
  simp only [hr, hwaits, Bool.false_eq_true, if_false]

end Limits

end NearBank

/-- Settles O42: the commands by their bodies, each answer and each time limit by what the message was sent for. -/
theorem nearBankResults : Obligations.NearBankResults := by
  refine ⟨fun q d s s1 => ⟨?program, ?run, ?reset⟩,
    fun t b tag s => ⟨?ack, ?plain, ?probe, ?step, ?resetDone, rfl, ?ackTimeout, ?dequeue, ?stepTimeout⟩⟩
  case program =>
    intro r s2 al x hrun hfields hread hsteps hunits hallot howner hqueue hrunning htent hroom hpower
    refine congrArg Host.Outcome.next ((runI_behindFuse hrun hfields _).trans ?_)
    rw [bodyNbuProgram_sends hread hsteps ⟨hunits, hallot, howner, hpower⟩ ⟨hqueue, hrunning⟩ htent hroom]
    rfl
  case run =>
    intro r s2 al hrun hfields hread hunits hallot howner hblock hclap n ins binds copy inc outc len hbinds hins houts hprogram htiles hqueue hpower
    refine congrArg Host.Outcome.next ((runI_behindFuse hrun hfields _).trans ?_)
    rw [bodyNbuRun_joins hread ⟨hunits, hallot, howner, hpower⟩ hblock hclap ⟨hbinds, hins, houts⟩ hprogram htiles hqueue]
    rfl
  case reset =>
    intro hrun hfields hadmitted hpower
    exact congrArg Host.Outcome.next ((runI_runs hrun _ _ (if_pos hfields)).trans (bodyNbuReset_resets hadmitted hpower))
  case ack => exact fun k c => exec_ack_program
  case plain => exact fun k => exec_ack_plain
  case probe =>
    intro k caps u h
    refine ⟨?rates, ?identity, ?refused⟩
    case rates => rintro hst rfl hlocal hbus hrow hzero; exact exec_regData_meets h (capsFault_caps hst hlocal hbus hrow hzero)
    case identity => rintro hst rfl hunits hunit hversion hzero; exact exec_regData_meets h (capsFault_id hst hunits hunit hversion hzero)
    case refused => exact fun hst hunits => (exec_regData_fails h (capsFault_refused hst)).trans (congrArg _ (failUnits_logs hunits))
  case step => exact fun k r => exec_stepDone_awaited
  case resetDone => exact fun k => exec_resetDone_awaited
  case ackTimeout =>
    intro k w h
    have hend {v : NbuWait} (hw : w = v) : exec (.nbuAckTimeout t tag) s = .next (endUnanswered t.toNat tag.toNat s v) := hw ▸ exec_nbuAckTimeout h
    exact ⟨fun c => hend, hend, hend, fun caps u => hend⟩
  case dequeue => exact fun n u r rest => exec_runDequeue_starts
  case stepTimeout => exact fun r => exec_stepTimeout_resets

end Sys2Proof.Machine

/-! Hardware queues and shapers at their doorbells and in time (R298, R300, R309, R311), and the commands that make and take out queues, shapers, tables and caches (R247, R259, R301, R302, R306, R307, R314). -/

namespace Sys2Proof.Machine

section Doorbells

variable {k : Nat} {v : BitVec 32} {x : HwQueue} {s : State}

/-! ### Doorbells of hardware queues -/

/-- A TAIL that the ring has room for is taken, and what it adds goes to the queue's put clapper (R309, R311). -/
theorem hwTail_taken (hx : find s.qm.queues k = some x) (he : x.error = false) (hroom : (v - x.tail).toNat ≤ 2 ^ x.n - (x.tail - x.head).toNat) :
    hwTail k v s = (true, clapOpt x.put (v - x.tail).toNat (updHw k (fun x => { x with tail := v }) (touchHot k s))) := by
  simp only [hwTail, hx, he, Bool.false_eq_true, if_false, if_pos hroom]

/-- A TAIL beyond the ring's room is an error of the queue (R309). -/
theorem hwTail_refused (hx : find s.qm.queues k = some x) (he : x.error = false) (hfull : 2 ^ x.n - (x.tail - x.head).toNat < (v - x.tail).toNat) :
    hwTail k v s = (false, doorbellBad k (touchHot k s)) := by
  simp only [hwTail, hx, he, Bool.false_eq_true, if_false, if_neg (Nat.not_le.2 hfull)]

/-- A HEAD within what the ring holds is taken, and what it frees goes to the queue's get clapper (R309, R311). -/
theorem hwHead_taken (hx : find s.qm.queues k = some x) (he : x.error = false) (hheld : (v - x.head).toNat ≤ (x.tail - x.head).toNat) :
    hwHead k v s = (true, clapOpt x.get (v - x.head).toNat (updHw k (fun x => { x with head := v }) (touchHot k s))) := by
  simp only [hwHead, hx, he, Bool.false_eq_true, if_false, if_pos hheld]

/-- A HEAD beyond what the ring holds is an error of the queue (R309). -/
theorem hwHead_refused (hx : find s.qm.queues k = some x) (he : x.error = false) (hempty : (x.tail - x.head).toNat < (v - x.head).toNat) :
    hwHead k v s = (false, doorbellBad k (touchHot k s)) := by
  simp only [hwHead, hx, he, Bool.false_eq_true, if_false, if_neg (Nat.not_le.2 hempty)]

/-- A queue in ERROR takes no TAIL (R309). -/
theorem hwTail_inError (hx : find s.qm.queues k = some x) (he : x.error = true) : hwTail k v s = (false, touchHot k s) := by
  simp only [hwTail, hx, he, if_true]

/-- See `hwTail_inError`, for HEAD. -/
theorem hwHead_inError (hx : find s.qm.queues k = some x) (he : x.error = true) : hwHead k v s = (false, touchHot k s) := by
  simp only [hwHead, hx, he, if_true]

/-- A HEAD with RESET empties the ring at that place and ends the error (R309). -/
theorem hwReset_found (hx : find s.qm.queues k = some x) :
    hwReset k v s = (true, updHw k (fun x => { x with head := v, tail := v, error := false }) (touchHot k s)) := by
  simp only [hwReset, hx]

/-- A word written to TAIL does what the queue's own operation does. -/
theorem exec_queueTailWrite (q : BitVec 20) : exec (.queueTailWrite q v) s = .next (hwTail q.toNat v s).2 := rfl

/-- See `exec_queueTailWrite`. -/
theorem exec_queueHeadWrite (q : BitVec 20) : exec (.queueHeadWrite q v) s = .next (hwHead q.toNat v s).2 := rfl

/-- See `exec_queueTailWrite`. -/
theorem exec_queueHeadReset (q : BitVec 20) : exec (.queueHeadReset q v) s = .next (hwReset q.toNat v s).2 := rfl

end Doorbells

section Shapers

variable {k : Nat} {x : Shaper} {s : State}

/-! ### Shapers in time -/

/-- An entry that a table holds is one of its members. -/
theorem mem_of_find {α : Type} {t : List (Nat × α)} {k : Nat} {a : α} (h : find t k = some a) : (k, a) ∈ t := by
  induction t with
  | nil => cases h
  | cons e t ih =>
    obtain ⟨j, b⟩ := e
    simp only [find] at h
    split at h
    · next hj =>
      obtain rfl := hj
      obtain rfl := Option.some.inj h
      exact List.mem_cons_self
    · exact List.mem_cons_of_mem _ (ih h)

/-- A resource that has a shaper reads the clock, and its shapers' buckets gain what the time since their last filling gives (R298). -/
theorem refill_shaped (hx : find s.qm.shapers k = some x) :
    refill x.kind x.index s = { s with
      now := s.now + Config.free s.freeIx, freeIx := s.freeIx + 1
      qm := { s.qm with shapers := s.qm.shapers.map fun e =>
        (e.1, if e.2.kind = x.kind && e.2.index = x.index then e.2.fill (s.now + Config.free s.freeIx) else e.2) } } := by
  have hany : (s.qm.shapers.any fun e => e.2.kind = x.kind && e.2.index = x.index) = true := List.any_eq_true.2 ⟨_, mem_of_find hx, by simp⟩
  simp only [refill, hany, clock_eq, Bool.not_true, Bool.false_eq_true, if_false]

/-- A refill of a shaper that exists is one of its resource. -/
theorem exec_shaperBucketRefill {n : BitVec 12} (hx : find s.qm.shapers n.toNat = some x) :
    exec (.shaperBucketRefill n) s = .next (moved s (refill x.kind x.index s)) := by
  rw [show exec (.shaperBucketRefill n) s = execShaperBucketRefill n s from rfl, execShaperBucketRefill, hx]
  exact fabricDo_eq _

/-- The slots of a point begin with the one that is due first (R300). -/
theorem slotLoop_succ {kind ix : Nat} {last : Nat × Nat} (n : Nat) (hk : firstSlot s kind ix last = some k) :
    slotLoop kind ix last (n + 1) s = slotLoop kind ix last n (runSlot k s) := by
  simp only [slotLoop, hk]

/-- The state in which a reserved shaper's slot begins: at its time, with CBS bytes to serve (R300). -/
def slotBegun (k : Nat) (x : Shaper) (s : State) : State :=
  clockTo x.due (updShaper k (fun x => { x with slotLeft := x.cbs, slots := x.slots + 1 }) s)

/-- A slot of a port serves its tent there, and what it leaves is idle (R300). -/
theorem runSlot_port (hx : find s.qm.shapers k = some x) (hk : x.kind = 0) :
    runSlot k s = updShaper k (fun x => { x with slotLeft := 0 }) (pumpPort x.index (some x.tent) (slotBegun k x s)) := by
  simp only [runSlot, hx, if_pos hk]
  rfl

/-- A slot of another point serves its tent there, and what it leaves is idle (R300). -/
theorem runSlot_point (hx : find s.qm.shapers k = some x) (hk : x.kind ≠ 0) :
    runSlot k s = updShaper k (fun x => { x with slotLeft := 0 }) (servePoint (256 * x.kind + x.index) (some x.tent) (slotBegun k x s)) := by
  simp only [runSlot, hx, if_neg hk]
  rfl

/-- A reserved shaper whose slot is its point's first runs that slot, then those that are left up to it. -/
theorem exec_reservedSlotDue {n : BitVec 12} (hx : find s.qm.shapers n.toNat = some x) (hr : x.reserved = true)
    (hfirst : firstSlot s x.kind x.index (x.due, x.tent) = some n.toNat) :
    exec (.reservedSlotDue n) s = .next (drain (slotLoop x.kind x.index (x.due, x.tent) (2 ^ 16 - 1) (runSlot n.toNat s))) := by
  rw [show exec (.reservedSlotDue n) s = execReservedSlotDue n s from rfl, execReservedSlotDue]
  simp only [hx, hr, Bool.not_true, Bool.false_eq_true, if_false]
  exact congrArg (fun t => Host.Outcome.next (drain t)) (slotLoop_succ (2 ^ 16 - 1) hfirst)

end Shapers

/-- Settles O46: the doorbells by the queue's own operations, the events of shapers by what a refill and a slot do. -/
theorem hardwareQueueAndShaperEvents : Obligations.HardwareQueueAndShaperEvents := by
  refine ⟨fun q v x s hx => ⟨?tail, ?tailBad, ?head, ?headBad, ?inError, ?reset⟩, fun n x s hx => ⟨?refill, fun hr hfirst => ⟨?port, ?point⟩⟩⟩
  case tail => intro he hroom; rw [exec_queueTailWrite, hwTail_taken hx he hroom]
  case tailBad => intro he hfull; rw [exec_queueTailWrite, hwTail_refused hx he hfull]
  case head => intro he hheld; rw [exec_queueHeadWrite, hwHead_taken hx he hheld]
  case headBad => intro he hempty; rw [exec_queueHeadWrite, hwHead_refused hx he hempty]
  case inError =>
    intro he
    rw [exec_queueTailWrite, exec_queueHeadWrite, hwTail_inError hx he, hwHead_inError hx he]
    exact ⟨rfl, rfl⟩
  case reset => rw [exec_queueHeadReset, hwReset_found hx]
  case refill => exact ⟨_, Nat.le_add_right _ _, by rw [exec_shaperBucketRefill hx, refill_shaped hx]⟩
  case port =>
    intro hk
    rw [exec_reservedSlotDue hx hr hfirst, runSlot_port hx hk]
    rfl
  case point =>
    intro hk
    rw [exec_reservedSlotDue hx hr hfirst, runSlot_point hx hk]
    rfl

section Definitions

variable {q : QId} {d : Desc} {s s0 s1 s2 : State}

/-! ### What each command applies -/

/-- The empty queue that a QUEUE.CREATE describes (R306). -/
def queueOf (d : Desc) : HwQueue :=
  { tent := d.tent.toNat, cls := opf d 20 0 3, weight := opf d 21 0 8, n := opf d 22 0 5, e := opf d 23 0 4, source := opf d 24 0 14
    put := clapName (opf d 28 0 32), get := clapName (opf d 32 0 32), base := opf d 40 0 64, head := 0, tail := 0, error := false }

/-- QUEUE.CREATE makes an empty queue on its ring (R306). -/
theorem applyQueueCreate_creates (hfree : has s.qm.queues (opf d 16 0 20) = false) (ht : (tent s d.tent.toNat).isSome = true)
    (hput : clapOk s (some d.tent.toNat) (opf d 28 0 32) = true) (hget : clapOk s (some d.tent.toNat) (opf d 32 0 32) = true)
    (hring : ringOwned s d.tent.toNat (opf d 40 0 64) (2 ^ (opf d 22 0 5 + opf d 23 0 4)) = true)
    (hsource : sourceCovers s d.tent.toNat (opf d 24 0 14) (opf d 40 0 64) (2 ^ (opf d 22 0 5 + opf d 23 0 4)) = true) :
    applyQueueCreate d s = good { s with qm := { s.qm with queues := put s.qm.queues (opf d 16 0 20) (queueOf d) } } := by
  have ht' : (tent s d.tent.toNat).isNone = false := by simpa using ht
  simp only [applyQueueCreate, dtent, fresh, hfree, ht', hput, hget, hring, hsource, Bool.not_true, Bool.or_false, Bool.false_and, Bool.false_eq_true, if_false]
  rfl

/-- QUEUE.DESTROY takes the tent's queue out, and its hot state (R307). -/
theorem applyQueueDestroy_removes {x : HwQueue} (hx : find s.qm.queues (opf d 16 0 20) = some x) (ho : x.tent = d.tent.toNat) :
    applyQueueDestroy d s = good (removeQueue (opf d 16 0 20) s) := by
  simp only [applyQueueDestroy, hx]
  exact if_pos ho

/-- The empty command queue that a CMDQ.CREATE describes, enabled, in a state whose virtual time and generation it takes (R314). -/
def cmdqOf (d : Desc) (s : State) : CmdQueue :=
  { enable := true, n := opf d 17 0 8, base := opf d 24 0 64, source := opf d 18 0 14, notify := clapName (opf d 20 0 32), vtag := s.gaf.vtime, gen := s.gaf.nextGen }

/-- CMDQ.CREATE makes a command queue, enabled and empty, on its ring (R314). -/
theorem applyCmdqCreate_creates {y : Tent} (hfree : has s.gaf.cmdqs (d.tent.toNat * 16 + opf d 16 0 4) = false) (ht : tent s d.tent.toNat = some y)
    (hlisted : y.isSealed = true → listed y (opf d 18 0 14) = true) (hclap : clapOk s (some d.tent.toNat) (opf d 20 0 32) = true)
    (hring : ringOwned s d.tent.toNat (opf d 24 0 64) (2 ^ opf d 17 0 8 * 80) = true)
    (hsource : sourceCovers s d.tent.toNat (opf d 18 0 14) (opf d 24 0 64) (2 ^ opf d 17 0 8 * 80) = true) :
    applyCmdqCreate d s = good { s with gaf := { s.gaf with
      cmdqs := put s.gaf.cmdqs (d.tent.toNat * 16 + opf d 16 0 4) (cmdqOf d s), nextGen := s.gaf.nextGen + 1 } } := by
  have hsealed : (y.isSealed && !listed y (opf d 18 0 14)) = false := by simpa using hlisted
  simp only [applyCmdqCreate, dtent, fresh, hfree, ht, hsealed, hclap, hring, hsource, Bool.not_true, Bool.false_and, Bool.false_eq_true, if_false]
  rfl

/-- CMDQ.DESTROY takes a command queue out (R314). -/
theorem applyCmdqDestroy_removes (hx : has s.gaf.cmdqs (d.tent.toNat * 16 + opf d 16 0 4) = true) :
    applyCmdqDestroy d s = good (removeCmdq (d.tent.toNat * 16 + opf d 16 0 4) s) := if_pos hx

/-- The shaper that a SHAPER.SET describes, its buckets full or empty (R301, R302). -/
def newShaper (d : Desc) (now : Nat) : Shaper :=
  { tent := d.tent.toNat, reserved := opf d 18 6 1 = 1, wide := opf d 18 4 1 = 1, cls := opf d 18 0 3, kind := opf d 19 5 2, index := opf d 19 0 5
    cir := opf d 20 0 32, pir := opf d 24 0 32, cbs := opf d 28 0 32, pbs := opf d 32 0 32
    committed := if opf d 18 5 1 = 1 then 0 else opf d 28 0 32 * 1000, peak := if opf d 18 5 1 = 1 then 0 else opf d 32 0 32 * 1000, stamp := now }

/-- Another shaper of the tent already shapes a flow that this SHAPER.SET names (R301). -/
def ShapedElsewhere (d : Desc) (e : Nat × Shaper) : Prop :=
  e.1 ≠ opf d 16 0 12 ∧ e.2.tent = d.tent.toNat ∧ e.2.kind = opf d 19 5 2 ∧ e.2.index = opf d 19 0 5
    ∧ (e.2.wide = true ∨ opf d 18 4 1 = 1 ∨ e.2.cls = opf d 18 0 3)

/-- SHAPER.SET sets a shaper where no other shapes its flows (R301, R302). -/
theorem applyShaperSet_sets (hset : opf d 18 7 1 = 0) (ht : (tent s d.tent.toNat).isSome = true) (hother : ∀ e ∈ s.qm.shapers, ¬ShapedElsewhere d e) :
    applyShaperSet d s = good { s with qm := { s.qm with shapers := put s.qm.shapers (opf d 16 0 12) (newShaper d s.now) } } := by
  have ht' : (tent s d.tent.toNat).isNone = false := by simpa using ht
  have hnone : (s.qm.shapers.any fun e => e.1 != opf d 16 0 12 && e.2.tent = d.tent.toNat && e.2.kind = opf d 19 5 2 && e.2.index = opf d 19 0 5
      && (e.2.wide || opf d 18 4 1 = 1 || e.2.cls = opf d 18 0 3)) = false :=
    List.any_eq_false.2 fun e he => by simpa [ShapedElsewhere, and_assoc, or_assoc] using hother e he
  have hkeep : ¬opf d 18 7 1 = 1 := by omega
  simp only [applyShaperSet, dtent, ht', if_neg hkeep, Bool.false_eq_true, if_false]
  exact if_neg (ne_true_of_eq_false hnone)

/-- EMB.DEFINE makes a table over memory that the tent owns (R247). -/
theorem applyEmbDefine_defines (hset : opf d 17 7 1 = 0) (hpd : pdOn s 23 = true) (hfree : has s.gth.tables (opf d 16 0 8) = false)
    (hcodes : ownedRange s d.tent.toNat (opf d 32 0 64) (opf d 24 0 64 * opf d 20 0 32) = true)
    (hparams : ownedRange s d.tent.toNat (opf d 40 0 64) (opf d 24 0 64 * 4) = true) :
    applyEmbDefine d s = good { s with gth := { s.gth with tables := put s.gth.tables (opf d 16 0 8) (tableOf d) } } := by
  have hkeep : ¬opf d 17 7 1 = 1 := by omega
  simp only [applyEmbDefine, tableOf, dtent, fresh, hfree, hcodes, hparams, hpd, if_neg hkeep, Bool.not_true, Bool.or_false, Bool.false_and, Bool.false_eq_true, if_false]
  rfl

/-- EMB.DEFINE with DELETE takes out the tent's table and what the pooled-row buffer holds of it (R247). -/
theorem applyEmbDefine_deletes {x : Table} (hdel : opf d 17 7 1 = 1) (hpd : pdOn s 23 = true) (hx : find s.gth.tables (opf d 16 0 8) = some x)
    (ho : x.tent = d.tent.toNat) :
    applyEmbDefine d s = good { s with gth := { s.gth with
      tables := del s.gth.tables (opf d 16 0 8), buf := s.gth.buf.filter fun e => !(e.2.table = opf d 16 0 8) } } := by
  have hown : (x.tent != d.tent.toNat) = false := by simp [ho]
  simp only [applyEmbDefine, dtent, fresh, if_pos hdel, hx, hown, hpd, dropBuffered, updGth, Option.all_none, Bool.and_true, Bool.not_true, Bool.false_and, Bool.false_eq_true, if_false]

/-- KV.DEFINE makes a cache over memory that the tent owns, with tiles of tier 0 for its tables (R259). -/
theorem applyKvDefine_defines (hset : opf d 16 7 1 = 0) (hpd : pdOn s 23 = true) (hfree : has s.gth.caches (opf d 16 0 4) = false)
    (howned : ownedRange s d.tent.toNat (cacheOf d).base ((cacheOf d).pages * (cacheOf d).pageBytes) = true)
    (htiles : kvTiles (opf d 22 0 16) ≤ s.pool.free0) :
    applyKvDefine d s = good { s with
      pool := { s.pool with free0 := s.pool.free0 - kvTiles (opf d 22 0 16) }
      gth := { s.gth with caches := put s.gth.caches (opf d 16 0 4) (cacheOf d) } } := by
  have hkeep : ¬opf d 16 7 1 = 1 := by omega
  have howned' : ownedRange s (cacheOf d).tent (cacheOf d).base ((cacheOf d).pages * (cacheOf d).pageBytes) = true := howned
  have htake : takeFree0 (kvTiles (cacheOf d).seqs) s = some _ := takeFree0_enough htiles
  simp only [applyKvDefine, fresh, if_neg hkeep, hfree, howned', htake, Bool.not_true, Bool.false_eq_true, if_false]
  change (if (!pdOn s 23 && !s.gaf.flipping) = true then _ else _) = _
  rw [hpd]
  rfl

/-- KV.DEFINE with DELETE takes out the tent's cache and its views, and its tables' tiles are free again (R259). -/
theorem applyKvDefine_deletes {x : KvCache} (hdel : opf d 16 7 1 = 1) (hpd : pdOn s 23 = true) (hx : find s.gth.caches (opf d 16 0 4) = some x)
    (ho : x.tent = d.tent.toNat) :
    applyKvDefine d s = good { s with
      pool := { s.pool with free0 := s.pool.free0 + kvTiles x.seqs }
      gth := { s.gth with caches := del s.gth.caches (opf d 16 0 4), views := s.gth.views.filter fun v => v.2.1 != opf d 16 0 4 } } := by
  have hown : (x.tent != d.tent.toNat) = false := by simp [ho]
  simp only [applyKvDefine, dtent, fresh, if_pos hdel, hx, hown, hpd, removeCache, giveFree0, updGth, Bool.not_true, Bool.false_and, Bool.false_eq_true, if_false]

/-! ### What the field checks leave to a fuse -/

/-- A check of fields and then of a fuse, where no field is at fault (R445). -/
theorem fuse_of_ne_bad {faulty barred : Bool} (h : (if faulty then some stBadField else if barred then some stFeatureDisabled else none) ≠ some stBadField) :
    (if faulty then some stBadField else if barred then some stFeatureDisabled else none) = if barred then some stFeatureDisabled else none := by
  cases faulty
  · rfl
  · exact absurd rfl h

/-- What is left of the field check of SHAPER.SET where no field is at fault: the fuse of reserved shapers (R445). -/
theorem stageShaperSet_fuse (h : stageShaperSet d ≠ some stBadField) (hset : opf d 18 7 1 = 0) :
    stageShaperSet d = if opf d 18 6 1 = 1 ∧ fused 14 = true then some stFeatureDisabled else none := by
  have hkeep : ¬opf d 18 7 1 = 1 := by omega
  unfold stageShaperSet at h ⊢
  dsimp only at h ⊢
  rw [if_neg hkeep] at h ⊢
  exact (fuse_of_ne_bad h).trans (by simp)

/-- A check that finds fault with fields alone, where it finds none, leaves its command to its fuse (R445). -/
theorem behindFuse_fuse {f : Nat} {check : Desc → Option Nat} (hcheck : check d = none ∨ check d = some stBadField)
    (h : behindFuse f check d ≠ some stBadField) : behindFuse f check d = if fused f = true then some stFeatureDisabled else none := by
  rcases hcheck with hnone | hbad
  · rw [behindFuse, hnone]
  · exact absurd (by rw [behindFuse, hbad]) h

/-- The field check of EMB.DEFINE without DELETE finds fault with fields alone. -/
theorem stageEmbDefine_cases (hset : opf d 17 7 1 = 0) : stageEmbDefine d = none ∨ stageEmbDefine d = some stBadField := by
  have hkeep : ¬opf d 17 7 1 = 1 := by omega
  simp only [stageEmbDefine, if_neg hkeep]
  split
  · exact .inr rfl
  · exact .inl rfl

/-- See `stageEmbDefine_cases`. -/
theorem stageKvDefine_cases (hset : opf d 16 7 1 = 0) : stageKvDefine d = none ∨ stageKvDefine d = some stBadField := by
  have hkeep : ¬opf d 16 7 1 = 1 := by omega
  simp only [stageKvDefine, if_neg hkeep]
  split
  · exact .inr rfl
  · exact .inl rfl

/-- What is left of the field check of EMB.DEFINE where no field is at fault: the fuse of the gather engine (R445). -/
theorem stageEmb_fuse (h : stageEmb d ≠ some stBadField) (hset : opf d 17 7 1 = 0) :
    stageEmb d = if fused 6 = true then some stFeatureDisabled else none := by
  have hfuse : stageEmb d = behindFuse 6 stageEmbDefine d := if_neg (by omega)
  rw [hfuse] at h ⊢
  exact behindFuse_fuse (stageEmbDefine_cases hset) h

/-- What is left of the field check of KV.DEFINE where no field is at fault: the fuse of the KV engine (R445). -/
theorem stageKv_fuse (h : stageKv d ≠ some stBadField) (hset : opf d 16 7 1 = 0) :
    stageKv d = if fused 7 = true then some stFeatureDisabled else none := by
  have hfuse : stageKv d = behindFuse 7 stageKvDefine d := if_neg (by omega)
  rw [hfuse] at h ⊢
  exact behindFuse_fuse (stageKvDefine_cases hset) h

/-! ### The commands, issued alone -/

/-- A command issued alone of which nothing is left to check but a fuse: it answers FEATURE_DISABLED where that bars it, or takes its effect (R445). -/
theorem alone_fused {rule : Rule} {i : Instr} {check : Desc → Option Nat} {P : Prop} [Decidable P] (hf : Fetched q d s s1)
    (happ : AppliesAlone rule q d i s s0 s2) (hcheck : check d = if P then some stFeatureDisabled else none) (ha : applyStaged ⟨i, []⟩ s0 = good s2) :
    fabricDo (runE q d rule false (fun _ => check) (fun _ => []) i alone) s
      = .next (moved s (if P then complete (crefOf q d s1) stFeatureDisabled 0 0 s1 else doneAlone q d i s0 s2)) := by
  split
  · next hbarred =>
    obtain ⟨t, hrun, -⟩ := happ
    obtain rfl := hrun.1.unique hf
    rw [fabricDo_eq, runE_refused hrun _ _ _ _ (hcheck.trans (if_pos hbarred))]
  · next hadmitted => exact alone_applies happ _ (fun _ => hcheck.trans (if_neg hadmitted)) ha

end Definitions

/-- Settles O35: each command by the state that it applies to, those behind a fuse by `alone_fused`. -/
theorem queueShaperTableAndCacheCommandResults : Obligations.QueueShaperTableAndCacheCommandResults := by
  refine ⟨fun q d s s0 => ⟨?queue, ?queueGone, ?cmdq, ?cmdqGone, ?shaper⟩, fun q d s s0 hpd => ⟨?table, ?tableGone, ?cache, ?cacheGone⟩⟩
  case queue =>
    intro hf hfree ht hput hget hring hsource x s2 happ
    exact alone_applies happ (fun _ => stageQueueCreate) (fun _ => hf) (applyQueueCreate_creates hfree ht hput hget hring hsource)
  case queueGone =>
    intro x hf hx ho s2 happ
    exact alone_applies happ (fun _ => stageQueueDestroy) (fun _ => if_pos hf) (applyQueueDestroy_removes hx ho)
  case cmdq =>
    intro y hf hfree ht hlisted hclap hring hsource x s2 happ
    exact alone_applies happ (fun _ => stageCmdqCreate) (fun _ => hf) (applyCmdqCreate_creates hfree ht hlisted hclap hring hsource)
  case cmdqGone =>
    intro hf hx s2 happ
    exact alone_applies happ (fun _ => stageCmdqDestroy) (fun _ => if_pos hf) (applyCmdqDestroy_removes hx)
  case shaper =>
    intro zero hf hset ht hzero hother x s2 s1 hfetched happ
    have hx : x = newShaper d s0.now := by simp [x, newShaper, hzero]
    have ha : applyShaperSet d s0 = good s2 := by rw [applyShaperSet_sets hset ht hother, ← hx]
    exact alone_fused hfetched happ (stageShaperSet_fuse hf hset) ha
  case table =>
    intro hf hset hfree hcodes hparams x s2 s1 hfetched happ
    exact alone_fused hfetched happ (stageEmb_fuse hf hset) (applyEmbDefine_defines hset hpd hfree hcodes hparams)
  case tableGone =>
    intro x hf hdel hx ho s2 happ
    exact alone_applies happ (fun _ => stageEmb) (fun _ => hf) (applyEmbDefine_deletes hdel hpd hx ho)
  case cache =>
    intro hf hset hfree howned htiles s2 s1 hfetched happ
    exact alone_fused hfetched happ (stageKv_fuse hf hset) (applyKvDefine_defines hset hpd hfree howned htiles)
  case cacheGone =>
    intro x hf hdel hx ho s2 happ
    exact alone_applies happ (fun _ => stageKv) (fun _ => hf) (applyKvDefine_deletes hdel hpd hx ho)

end Sys2Proof.Machine

/-! The commands that write the range gate, the routes and a port's ENABLE, issued alone (R63, R321, R363, R449). -/

namespace Sys2Proof.Machine

section GateAndRoutes

variable {d : Desc} {s : State}

/-! ### The range gate -/

/-- An entry of the range gate bars a new one: both edge entries of one source and target, or both pool entries of one source and tent, over a common address (R449). -/
def GateClash (x e : RngEntry) : Prop :=
  x.edge = e.edge ∧ x.source = e.source ∧ (if e.edge then x.target = e.target else x.tent = e.tent) ∧ overlaps x.base x.size e.base e.size = true

/-- What bars a new edge entry. -/
theorem gateClash_edge {x e : RngEntry} (he : e.edge = true) : GateClash x e ↔
    x.edge = true ∧ x.source = e.source ∧ x.target = e.target ∧ overlaps x.base x.size e.base e.size = true := by
  simp [GateClash, he]

/-- What bars a new pool entry. -/
theorem gateClash_pool {x e : RngEntry} (he : e.edge = false) : GateClash x e ↔
    x.edge = false ∧ x.source = e.source ∧ x.tent = e.tent ∧ overlaps x.base x.size e.base e.size = true := by
  simp [GateClash, he]

/-- RNG.ADD by a tent that may name the source, at a free index, of an edge entry to an edge port that no entry bars (R449). -/
theorem applyRngAdd_edge {t : Tent} (ht : tent s d.tent.toNat = some t) (hactive : t.state = .active)
    (hlisted : t.isSealed = true → listed t (rngEntry d).source = true) (hfree : has s.fab.gate (opf d 16 0 14) = false)
    (hedge : (rngEntry d).edge = true) (hport : (edgePortOf s (rngEntry d).target).isSome = true)
    (hclash : ∀ x ∈ s.fab.gate, ¬GateClash x.2 (rngEntry d)) :
    applyRngAdd d s = good { s with fab := { s.fab with gate := put s.fab.gate (opf d 16 0 14) (rngEntry d) } } := by
  have hsealed : (t.isSealed && !listed t (rngEntry d).source) = false := by simpa using hlisted
  have hnone : (s.fab.gate.any fun x => x.2.edge && x.2.source = (rngEntry d).source && x.2.target = (rngEntry d).target
      && overlaps x.2.base x.2.size (rngEntry d).base (rngEntry d).size) = false :=
    List.any_eq_false.2 fun x hx => by simpa [gateClash_edge hedge, and_assoc] using hclash x hx
  have hport' : (edgePortOf s (rngEntry d).target).isNone = false := by simpa using hport
  have ht' : tent s (rngEntry d).tent = some t := ht
  simp only [applyRngAdd, ht', fresh, hactive, hsealed, hfree, hedge, hnone, hport', bne_self_eq_false, Bool.false_and, Bool.false_eq_true, if_false, if_true]

/-- RNG.ADD by a tent that may name the source, at a free index, of a pool entry that no entry bars and under which no other tent's region lies (R449). -/
theorem applyRngAdd_pool {t : Tent} (ht : tent s d.tent.toNat = some t) (hactive : t.state = .active)
    (hlisted : t.isSealed = true → listed t (rngEntry d).source = true) (hfree : has s.fab.gate (opf d 16 0 14) = false)
    (hpool : (rngEntry d).edge = false) (hclash : ∀ x ∈ s.fab.gate, ¬GateClash x.2 (rngEntry d))
    (howned : ∀ r ∈ s.pool.regions, r.2.owner = (rngEntry d).tent ∨ overlaps r.2.base r.2.size (rngEntry d).base (rngEntry d).size = false) :
    applyRngAdd d s = good { s with fab := { s.fab with gate := put s.fab.gate (opf d 16 0 14) (rngEntry d) } } := by
  have hsealed : (t.isSealed && !listed t (rngEntry d).source) = false := by simpa using hlisted
  have hnone : (s.fab.gate.any fun x => !x.2.edge && x.2.source = (rngEntry d).source && x.2.tent = (rngEntry d).tent
      && overlaps x.2.base x.2.size (rngEntry d).base (rngEntry d).size) = false :=
    List.any_eq_false.2 fun x hx => by simpa [gateClash_pool hpool, and_assoc] using hclash x hx
  have hforeign : (s.pool.regions.any fun r => r.2.owner != (rngEntry d).tent
      && overlaps r.2.base r.2.size (rngEntry d).base (rngEntry d).size) = false :=
    List.any_eq_false.2 fun r hr => by rcases howned r hr with h | h <;> simp [h]
  have ht' : tent s (rngEntry d).tent = some t := ht
  simp only [applyRngAdd, ht', fresh, hactive, hsealed, hfree, hpool, hnone, hforeign, bne_self_eq_false, Bool.false_and, Bool.false_eq_true, if_false]

/-- RNG.REMOVE takes the tent's entry out (R321). -/
theorem applyRngRemove_removes {x : RngEntry} (hx : find s.fab.gate (opf d 16 0 14) = some x) (ho : x.tent = d.tent.toNat) :
    applyRngRemove d s = good { s with fab := { s.fab with gate := del s.fab.gate (opf d 16 0 14) } } := by
  simp only [applyRngRemove, hx]
  exact if_pos ho

/-- RNG.MODIFY changes the rights of the tent's entry (R321). -/
theorem applyRngModify_changes {x : RngEntry} (hx : find s.fab.gate (opf d 16 0 14) = some x) (ho : x.tent = d.tent.toNat) :
    applyRngModify d s = good { s with fab := { s.fab with
      gate := put s.fab.gate (opf d 16 0 14) { x with eng := opf d 20 2 1 = 1, wr := opf d 20 1 1 = 1, rd := opf d 20 0 1 = 1 } } } := by
  simp only [applyRngModify, hx]
  exact if_pos ho

/-! ### Routes and ports -/

/-- ROUTE.SET writes the entry that its kind names, but no ATTACH entry of a sealed tent's port (R63, Table 14.6). -/
theorem applyRouteSet_writes (hport : ¬(opf d 16 0 8 = 2 ∧ sealedPort s (opf d 17 0 5) = true)) :
    applyRouteSet d s = good (
      if opf d 16 0 8 = 0 then { s with fab := { s.fab with nodes := put s.fab.nodes (opf d 18 0 12) ⟨opf d 20 0 14, opf d 22 0 14, opf d 24 0 20⟩ } }
      else if opf d 16 0 8 = 1 then { s with fab := { s.fab with
        decoders := put s.fab.decoders (opf d 17 0 5 * 16 + opf d 18 0 12) ⟨opf d 20 0 14, opf d 32 0 64, opf d 40 0 64, opf d 48 0 64⟩ } }
      else if opf d 16 0 8 = 2 then { s with fab := { s.fab with attach := put s.fab.attach (opf d 17 0 5) (opf d 20 0 14) } }
      else { s with fab := { s.fab with self := some (opf d 20 0 14) } }) :=
  if_neg (by simpa using hport)

/-- ROUTE.CLEAR of a NODE entry (R63). -/
theorem applyRouteClear_node (hk : opf d 16 0 8 = 0) (hx : has s.fab.nodes (opf d 18 0 12) = true) :
    applyRouteClear d s = good { s with fab := { s.fab with nodes := del s.fab.nodes (opf d 18 0 12) } } := by
  simp [applyRouteClear, hk, hx]

/-- ROUTE.CLEAR of a DECODER entry (R63). -/
theorem applyRouteClear_decoder (hk : opf d 16 0 8 = 1) (hx : has s.fab.decoders (opf d 17 0 5 * 16 + opf d 18 0 12) = true) :
    applyRouteClear d s = good { s with fab := { s.fab with decoders := del s.fab.decoders (opf d 17 0 5 * 16 + opf d 18 0 12) } } := by
  simp [applyRouteClear, hk, hx]

/-- ROUTE.CLEAR of an ATTACH entry whose port no sealed tent names (R63, Table 14.6). -/
theorem applyRouteClear_attach (hk : opf d 16 0 8 = 2) (hport : sealedPort s (opf d 17 0 5) ≠ true) (hx : has s.fab.attach (opf d 17 0 5) = true) :
    applyRouteClear d s = good { s with fab := { s.fab with attach := del s.fab.attach (opf d 17 0 5) } } := by
  simp [applyRouteClear, hk, hport, hx]

/-- ROUTE.CLEAR of the SELF entry (R63). -/
theorem applyRouteClear_self (hk : opf d 16 0 8 = 3) (hx : s.fab.self.isSome = true) :
    applyRouteClear d s = good { s with fab := { s.fab with self := none } } := by
  obtain ⟨n, hn⟩ := Option.isSome_iff_exists.1 hx
  simp [applyRouteClear, hk, hn]

/-- PORT.ENABLE sets ENABLE of a port whose domain is not off (R363). -/
theorem applyPortEnable_sets (hpd : pdOff s (pdFabric (opf d 16 0 5)) = false) :
    applyPortEnable d s = good (updPort (opf d 16 0 5) (fun x => { x with enable := opf d 17 0 1 = 1 }) s) := by
  simp only [applyPortEnable, fresh, hpd, Bool.false_and, Bool.false_eq_true, if_false]

end GateAndRoutes

/-- Settles O33: each command by the state that it applies to. -/
theorem gateAndRouteCommandResults : Obligations.GateAndRouteCommandResults := by
  refine ⟨fun q d s s0 => ⟨?add, ?remove, ?modify⟩, fun q d s s0 => ⟨?routeSet, ?routeClear, ?portEnable⟩⟩
  case add =>
    intro t hf ht hactive hlisted hfree hedge hpool s2 happ
    refine alone_applies happ (fun _ => stageRngAdd) (fun _ => hf) ?_
    cases he : (rngEntry d).edge with
    | true =>
      obtain ⟨hport, hclash⟩ := hedge he
      exact applyRngAdd_edge ht hactive hlisted hfree he hport fun x hx => mt (gateClash_edge he).1 (hclash x hx)
    | false =>
      obtain ⟨hclash, howned⟩ := hpool he
      exact applyRngAdd_pool ht hactive hlisted hfree he (fun x hx => mt (gateClash_pool he).1 (hclash x hx)) howned
  case remove =>
    intro x hf hx ho s2 happ
    exact alone_applies happ (fun _ => stageRngRemove) (fun _ => if_pos hf) (applyRngRemove_removes hx ho)
  case modify =>
    intro x hf hx ho s2 happ
    exact alone_applies happ (fun _ => stageRngModify) (fun _ => if_pos hf) (applyRngModify_changes hx ho)
  case routeSet =>
    rintro s2 hf hport rfl happ
    exact alone_applies happ (fun _ => stageRouteSet) (fun _ => hf) (applyRouteSet_writes hport)
  case routeClear =>
    intro s2 hf hport hcleared happ
    refine alone_applies happ (fun _ => stageRouteClear) (fun _ => hf) ?_
    rcases hcleared with ⟨hk, hx, rfl⟩ | ⟨hk, hx, rfl⟩ | ⟨hk, hx, rfl⟩ | ⟨hk, hx, rfl⟩
    · exact applyRouteClear_node hk hx
    · exact applyRouteClear_decoder hk hx
    · exact applyRouteClear_attach hk (fun h => hport ⟨hk, h⟩) hx
    · exact applyRouteClear_self hk hx
  case portEnable =>
    intro hf hpd s2 happ
    exact alone_applies happ (fun _ => stagePortEnable) (fun _ => hf) (applyPortEnable_sets hpd)

end Sys2Proof.Machine

/-! The SPDM responder and requester, JTAG and the operator window, and the registers at the management endpoint (R325, R332, R382, R383, R434 to R439). -/

namespace Sys2Proof.Machine

/-- Work that asks for no line is done, and everything that can move then moves. -/
theorem moved_done {s t : State} (h : t.coh.need = s.coh.need) : moved s t = drain t := congrArg drain (held_done h)

section Responder

variable {s : State} (ps : List Byte)

/-! ### SPDM requests to the device (R383) -/

/-- A responder that works answers a request that needs no session. -/
theorem respondTo_answers (h : responds s = true) (code : Nat) : respondTo code ps s = .next (answer code ps s) := by
  rw [respondTo, if_pos h]

/-- GET_MEASUREMENTS is answered over the device's blocks (R332). -/
theorem execGetMeasurements_answers (h : responds s = true) : execGetMeasurements ps s = .next (answer 0xE0 (ps ++ (deviceBlocks s).flatten) s) := by
  rw [execGetMeasurements, if_pos h]

/-- KEY_EXCHANGE opens a session. -/
theorem execKeyExchange_opens (h : responds s = true) : execKeyExchange ps s = .next (answer 0xE4 ps { s with kpr := { s.kpr with spdm := 1 } }) := by
  rw [execKeyExchange, if_pos h]

/-- FINISH completes the session that KEY_EXCHANGE opened. -/
theorem execFinish_completes (h : responds s = true) (hopen : s.kpr.spdm = 1) :
    execFinish ps s = .next (answer 0xE5 ps { s with kpr := { s.kpr with spdm := 2 } }) := by
  simp only [execFinish, h, hopen, Bool.not_true, Bool.false_eq_true, if_false, if_true]

/-- FINISH where no handshake is open is an error. -/
theorem execFinish_refused (h : responds s = true) (hopen : s.kpr.spdm ≠ 1) : execFinish ps s = .next (spdmError 0xE5 s) := by
  simp only [execFinish, h, if_neg hopen, Bool.not_true, Bool.false_eq_true, if_false]

/-- END_SESSION closes a session that is complete. -/
theorem execEndSession_closes (h : responds s = true) (hdone : s.kpr.spdm = 2) :
    execEndSession ps s = .next (answer 0xEC ps { s with kpr := { s.kpr with spdm := 0 } }) := by
  simp only [execEndSession, h, hdone, Bool.not_true, Bool.false_eq_true, if_false, if_true]

/-- END_SESSION where no session is complete is an error. -/
theorem execEndSession_refused (h : responds s = true) (hdone : s.kpr.spdm ≠ 2) : execEndSession ps s = .next (spdmError 0xEC s) := by
  simp only [execEndSession, h, if_neg hdone, Bool.not_true, Bool.false_eq_true, if_false]

end Responder

section Requester

variable {p : BitVec 5} {s : State} (ps : List Byte)

/-! ### SPDM answers of modules and devices (R325, R382) -/

/-- The answer of a module that is admitted and up and has no session opens its session (R382). -/
theorem execSpdmResponse_module (hp : p.toNat < 8) (hadmitted : (tray s p.toNat).admitted = true) (hlink : upOrRetrain (tray s p.toNat).link = true)
    (hnone : (tray s p.toNat).session = false) : execSpdmResponse true p true ps s = .next (moved s (sessionUp p.toNat s)) :=
  fabricDo_of (by simp only [hp, hadmitted, hlink, hnone, decide_true, Bool.and_self, Bool.not_false, if_true])

/-- The state in which the sources of sealed tents on a port have an authentication result (R325). -/
def sourcesAnswered (p : Nat) (ok : Bool) (ps : List Byte) (s : State) : State :=
  { s with kpr := { s.kpr with
    tents := s.kpr.tents.map fun e => (e.1, if e.2.isSealed then { e.2 with sources := e.2.sources.map (authResult p ok ps) } else e.2) } }

/-- The answer of a device on a port that is up, where no keeper operation waits, gives the port's sources their result (R325). -/
theorem execSpdmResponse_source (ok : Bool) (hholds : (domain s (pdFabric p.toNat)).holds = []) (hlink : upOrRetrain (port s p.toNat).link = true) :
    execSpdmResponse false p ok ps s = .next (drain (sourcesAnswered p.toNat ok ps s)) := by
  have hnone : (domain s (pdFabric p.toNat)).holds.contains (.ide p.toNat) = false := by rw [hholds]; rfl
  rw [← moved_done (s := s) (t := sourcesAnswered p.toNat ok ps s) rfl]
  exact fabricDo_of (by simp only [hnone, hlink, Bool.and_false, Bool.false_eq_true, if_false, if_true, sourcesAnswered])

end Requester

section Debug

variable {s : State}

/-! ### JTAG and the operator window -/

/-- A JTAG access to a byte of crew memory is granted where no fuse bars it and the crew's tent consents (Table 14.11). -/
theorem execJtagAccess_crewMem (k : BitVec 7) (o : BitVec 21) (v : Option Byte) :
    execJtagAccess (.crewMem k o v) s = .next (jtagByte (!bit Config.fuseDebug.toNat 0 && (crewTents s k.toNat).all (debugOpen s)) v
      (fun s => byteAt (crewOf s k.toNat).mem o.toNat) (fun b => updCrew k.toNat fun x => { x with mem := setByte x.mem o.toNat b }) s) := rfl

section Window

variable {o : BitVec 28} {n : BitVec 13} (hn : 0 < n.toNat) (hfit : o.toNat + n.toNat ≤ 0x10000000) (hrst : s.chip.inReset = false)
  (hstage : 1 ≤ s.gaf.stage) (hsleep : s.chip.sleep ≠ 2) (hpd : pdOn s 4 = true)

include hn hfit hrst hstage hsleep hpd

/-- An access that lies in the operator window, while the window is served, reads or writes its bytes (R383, R384). -/
theorem execOperatorWindowAccess_served (write : Bool) (data : List Byte) : execOperatorWindowAccess write o n data s = .next (
    if write then windowWrite o.toNat ((data ++ List.replicate n.toNat 0).take n.toNat) s else emit (.read o.toNat (windowRead s o.toNat n.toNat)) s) := by
  have hin : inWindow o.toNat n.toNat = true := decide_eq_true hfit
  have hlive : ¬s.gaf.stage < 1 := by omega
  have hlen : n.toNat ≠ 0 := by omega
  simp [execOperatorWindowAccess, hlen, hin, hrst, hlive, hsleep, hpd]

/-- A write with all its bytes stores exactly those. -/
theorem execOperatorWindowAccess_writes {data : List Byte} (hdata : data.length = n.toNat) :
    execOperatorWindowAccess true o n data s = .next (windowWrite o.toNat data s) := by
  rw [execOperatorWindowAccess_served hn hfit hrst hstage hsleep hpd, if_pos rfl, ← hdata, List.take_left]

end Window

end Debug

section Endpoint

variable {a : BitVec 24} {v : U64} {s : State} (hup : endpointUp s = true)

include hup

/-! ### Registers at the management endpoint (R434 to R436, R439) -/

/-- A read of 8 aligned bytes answers the register. -/
theorem execRegisterReadClear_whole (halign : a.toNat % 8 = 0) : execRegisterReadClear a 8 s = .next (
    emit (.read a.toNat (leBytes 8 (endpointRead a.toNat (2 ^ 64 - 1) s).1)) (endpointRead a.toNat (2 ^ 64 - 1) s).2) := by
  simp [execRegisterReadClear, hup, halign]

/-- A read of 4 aligned bytes answers a half of the register. -/
theorem execRegisterReadClear_half (halign : a.toNat % 4 = 0) : execRegisterReadClear a 4 s = .next (
    emit (.read a.toNat (leBytes 4 (bits (endpointRead (a.toNat - a.toNat % 8) (maskOf (8 * (a.toNat % 8)) 32) s).1 (8 * (a.toNat % 8)) 32)))
      (endpointRead (a.toNat - a.toNat % 8) (maskOf (8 * (a.toNat % 8)) 32) s).2) := by
  simp [execRegisterReadClear, hup, halign]

/-- A write of 8 aligned bytes reaches the assigned register. -/
theorem execRegisterWrite_assigned {r : Reg} {i : Nat} (hserved : writesServed s = true) (halign : a.toNat % 8 = 0) (hr : regAt a.toNat = some (r, i)) :
    execRegisterWrite a 8 v s = .next (endpointWrite r i v.toNat s) := by
  simp [execRegisterWrite, hup, hserved, halign, hr]

/-- A write of another length is discarded and counted (R435). -/
theorem execRegisterWrite_otherLength {n : BitVec 4} (hserved : writesServed s = true) (hn : n ≠ 8) :
    execRegisterWrite a n v s = .next (bump .gafCsrStatus 0 32 16 1 s) := by
  have hlen : (n != 8) = true := bne_iff_ne.2 hn
  simp only [execRegisterWrite, hup, hserved, hlen, Bool.true_or, Bool.not_true, Bool.false_eq_true, if_false, if_true]

end Endpoint

/-- A direct register outside the keeper's block whose domain runs is written (R436). -/
theorem endpointWrite_writes {r : Reg} {s : State} (i v : Nat) (hmap : r.isMap = false) (hblock : r.place.1 ≠ 1) (hon : regOff s r i = false) :
    endpointWrite r i v s = writeReg r i v allMask s := by
  simp [endpointWrite, hmap, hblock, hon]

/-- A write to a direct register outside the keeper's block whose domain does not run is counted (R434). -/
theorem endpointWrite_off {r : Reg} {s : State} {i : Nat} (v : Nat) (hmap : r.isMap = false) (hblock : r.place.1 ≠ 1) (hoff : regOff s r i = true) :
    endpointWrite r i v s = bump .gafCsrStatus 0 16 16 1 s := by
  simp [endpointWrite, hmap, hblock, hoff]

/-- Settles O49: the sessions and the debug accesses each by its own condition, the registers by what an endpoint read and write do. -/
theorem sessionDebugAndEndpointAccess : Obligations.SessionDebugAndEndpointAccess := by
  refine ⟨fun ps s => ⟨fun h => ?responder, fun p hp hadmitted hlink hnone => execSpdmResponse_module ps hp hadmitted hlink hnone,
    fun p ok hholds hlink => execSpdmResponse_source ps ok hholds hlink, rfl, fun k o v => ?jtag, fun o n hn hfit hrst hstage hsleep hpd => ?window⟩,
    fun a v s hup => ⟨fun x s1 halign hread => ?whole, fun x s1 halign hread => ?half, fun r i hserved halign hr => ?write,
      fun n hn hserved => execRegisterWrite_otherLength hup hserved hn⟩⟩
  case responder =>
    exact ⟨respondTo_answers ps h 0x84, respondTo_answers ps h 0xE1, respondTo_answers ps h 0xE3, respondTo_answers ps h 0x81, respondTo_answers ps h 0x82,
      respondTo_answers ps h 0x83, execGetMeasurements_answers ps h, execKeyExchange_opens ps h, execFinish_completes ps h, execFinish_refused ps h,
      execEndSession_closes ps h, execEndSession_refused ps h⟩
  case jtag =>
    refine (execJtagAccess_crewMem k o v).trans ?_
    cases v with
    | none => rfl
    | some b => rfl
  case window =>
    exact ⟨execOperatorWindowAccess_served hn hfit hrst hstage hsleep hpd false ps, fun hdata => execOperatorWindowAccess_writes hn hfit hrst hstage hsleep hpd hdata⟩
  case whole =>
    refine (execRegisterReadClear_whole hup halign).trans ?_
    rw [hread]
  case half =>
    refine (execRegisterReadClear_half hup halign).trans ?_
    rw [hread]
  case write =>
    have hwrite : exec (.registerWrite a 8 v) s = _ := execRegisterWrite_assigned hup hserved halign hr
    rw [hwrite]
    exact ⟨fun hmap hblock hon => by rw [endpointWrite_writes i v.toNat hmap hblock hon], fun hmap hblock hoff => by rw [endpointWrite_off v.toNat hmap hblock hoff]⟩

end Sys2Proof.Machine

/-! Tamper alarms, samples of the mesh and of the temperature, accepted inputs, and the function-switched pins (R334, R419 to R429). -/

namespace Sys2Proof.Machine

section Logging

variable {s : State}

/-! ### What an entry of the RAS log leaves alone -/

@[simp] theorem attn_chip (b : Nat) (s : State) : (attn b s).chip = s.chip := by
  obtain ⟨csr, out, h⟩ := attn_same b s
  rw [h]

@[simp] theorem attn_kpr (b : Nat) (s : State) : (attn b s).kpr = s.kpr := by
  obtain ⟨csr, out, h⟩ := attn_same b s
  rw [h]

/-- A RAS entry leaves the chip alone (R358). -/
@[simp] theorem ras_chip (code severity : Nat) (t : Option Nat) (node detail offset : Nat) (s : State) :
    (ras code severity t node detail offset s).chip = s.chip := by
  by_cases hfull : s.kpr.ras.length ≥ 4096
  · simp only [ras, clock_eq, hfull, if_true, apply_ite State.chip, attn_chip, setFld_chip, bump_chip, ite_self]
  · simp only [ras, clock_eq, hfull, if_false, apply_ite State.chip, attn_chip, setFld_chip, ite_self]

/-- Of the keeper's part a RAS entry changes the log and its numbering alone (R358). -/
theorem ras_kpr (code severity : Nat) (t : Option Nat) (node detail offset : Nat) (s : State) : ∃ log,
    (ras code severity t node detail offset s).kpr = { s.kpr with ras := log, rasNext := s.kpr.rasNext + 1 } := by
  by_cases hfull : s.kpr.ras.length ≥ 4096
  · simp only [ras, clock_eq, hfull, if_true, apply_ite State.kpr, attn_kpr, setFld_kpr, bump_kpr, ite_self]
    exact ⟨_, rfl⟩
  · simp only [ras, clock_eq, hfull, if_false, apply_ite State.kpr, attn_kpr, setFld_kpr, ite_self]
    exact ⟨_, rfl⟩

@[simp] theorem ras_deviceKey (code severity : Nat) (t : Option Nat) (node detail offset : Nat) (s : State) :
    (ras code severity t node detail offset s).kpr.deviceKey = s.kpr.deviceKey := by
  obtain ⟨_, h⟩ := ras_kpr code severity t node detail offset s
  rw [h]

@[simp] theorem ras_lockdown (code severity : Nat) (t : Option Nat) (node detail offset : Nat) (s : State) :
    (ras code severity t node detail offset s).kpr.lockdown = s.kpr.lockdown := by
  obtain ⟨_, h⟩ := ras_kpr code severity t node detail offset s
  rw [h]

end Logging

section Alarms

variable {s : State}

/-! ### Alarms (R334, Table 14.12) -/

/-- Setting a latch changes no key, no lockdown and nothing of the chip. -/
theorem setLatch_same (src : Nat) (s : State) : (setLatch src s).chip = s.chip ∧ (setLatch src s).kpr.deviceKey = s.kpr.deviceKey
    ∧ (setLatch src s).kpr.lockdown = s.kpr.lockdown := by
  unfold setLatch
  split
  · exact ⟨rfl, rfl, rfl⟩
  · split
    · exact ⟨rfl, rfl, rfl⟩
    · exact ⟨rfl, rfl, rfl⟩

/-- The state in which a hard alarm is logged. -/
def hardLogged (detail : Nat) (s : State) : State := ras 0x0D 3 none (selfNode s) detail 0 s

/-- Tamper lockdown: keeper operations aborted, every key zeroised, every tent fenced, commits and training stopped; a device in SLEEP1 wakes. -/
def lockDown (s : State) : State :=
  let zeroed := holdDiff s (zeroiseAll (abortKeyOps s))
  let fenced := fenceTents (keys zeroed.kpr.tents) zeroed
  let locked := holdTraining (dropCommits { fenced with kpr := { fenced.kpr with lockdown := true } })
  if locked.chip.sleep = 1 || locked.chip.sleepOp.any (·.state = 1) then wakeBy 4 locked else locked

/-- A hard alarm before there is a device key halts boot. -/
theorem hardResponse_boot (detail : Nat) (hkey : s.kpr.deviceKey = false) (hlock : s.kpr.lockdown = false) (hsleep : s.chip.sleep = 0) :
    hardResponse detail s = bootHaltNow (hardLogged detail s) :=
  if_pos (by simp [hkey, hlock, hsleep])

/-- Any other hard alarm is a lockdown. -/
theorem hardResponse_locks (detail : Nat) (h : s.kpr.deviceKey = true ∨ s.kpr.lockdown = true ∨ s.chip.sleep ≠ 0) :
    hardResponse detail s = lockDown (hardLogged detail s) := by
  have hserved : ¬(!(hardLogged detail s).kpr.deviceKey && !(hardLogged detail s).kpr.lockdown && (hardLogged detail s).chip.sleep = 0) = true := by
    rcases h with h | h | h <;> simp [hardLogged, h]
  unfold hardLogged at hserved ⊢
  unfold hardResponse lockDown
  with_reducible exact if_neg hserved

/-- A source that has not latched latches, and the alarm has its response (Table 18.6). -/
theorem hardAlarm_fresh {src : Nat} (h0 : src ≠ 0) (h3 : src ≤ 3) (hl : latched s src = false) : hardAlarm src s = hardResponse src (setLatch src s) :=
  if_neg (by simp [h0, hl, Nat.not_lt.2 h3])

/-- A source that has latched does not alarm again (Table 18.6). -/
theorem hardAlarm_latched {src : Nat} (hl : latched s src = true) : hardAlarm src s = s := if_pos (by simp [hl])

section Fresh

variable {src : Nat} (h0 : src ≠ 0) (h3 : src ≤ 3) (hl : latched s src = false)

include h0 h3 hl

/-- See `hardResponse_boot`. -/
theorem hardAlarm_boot (hkey : s.kpr.deviceKey = false) (hlock : s.kpr.lockdown = false) (hsleep : s.chip.sleep = 0) :
    hardAlarm src s = bootHaltNow (hardLogged src (setLatch src s)) := by
  obtain ⟨hchip, hkey', hlock'⟩ := setLatch_same src s
  rw [hardAlarm_fresh h0 h3 hl, hardResponse_boot src (hkey'.trans hkey) (hlock'.trans hlock) (by rw [hchip, hsleep])]

/-- See `hardResponse_locks`. -/
theorem hardAlarm_locks (h : s.kpr.deviceKey = true ∨ s.kpr.lockdown = true ∨ s.chip.sleep ≠ 0) :
    hardAlarm src s = lockDown (hardLogged src (setLatch src s)) := by
  obtain ⟨hchip, hkey, hlock⟩ := setLatch_same src s
  rw [hardAlarm_fresh h0 h3 hl, hardResponse_locks src (by rwa [hkey, hlock, hchip])]

end Fresh

/-- The soft alarms of the second that ends now, this one with them. -/
def recentSoft (s : State) : List Nat :=
  s.kpr.soft.filter (fun t => s.now + Config.free s.freeIx < t + 1000000000) ++ [s.now + Config.free s.freeIx]

/-- The state in which a soft alarm is counted and shown. -/
def softNoted (hot : Bool) (s : State) : State :=
  attn 11 (setFld .kprTamperStatus 0 (if hot then 4 else 3) 1 1 (bump .kprTamperStatus 0 48 8 1
    { s with freeIx := s.freeIx + 1, now := s.now + Config.free s.freeIx, kpr := { s.kpr with soft := recentSoft s } }))

/-- The state in which a soft alarm is logged as well. -/
def softLogged (hot : Bool) (s : State) : State := hardLogged (if hot then 5 else 4) (softNoted hot s)

/-- A soft alarm by its cases (Table 14.12). -/
theorem softAlarm_eq (hot : Bool) (s : State) : softAlarm hot s =
    if 4 ≤ (recentSoft s).length then hardResponse (if hot then 5 else 4) (softNoted hot s)
    else if (softLogged hot s).chip.sleep != 0 then softLogged hot s
    else if !(softLogged hot s).kpr.deviceKey && !(softLogged hot s).kpr.lockdown then bootHaltNow (softLogged hot s)
    else fenceTents (servedTents (softLogged hot s)) (abortKeyOps (softLogged hot s)) := rfl

@[simp] theorem softLogged_chip (hot : Bool) (s : State) : (softLogged hot s).chip = s.chip := by simp [softLogged, hardLogged, softNoted]

@[simp] theorem softLogged_deviceKey (hot : Bool) (s : State) : (softLogged hot s).kpr.deviceKey = s.kpr.deviceKey := by
  simp [softLogged, hardLogged, softNoted]

@[simp] theorem softLogged_lockdown (hot : Bool) (s : State) : (softLogged hot s).kpr.lockdown = s.kpr.lockdown := by
  simp [softLogged, hardLogged, softNoted]

/-- The fourth soft alarm within a second is a hard alarm. -/
theorem softAlarm_fourth {hot : Bool} (h : 4 ≤ (recentSoft s).length) : softAlarm hot s = hardResponse (if hot then 5 else 4) (softNoted hot s) :=
  if_pos h

section Single

variable {hot : Bool} (h : (recentSoft s).length < 4)

include h

/-- A soft alarm of a device that sleeps is only noted. -/
theorem softAlarm_asleep (hsleep : s.chip.sleep ≠ 0) : softAlarm hot s = softLogged hot s := by
  rw [softAlarm_eq, if_neg (Nat.not_le.2 h), if_pos (by simpa using hsleep)]

/-- A soft alarm before there is a device key halts boot. -/
theorem softAlarm_boot (hsleep : s.chip.sleep = 0) (hkey : s.kpr.deviceKey = false) (hlock : s.kpr.lockdown = false) :
    softAlarm hot s = bootHaltNow (softLogged hot s) := by
  rw [softAlarm_eq, if_neg (Nat.not_le.2 h), if_neg (by simp [hsleep]), if_pos (by simp [hkey, hlock])]

/-- Any other soft alarm aborts the keeper's operations and fences the tents that they serve. -/
theorem softAlarm_fences (hsleep : s.chip.sleep = 0) (hkeyed : s.kpr.deviceKey = true ∨ s.kpr.lockdown = true) :
    softAlarm hot s = fenceTents (servedTents (softLogged hot s)) (abortKeyOps (softLogged hot s)) := by
  rw [softAlarm_eq, if_neg (Nat.not_le.2 h), if_neg (by simp [hsleep]), if_neg (by rcases hkeyed with h | h <;> simp [h])]

end Single

/-- A tamper alarm does what its response does, and what waited then moves. -/
theorem execTamperHardAlarm_of {k : BitVec 2} {t : State} (h : hardAlarm k.toNat s = t) : execTamperHardAlarm k s = .next (moved s t) := fabricDo_of h

/-- See `execTamperHardAlarm_of`. -/
theorem execTamperSoftAlarm_of {hot : Bool} {t : State} (h : softAlarm hot s = t) : execTamperSoftAlarm hot s = .next (moved s t) := fabricDo_of h

/-! ### Samples (R420, R428, R429) -/

/-- The state after a mesh sample, before its alarm: how many in a row differed, and the next pattern, a free one. -/
def meshSampled (l : Bool) (s : State) : State :=
  { s with freeIx := s.freeIx + 1, kpr := { s.kpr with
    lfsr := BitVec.ofNat 16 (Config.free s.freeIx), meshMiss := if l = s.kpr.lfsr.getLsbD 0 then 0 else s.kpr.meshMiss + 1 } }

/-- The second mesh sample in a row that differs is a hard alarm (R420). -/
theorem execMeshSample_eq (l : Bool) (s : State) :
    execMeshSample l s = .next (moved s (if 2 ≤ (meshSampled l s).kpr.meshMiss then hardAlarm 3 (meshSampled l s) else meshSampled l s)) := rfl

/-- THERM_N after a reading (R429). -/
def thermMoved (t : BitVec 16) (s : State) : State :=
  { s with chip := { s.chip with
    therm := if (fld s .pinTherm 0 48 8 : Int) * 16 ≤ t.toInt then true else if t.toInt < ((fld s .pinTherm 0 48 8 : Int) - 5) * 16 then false else s.chip.therm } }

/-- The state that shows a reading: TEMP, and PEAK where it is the highest yet. -/
def tempShown (t : BitVec 16) (s : State) : State :=
  let s := setFld .pinTherm 0 0 16 t.toNat s
  if degrees (fld s .pinTherm 0 32 16) < t.toInt then setFld .pinTherm 0 32 16 t.toNat s else s

/-- A reading within −10 to 115 °C is shown, kept where it is the highest, and no alarm (R428). -/
theorem execTempSample_inRange {t : BitVec 16} (hbank : ioBank s = true) (hlow : -160 ≤ t.toInt) (hhigh : t.toInt ≤ 1840) :
    execTempSample t s = .next (moved s (tempShown t (thermMoved t s))) := by
  have hbank' : ioBank (thermMoved t s) = true := hbank
  refine fabricDo_of ?_
  change (if !ioBank (thermMoved t s) then thermMoved t s
    else if t.toInt < -160 || 1840 < t.toInt then softAlarm true (tempShown t (thermMoved t s)) else tempShown t (thermMoved t s)) = _
  rw [if_neg (by simp [hbank']), if_neg (by simp [Int.not_lt.2 hlow, Int.not_lt.2 hhigh])]

end Alarms

section Inputs

variable {c n : Nat} {l : Bool} {s : State}

/-! ### Accepted inputs (R387, R419, R420, Tables 18.5, 18.6, 18.8) -/

/-- What an accepted level does, by the code of its input. -/
def acceptInput (c : Nat) (l : Bool) (s : State) : State :=
  if c = 0 then acceptReset l s
  else if c = 1 then acceptWake l s
  else if c ≤ 4 then acceptTamper c l s
  else if c ≤ 8 then acceptIrq c l s
  else if 16 ≤ c then acceptGpf (c - 16) l s
  else s

/-- An accepted level does what its input does with it, and what waited then moves. -/
theorem execInputAccepted_of {p : BitVec 5} {t : State} (h : acceptInput p.toNat l s = t) : execInputAccepted p l s = .next (moved s t) :=
  fabricDo_of h

/-- Codes 5 to 8 are the interrupt inputs (Table 18.21). -/
theorem acceptInput_irq (h5 : 5 ≤ c) (h8 : c ≤ 8) : acceptInput c l s = acceptIrq c l s := by
  rw [acceptInput, if_neg (by omega), if_neg (by omega), if_neg (by omega), if_pos h8]

/-- Codes from 16 on are the function-switched pins (Table 18.21). -/
theorem acceptInput_gpf (h16 : 16 ≤ c) : acceptInput c l s = acceptGpf (c - 16) l s := by
  rw [acceptInput, if_neg (by omega), if_neg (by omega), if_neg (by omega), if_neg (by omega), if_pos h16]

/-- The reset pin's release ends the hold (R387). -/
theorem acceptReset_release (hheld : s.chip.pinHeld = true) : acceptReset true s =
    { updInput 0 (fun x => { x with level := true }) s with
      chip := { (updInput 0 (fun x => { x with level := true }) s).chip with pinHeld := false } } := by
  have hheld' : (updInput 0 (fun x => { x with level := true }) s).chip.pinHeld = true := hheld
  simp only [acceptReset, Bool.not_true, Bool.false_eq_true, if_false, if_pos hheld']

/-- A release of the reset pin before its assertion counted is a glitch (R419). -/
theorem acceptReset_early (hheld : s.chip.pinHeld = false) (hwas : (input s 0).level = false) :
    acceptReset true s = countGlitch 0 (updInput 0 (fun x => { x with level := true }) s) := by
  have hheld' : (updInput 0 (fun x => { x with level := true }) s).chip.pinHeld = false := hheld
  simp only [acceptReset, Bool.not_true, hheld', hwas, Bool.false_eq_true, if_false]

/-- An assertion of the reset pin, or a release of a pin that was not asserted, is only taken in. -/
theorem acceptReset_level (h : l = false ∨ s.chip.pinHeld = false ∧ (input s 0).level = true) :
    acceptReset l s = updInput 0 (fun x => { x with level := l }) s := by
  have hheld : (updInput 0 (fun x => { x with level := l }) s).chip.pinHeld = s.chip.pinHeld := rfl
  rcases h with rfl | ⟨hfree, hwas⟩
  · rfl
  · simp only [acceptReset, hheld, hfree, hwas, Bool.false_eq_true, if_false, if_true, ite_self]

/-- A level of the lid or the light sensor: a rise is a hard alarm. -/
theorem acceptTamper_sensor (hc : c ≠ 4) : acceptTamper c l s = if l && !(input s c).level then hardAlarm (c - 1) (updInput c (fun x => { x with level := l }) s)
    else updInput c (fun x => { x with level := l }) s := by
  have hne : (c != 4) = true := bne_iff_ne.2 hc
  simp only [acceptTamper, hne, Bool.and_true]

/-- A level of the mesh input is only taken in: its samples alarm. -/
theorem acceptTamper_mesh : acceptTamper 4 l s = updInput 4 (fun x => { x with level := l }) s := by
  simp [acceptTamper]

/-- A level of an interrupt input while the I/O bank works: a fall is an event, and starts the time after which the input is stuck. -/
theorem acceptIrq_live (h : ioBank s = true) : acceptIrq c l s =
    if (input s c).level && !l then startLimit (stuckLimit c) 10000000 (setFld .pinIrqStatus 0 (c - 5) 1 1
      (updInput c (fun x => { x with level := l, stuck := if l then false else x.stuck }) s))
    else updInput c (fun x => { x with level := l, stuck := if l then false else x.stuck }) s := by
  simp only [acceptIrq, h, Bool.not_true, Bool.false_eq_true, if_false, irqEvent]

/-- What a level does to a function-switched pin: an interrupt that ends is not stuck, and a fan's falling edges count. -/
def gpfLevel (l : Bool) (x : Pin) : Pin :=
  { x with level := l, stuck := if x.func = 3 && l = x.polarity then x.stuck else false, edges := if x.func = 5 && x.level && !l then x.edges + 1 else x.edges }

/-- A level of a connected input pin while the I/O bank works: an interrupt's assertion is an event, and starts the time after which the input is stuck. -/
theorem acceptGpf_live (h : ioBank s = true) (hin : gpfInput s n = true) : acceptGpf n l s =
    if (pin s n).func = 3 && l = (pin s n).polarity && (pin s n).level != (pin s n).polarity
    then startLimit (stuckLimit (16 + n)) 10000000 (setFld .pinIrqStatus 0 (4 + n) 1 1 (updPin n (gpfLevel l) s)) else updPin n (gpfLevel l) s := by
  have hserved : ¬(!ioBank s || !gpfInput s n) = true := by simp [h, hin]
  rw [acceptGpf, if_neg hserved]
  rfl

/-- A discarded excursion of an always-on input is counted (R419). -/
theorem execInputGlitch_counts {p : BitVec 5} (hp : p.toNat ≤ 4) : execInputGlitch p s = .next (countGlitch p.toNat s) := by
  simp [execInputGlitch, hp]

/-- An interrupt input still low at the end of its time is stuck. -/
theorem execStuckTimer_irq {p : BitVec 5} (h : ioBank s = true) (h5 : 5 ≤ p.toNat) (h8 : p.toNat ≤ 8) (hlow : (input s p.toNat).level = false) :
    execStuckTimer p s = .next (updInput p.toNat (fun x => { x with stuck := true }) (limitOver (stuckLimit p.toNat) s)) := by
  simp [execStuckTimer, h, h5, h8, hlow]

/-- A connected interrupt pin still asserted at the end of its time is stuck. -/
theorem execStuckTimer_gpf {p : BitVec 5} (h : ioBank s = true) (h16 : 16 ≤ p.toNat) (hfunc : (pin s (p.toNat - 16)).func = 3)
    (hsafe : (pin s (p.toNat - 16)).safe = false) (hactive : (pin s (p.toNat - 16)).level = (pin s (p.toNat - 16)).polarity) :
    execStuckTimer p s = .next (updPin (p.toNat - 16) (fun x => { x with stuck := true }) (limitOver (stuckLimit p.toNat) s)) := by
  have hirq : ¬p.toNat ≤ 8 := by omega
  simp [execStuckTimer, h, h16, hirq, hfunc, hsafe, hactive]

/-! ### Function-switched pins (R423, R425) -/

/-- A pin in its safe interval drives its safe level. -/
theorem gpfDrive_safe (h : ioBank s = true) (hsafe : (pin s n).safe = true) : gpfDrive s n = .level (safeLevel n) := by
  simp [gpfDrive, h, hsafe]

/-- Each second a fan's edges become its speed. -/
theorem execTachUpdate_fan {p : BitVec 4} (hfunc : (pin s p.toNat).func = 5) :
    execTachUpdate p s = .next (updPin p.toNat (fun x => { x with tach := min x.edges 65535, edges := 0 }) s) := by
  rw [execTachUpdate, if_pos hfunc]

/-- At the end of its safe interval a pin's new function is connected. -/
theorem execSafeIntervalEnd_connects {p : BitVec 4} (hsafe : (pin s p.toNat).safe = true) : execSafeIntervalEnd p s = .next
    (updPin p.toNat (fun x => { x with safe := false, level := x.func = 3 && !x.polarity, edges := 0, tach := 0, stuck := false }) s) := by
  rw [execSafeIntervalEnd, if_pos hsafe]

end Inputs

/-- Settles O55: alarms by their responses, samples and inputs by what each input does with a level. -/
theorem tamperAndPinEvents : Obligations.TamperAndPinEvents := by
  refine ⟨fun k s hk => ?hard, fun hot s => ⟨s.now + Config.free s.freeIx, Nat.le_add_right _ _, ?soft⟩, fun l s => ⟨BitVec.ofNat 16 (Config.free s.freeIx), execMeshSample_eq l s⟩,
    fun t s hbank hlow hhigh => execTempSample_inRange hbank hlow hhigh, fun n l s => ?inputs,
    fun n s => ⟨gpfDrive_safe, execTachUpdate_fan, execSafeIntervalEnd_connects⟩⟩
  case hard =>
    have h0 : k.toNat ≠ 0 := fun h => hk (BitVec.eq_of_toNat_eq h)
    have h3 : k.toNat ≤ 3 := by omega
    intro s0 s1 zeroed fenced locked
    refine ⟨fun hl hkey hlock hsleep => execTamperHardAlarm_of (hardAlarm_boot h0 h3 hl hkey hlock hsleep),
      fun hl h => execTamperHardAlarm_of ((hardAlarm_locks h0 h3 hl h).trans ?_), fun hl => ?_⟩
    · unfold lockDown hardLogged
      with_reducible rfl
    · rw [← moved_self]
      exact execTamperHardAlarm_of (hardAlarm_latched hl)
  case soft =>
    intro recent n s1 s2
    exact ⟨fun h => execTamperSoftAlarm_of (softAlarm_fourth h), fun h hsleep => execTamperSoftAlarm_of (softAlarm_asleep h hsleep),
      fun h hsleep hkey hlock => execTamperSoftAlarm_of (softAlarm_boot h hsleep hkey hlock),
      fun h hsleep hkeyed => execTamperSoftAlarm_of (softAlarm_fences h hsleep hkeyed)⟩
  case inputs =>
    intro at_ was
    refine ⟨?release, ?early, ?level, ?wake, ?sensor, ?mesh, ?irq, ?gpf, execInputGlitch_counts, execStuckTimer_irq, execStuckTimer_gpf⟩
    case release =>
      rintro rfl rfl hheld
      exact execInputAccepted_of (acceptReset_release hheld)
    case early =>
      rintro rfl rfl hheld hwas
      exact execInputAccepted_of (acceptReset_early hheld hwas)
    case level =>
      rintro rfl h
      exact execInputAccepted_of (acceptReset_level h)
    case wake =>
      rintro rfl
      exact execInputAccepted_of rfl
    case sensor =>
      rintro (rfl | rfl)
      · exact execInputAccepted_of (acceptTamper_sensor (by decide))
      · exact execInputAccepted_of (acceptTamper_sensor (by decide))
    case mesh =>
      rintro rfl
      exact execInputAccepted_of acceptTamper_mesh
    case irq =>
      intro hbank h5 h8
      exact execInputAccepted_of ((acceptInput_irq h5 h8).trans (acceptIrq_live hbank))
    case gpf =>
      intro hbank h16 hin
      exact execInputAccepted_of ((acceptInput_gpf h16).trans (acceptGpf_live hbank hin))

end Sys2Proof.Machine

/-! Queries and debug consent: STATUS, FEATURE.QUERY, IDENTIFY, LOG.READ (Table 2.10, R359), and the giving, the revoking and the expiry of consent (R333). -/

namespace Sys2Proof.Machine

section Queries

variable {q : QId} {d : Desc} {c : CRef} {s s2 : State} {t : BitVec 7} {k : BitVec 4}

/-! ### IDENTIFY -/

/-- The operator's IDENTIFY names a page of its window (R384). -/
theorem fieldsIdentify_operator (hf : onlyFields d [(16, 0, 64)] = true) (ha : opf d 16 0 64 + 4096 ≤ 0x10000000) : fieldsIdentify .operator d = none := by
  simp [fieldsIdentify, hf, inWindow, windowBytes, ha]

/-- A tent's IDENTIFY may name any address; what lies there is for its body to check. -/
theorem fieldsIdentify_tent (hf : onlyFields d [(16, 0, 64)] = true) : fieldsIdentify (.tent t k) d = none := by
  simp [fieldsIdentify, hf]

/-- IDENTIFY of a tent whose page lies in a region of its own, and which its queue's source may write, writes the identity page there. -/
theorem bodyIdentify_tent (howned : ringOwned s t.toNat (opf d 16 0 64) 4096 = true)
    (hwrite : engWriteS (((getQ s (.tent t k)).map (·.source)).getD 0) t.toNat (opf d 16 0 64) identityPage s = (true, s2)) :
    bodyIdentify (.tent t k) d c s = complete c 0 0 0 s2 := by
  simp only [bodyIdentify, howned, hwrite, Bool.not_true, Bool.false_eq_true, if_false, if_true]
  rfl

/-! ### LOG.READ -/

/-- Choosing entries of a log by their sequence and then giving their bytes is the same as choosing among the pairs of both. -/
theorem logPairs_chosen (ras : List RasEntry) (first n : Nat) :
    ((ras.map fun e => (e.seq, rasBytes e)).filter fun e => first ≤ e.1).take n
      = ((ras.filter fun e => first ≤ e.seq).take n).map fun e => (e.seq, rasBytes e) := by
  rw [List.filter_map, List.map_take]
  rfl

/-- LOG.READ of the RAS log writes the entries held from FIRST_SEQ on, at most MAX of them, and answers how many there are and the sequence after the last; FIRST_SEQ where there are none (R359). -/
theorem bodyLogRead_ras (hlog : opf d 16 0 8 = 0) :
    let xs := (s.kpr.ras.filter fun e => opf d 32 0 64 ≤ e.seq).take (opf d 20 0 32)
    bodyLogRead d c s = complete c 0 0 (place (xs.getLast?.elim (opf d 32 0 64) (·.seq + 1)) 32 32 ||| xs.length)
      (windowWrite (opf d 24 0 64) (xs.map rasBytes).flatten s) := by
  intro xs
  have hpairs := logPairs_chosen s.kpr.ras (opf d 32 0 64) (opf d 20 0 32)
  have hbytes : (xs.map fun e => (e.seq, rasBytes e)).map Prod.snd = xs.map rasBytes := by rw [List.map_map]; rfl
  simp only [bodyLogRead, hlog, if_true, hpairs, Nat.not_lt_zero, if_false]
  rw [hbytes, List.getLast?_map, List.length_map]
  cases xs.getLast? <;> rfl

/-! ### Debug consent -/

/-- DEBUG.CONSENT for an active tent without consent: a valid token is noted and opens consent from a reading of the clock on; any other is NOT_PERMITTED and counted (R333). -/
theorem bodyConsent_judges {x : Tent} {bs : List Byte} (hbytes : tokenBytes q (opf d 16 0 64) s = (some bs, s2)) (hx : tent s2 (dtent d) = some x)
    (hactive : x.state = .active) (hnone : x.consent = none) :
    let f (o n : Nat) : Nat := leNat ((bs.drop o).take n)
    let now := s2.now + Config.free s2.freeIx
    bodyConsent q d c s =
      if tokenValid (dtent d) x bs then complete c 0 0 0 (bump .kprConsentStats 0 16 16 1
        (updTent (dtent d) (fun y => { y with serial := f 8 8, consent := some (now + f 16 4 * 1000000000, bits (f 5 1) 0 2, f 8 8) })
          { s2 with freeIx := s2.freeIx + 1, now := now }))
      else complete c 0x0201 0 0 (bump .kprConsentStats 0 48 16 1 s2) := by
  intro f now
  simp only [bodyConsent, hbytes, hx, hactive, hnone, decide_true, Bool.true_and, Option.isSome_none, Bool.false_eq_true, if_false, clock_eq]
  rfl

/-- DEBUG.REVOKE ends the tent's consent (R333). -/
theorem bodyRevoke_ends {x : Tent} (hx : tent s (dtent d) = some x) (hconsent : x.consent.isSome = true) :
    bodyRevoke d c s = complete c 0 0 0 (updTent (dtent d) (fun y => { y with consent := none }) s) := by
  obtain ⟨e, he⟩ := Option.isSome_iff_exists.1 hconsent
  simp only [bodyRevoke, hx, Option.bind_some, he]
  rfl

/-- Consent that reaches its end is over, and counted (R333). -/
theorem execConsentExpiry_ends {x : Tent} {ends scope serial : Nat} (hx : tent s t.toNat = some x) (hconsent : x.consent = some (ends, scope, serial)) :
    execConsentExpiry t s = .next (bump .kprConsentStats 0 0 16 1 (clockTo ends (updTent t.toNat (fun y => { y with consent := none }) s))) := by
  simp only [execConsentExpiry, hx, Option.bind_some, hconsent]

end Queries

/-- Settles O29: each command by its body, the expiry by what ends a consent. -/
theorem queryAndConsentResults : Obligations.QueryAndConsentResults := by
  refine ⟨fun q d s s1 => ⟨?status, ?features, ?identifyOperator, ?identifyTent, ?logRead⟩, ?consent, ?revoke, ?expiry⟩
  case status =>
    intro hrun hops
    exact congrArg Host.Outcome.next (runI_runs hrun _ _ (fieldsNone_of_ops_zero hops))
  case features =>
    intro hrun hops
    exact congrArg Host.Outcome.next (runI_runs hrun _ _ (fieldsNone_of_ops_zero hops))
  case identifyOperator =>
    rintro a rfl hrun hf rfl ha
    exact congrArg Host.Outcome.next (runI_runs hrun _ _ (fieldsIdentify_operator hf ha))
  case identifyTent =>
    rintro t k a s2 rfl hrun hf rfl howned hwrite
    exact congrArg Host.Outcome.next ((runI_runs hrun _ _ (fieldsIdentify_tent hf)).trans (bodyIdentify_tent howned hwrite))
  case logRead =>
    rintro a n first hrun hf hlog rfl rfl rfl xs next
    have hnext : next = xs.getLast?.elim (opf d 32 0 64) (·.seq + 1) := by
      cases hlast : xs.getLast? <;> simp only [next, hlast, Option.elim]
    rw [hnext]
    exact congrArg Host.Outcome.next ((runI_runs hrun _ _ hf).trans (bodyLogRead_ras hlog))
  case consent =>
    intro q d s s1 x bs s2 hrun hf hbytes hx hactive hnone f
    exact ⟨s2.now + Config.free s2.freeIx, Nat.le_add_right _ _,
      congrArg Host.Outcome.next ((runI_runs hrun _ _ hf).trans (bodyConsent_judges hbytes hx hactive hnone))⟩
  case revoke =>
    intro q d s s1 x hrun hops hx hconsent
    exact congrArg Host.Outcome.next ((runI_runs hrun _ _ (fieldsNone_of_ops_zero hops)).trans (bodyRevoke_ends hx hconsent))
  case expiry =>
    intro t x ends scope serial s hx hconsent
    exact execConsentExpiry_ends hx hconsent

end Sys2Proof.Machine

/-! Scalar instructions: what each operation on 64-bit values gives as a number, and the instructions that retire with it (Tables 8.5 to 8.8). -/

namespace Sys2Proof.Machine

section ScalarResults

variable {c : CellId} {s : State}

/-- An instruction retires with whatever value its cell computes, however that value is spelled. -/
theorem runG_value (h : Ready c s) (i : Instr) (d : BitVec 5) {f g : Cell → U64} (hv : f (cellOf s (cellNum c)) = g (cellOf s (cellNum c))) :
    (.next (runG c i d f s) : Res) = .next (retiredG c d g s) := by
  rw [runG_ready h]
  simp only [retiredG, retired, updCell, hv]

/-- See `runG_value`, for a predicate. -/
theorem runP_value (h : Ready c s) (i : Instr) (d : BitVec 3) {f g : Cell → BitVec 32} (hv : f (cellOf s (cellNum c)) = g (cellOf s (cellNum c))) :
    (.next (runP c i d f s) : Res) = .next (retiredP c d g s) := by
  rw [runP_ready h]
  simp only [retiredP, retired, updCell, hv]

/-! ### Shifts -/

theorem shiftLeft_eq_mul (v : U64) (n : Nat) : v <<< n = BitVec.ofNat 64 (v.toNat * 2 ^ n) :=
  BitVec.eq_of_toNat_eq (by simp [Nat.shiftLeft_eq])

theorem ushiftRight_eq_div (v : U64) (n : Nat) : v >>> n = BitVec.ofNat 64 (v.toNat / 2 ^ n) := by
  rw [← Nat.shiftRight_eq_div_pow, ← BitVec.toNat_ushiftRight, BitVec.ofNat_toNat, BitVec.setWidth_eq]

theorem sshiftRight_eq_div (v : U64) (n : Nat) : v.sshiftRight n = BitVec.ofInt 64 (v.toInt / 2 ^ n) := by
  rw [BitVec.sshiftRight_eq, Int.shiftRight_eq_div_pow]; norm_cast

/-! ### Comparisons -/

theorem slt_eq_lt (v w : U64) : v.slt w = decide (v.toInt < w.toInt) := rfl

theorem ult_eq_lt (v w : U64) : v.ult w = decide (v.toNat < w.toNat) := rfl

/-- Where two values that do not differ in order are the same, a choice by < is a choice by ≤. -/
theorem ite_lt_eq_ite_le {lt le : Prop} [Decidable lt] [Decidable le] {a b : U64} (hle : lt → le) (htie : le → ¬lt → a = b) :
    (if lt then a else b) = if le then a else b := by
  by_cases hlt : lt
  · rw [if_pos hlt, if_pos (hle hlt)]
  · by_cases h : le
    · rw [if_neg hlt, if_pos h, htie h hlt]
    · rw [if_neg hlt, if_neg h]

theorem eq_of_toInt_tie {v w : U64} (h : v.toInt ≤ w.toInt) (hn : ¬v.toInt < w.toInt) : v = w := BitVec.eq_of_toInt_eq (by omega)

theorem eq_of_toNat_tie {v w : U64} (h : v.toNat ≤ w.toNat) (hn : ¬v.toNat < w.toNat) : v = w := BitVec.eq_of_toNat_eq (by omega)

theorem min_signed (v w : U64) : (if v.slt w then v else w) = if v.toInt ≤ w.toInt then v else w := by
  simp only [slt_eq_lt, decide_eq_true_eq]
  exact ite_lt_eq_ite_le Int.le_of_lt eq_of_toInt_tie

theorem max_signed (v w : U64) : (if v.slt w then w else v) = if v.toInt ≤ w.toInt then w else v := by
  simp only [slt_eq_lt, decide_eq_true_eq]
  exact ite_lt_eq_ite_le Int.le_of_lt fun h hn => (eq_of_toInt_tie h hn).symm

theorem min_unsigned (v w : U64) : (if v.ult w then v else w) = if v.toNat ≤ w.toNat then v else w := by
  simp only [ult_eq_lt, decide_eq_true_eq]
  exact ite_lt_eq_ite_le Nat.le_of_lt eq_of_toNat_tie

theorem max_unsigned (v w : U64) : (if v.ult w then w else v) = if v.toNat ≤ w.toNat then w else v := by
  simp only [ult_eq_lt, decide_eq_true_eq]
  exact ite_lt_eq_ite_le Nat.le_of_lt fun h hn => (eq_of_toNat_tie h hn).symm

/-! ### Products, quotients and remainders -/

theorem mulHigh_natCast (m n : Nat) : mulHigh m n = BitVec.ofNat 64 (m * n / 2 ^ 64) := by
  rw [mulHigh, ← BitVec.ofInt_natCast]; norm_cast

theorem divS_eq (v w : U64) : divS v w = if w = 0 then BitVec.ofInt 64 (-1) else BitVec.ofInt 64 (v.toInt.tdiv w.toInt) := by
  unfold divS
  split
  · decide
  · exact BitVec.eq_of_toInt_eq (by rw [BitVec.toInt_sdiv, BitVec.toInt_ofInt])

theorem divU_eq (v w : U64) : divU v w = if w = 0 then BitVec.ofNat 64 (2 ^ 64 - 1) else BitVec.ofNat 64 (v.toNat / w.toNat) := by
  unfold divU
  split
  · decide
  · rw [← BitVec.toNat_udiv, BitVec.ofNat_toNat, BitVec.setWidth_eq]

theorem remS_eq (v w : U64) : remS v w = if w = 0 then v else BitVec.ofInt 64 (v.toInt.tmod w.toInt) := by
  rw [← BitVec.toInt_srem, BitVec.ofInt_toInt]; rfl

theorem remU_eq (v w : U64) : remU v w = if w = 0 then v else BitVec.ofNat 64 (v.toNat % w.toNat) := by
  rw [← BitVec.toNat_umod, BitVec.ofNat_toNat, BitVec.setWidth_eq]; rfl

/-! ### Immediates -/

theorem lui_value (u : BitVec 20) : sx20 u <<< 12 = BitVec.ofInt 64 (u.toInt * 2 ^ 12) := by
  rw [BitVec.ofInt_mul, BitVec.shiftLeft_eq_mul_twoPow]; rfl

theorem lsh_value (v : U64) (u : BitVec 20) : v <<< 20 ||| u.setWidth 64 = BitVec.ofNat 64 (v.toNat * 2 ^ 20 + u.toNat) := by
  have hdisjoint : v <<< 20 &&& u.setWidth 64 = 0#64 := by
    ext i
    by_cases hi : i < 20
    · simp [hi]
    · simp [BitVec.getLsbD_of_ge u i (by omega)]
  rw [← BitVec.add_eq_or_of_and_eq_zero _ _ hdisjoint, BitVec.ofNat_add, BitVec.ofNat_toNat, shiftLeft_eq_mul]

theorem lpc_value (pc : U64) (u : BitVec 20) : pc + sx20 u * 4 = pc + BitVec.ofInt 64 (u.toInt * 4) := by
  rw [BitVec.ofInt_mul]; rfl

/-! ### Counts of bits -/

theorem popCount_eq_countP (n : Nat) : ∀ v, popCount n v = (List.range n).countP fun i => v.testBit i := by
  induction n with
  | zero => intro v; rfl
  | succ n ih =>
    intro v
    rw [popCount, ih, List.range_succ_eq_map, List.countP_cons, List.countP_map, Nat.add_comm]
    have hlow : (if v.testBit 0 = true then 1 else 0) = v % 2 := by
      rw [Nat.testBit_zero]; split <;> simp_all
    rw [hlow]
    congr 1
    exact List.countP_congr fun i _ => by simp [Nat.testBit_succ]

theorem popc64_eq (v : U64) : popc64 v = BitVec.ofNat 64 ((List.range 64).countP fun i => v.getLsbD i) :=
  congrArg (BitVec.ofNat 64) (popCount_eq_countP 64 v.toNat)

/-- The highest 1 bit of a value that is not 0 stands `clz64` places below the top; 0 has none (Table 8.5). -/
theorem clz64_spec (v : U64) : ∃ n, n ≤ 64 ∧ (∀ i, i < n → v.getLsbD (63 - i) = false) ∧ (n < 64 → v.getLsbD (63 - n) = true)
    ∧ clz64 v = BitVec.ofNat 64 n := by
  by_cases h : v = 0
  · exact ⟨64, Nat.le_refl _, fun i _ => by simp [h], fun h => absurd h (Nat.lt_irrefl _), by simp [clz64, h]⟩
  · have h0 : v.toNat ≠ 0 := fun e => h (BitVec.eq_of_toNat_eq (by simpa using e))
    have hlog : Nat.log2 v.toNat < 64 := (Nat.log2_lt h0).2 v.isLt
    refine ⟨63 - Nat.log2 v.toNat, by omega, fun i hi => ?above, fun _ => ?top, by rw [clz64, if_neg h]⟩
    case above => exact Nat.testBit_lt_two_pow ((Nat.log2_lt h0).1 (by omega))
    case top =>
      rw [show 63 - (63 - Nat.log2 v.toNat) = Nat.log2 v.toNat by omega]
      exact Nat.testBit_log2 h0

/-- The lowest 1 bit of a value stands at `ctz64`; 0 has none (Table 8.5). -/
theorem ctz64_spec (v : U64) : ∃ n, n ≤ 64 ∧ (∀ i, i < n → v.getLsbD i = false) ∧ (n < 64 → v.getLsbD n = true)
    ∧ ctz64 v = BitVec.ofNat 64 n := by
  cases hf : (List.range 64).find? fun i => v.getLsbD i with
  | none =>
    refine ⟨64, Nat.le_refl _, fun i hi => ?_, fun h => absurd h (Nat.lt_irrefl _), by rw [ctz64, hf]; rfl⟩
    simpa using List.find?_range_eq_none.1 hf i hi
  | some n =>
    obtain ⟨hbit, hn, hbelow⟩ := List.find?_range_eq_some.1 hf
    exact ⟨n, Nat.le_of_lt (List.mem_range.1 hn), fun i hi => by simpa using hbelow i hi, fun _ => hbit, by rw [ctz64, hf]; rfl⟩

end ScalarResults

/-- Settles O3: each operation by the number that it gives. -/
theorem registerArithmeticResults : Obligations.RegisterArithmeticResults := by
  refine ⟨fun c d a b s h => ⟨?add, ?sub, ?and, ?or, ?xor, ?shl, ?shr, ?sra, ?slt, ?sltu, ?min, ?max, ?minu, ?maxu⟩,
    fun c d a b s h => ⟨?mul, ?mulh, ?mulhu, ?div, ?divu, ?rem, ?remu⟩⟩
  case add | sub | and | or | xor | mul | mulh => exact runG_value h _ d rfl
  case shl => exact runG_value h _ d (shiftLeft_eq_mul _ _)
  case shr => exact runG_value h _ d (ushiftRight_eq_div _ _)
  case sra => exact runG_value h _ d (sshiftRight_eq_div _ _)
  case slt => exact runG_value h _ d (by simp only [slt_eq_lt, decide_eq_true_eq])
  case sltu => exact runG_value h _ d (by simp only [ult_eq_lt, decide_eq_true_eq])
  case min => exact runG_value h _ d (min_signed _ _)
  case max => exact runG_value h _ d (max_signed _ _)
  case minu => exact runG_value h _ d (min_unsigned _ _)
  case maxu => exact runG_value h _ d (max_unsigned _ _)
  case mulhu => exact runG_value h _ d (mulHigh_natCast _ _)
  case div => exact runG_value h _ d (divS_eq _ _)
  case divu => exact runG_value h _ d (divU_eq _ _)
  case rem => exact runG_value h _ d (remS_eq _ _)
  case remu => exact runG_value h _ d (remU_eq _ _)

/-- Settles O4: results of immediates by the number that they give, counts of bits by the bits of the source. -/
theorem immediateMoveAndBitCountResults : Obligations.ImmediateMoveAndBitCountResults := by
  refine ⟨fun c d a b p i sh u s h => ⟨?addi, ?andi, ?ori, ?xori, ?shli, ?shri, ?srai, ?sel, ?pmov, ?lui, ?lsh, ?lpc⟩, fun c d a s h => ⟨?popc, ?clz, ?ctz⟩⟩
  case addi | andi | ori | xori | sel => exact runG_value h _ d rfl
  case pmov => exact runG_value h _ d (BitVec.ofNat_toNat 64 _).symm
  case shli => exact runG_value h _ d (shiftLeft_eq_mul _ _)
  case shri => exact runG_value h _ d (ushiftRight_eq_div _ _)
  case srai => exact runG_value h _ d (sshiftRight_eq_div _ _)
  case lui => exact runG_value h _ d (lui_value u)
  case lsh => exact runG_value h _ d (lsh_value _ u)
  case lpc => exact runG_value h _ d (lpc_value _ u)
  case popc => exact runG_value h _ d (popc64_eq _)
  case clz =>
    obtain ⟨n, hn, habove, htop, hv⟩ := clz64_spec ((cellOf s (cellNum c)).rg a)
    exact ⟨n, hn, habove, htop, runG_value h _ d hv⟩
  case ctz =>
    obtain ⟨n, hn, hbelow, hbit, hv⟩ := ctz64_spec ((cellOf s (cellNum c)).rg a)
    exact ⟨n, hn, hbelow, hbit, runG_value h _ d hv⟩

/-- The comparisons of Table 8.7, by the numbers compared. -/
theorem ccHolds_eq {cc : CC} {f : U64 → U64 → Bool} (h : (cc, f) ∈ [
      (CC.eq, fun v w => v == w), (.ne, fun v w => !(v == w)),
      (.lt, fun v w => decide (v.toInt < w.toInt)), (.ge, fun v w => decide (w.toInt ≤ v.toInt)),
      (.ltu, fun v w => decide (v.toNat < w.toNat)), (.geu, fun v w => decide (w.toNat ≤ v.toNat))]) (v w : U64) :
    ccHolds cc v w = f v w := by
  simp only [List.mem_cons, Prod.mk.injEq, List.not_mem_nil, or_false] at h
  rcases h with ⟨rfl, rfl⟩ | ⟨rfl, rfl⟩ | ⟨rfl, rfl⟩ | ⟨rfl, rfl⟩ | ⟨rfl, rfl⟩ | ⟨rfl, rfl⟩
  · rfl
  · rfl
  · rfl
  · exact (decide_not (p := v.toInt < w.toInt)).symm.trans (decide_eq_decide.2 Int.not_lt)
  · rfl
  · exact (decide_not (p := v.toNat < w.toNat)).symm.trans (decide_eq_decide.2 Nat.not_lt)

/-- Settles O5: a compare by the numbers compared, the rest bit by bit. -/
theorem predicateResults : Obligations.PredicateResults := by
  refine fun c q p r a b i s h => ⟨fun cc f hf => ⟨?cmp, ?cmpi⟩, ?pand, ?por, ?pxor, ?pandn, ?pset⟩
  case cmp => exact runP_value h _ q (by rw [ccHolds_eq hf]; rfl)
  case cmpi => exact runP_value h _ q (by rw [ccHolds_eq hf]; rfl)
  case pand | por | pxor | pandn => exact runP_value h _ q rfl
  case pset => exact runP_value h _ q (BitVec.ofNat_toNat 32 _).symm

end Sys2Proof.Machine

/-! Device resets: where each source applies and what a reset keeps (R387 to R391, R398, Tables 17.1, 17.2); the watchdog (R390); endpoint writes that are ignored (R436). -/

namespace Sys2Proof.Machine

section DeviceReset

variable {s : State}

/-! ### What a device reset keeps (Table 17.2) -/

/-- A device reset changes nothing of the registers but what `baseReset` does to them. -/
theorem fld_deviceReset (cause detail : Nat) (s : State) (r : Reg) (i lo w : Nat) : fld (deviceReset cause detail s) r i lo w = fld (baseReset s) r i lo w := rfl

/-- A register outside the RAS log's has its reset value after a device reset. -/
theorem fld_baseReset {r : Reg} {i : Nat} (h : r.addr i ≠ Reg.kprRasStatus.addr 0) (s : State) (lo w : Nat) :
    fld (baseReset s) r i lo w = bits r.resetValue lo w := by
  rw [baseReset, fld_setFld_other _ _ _ _ _ _ h]; rfl

/-- The watchdog is disabled after every device reset (R390). -/
theorem wdogPeriod_deviceReset (cause detail : Nat) (s : State) : wdogPeriod (deviceReset cause detail s) = 0 := by
  rw [wdogPeriod, fld_deviceReset, fld_baseReset (by decide)]
  decide

/-! ### Where each source applies (Table 17.1) -/

theorem execPowerOn_rises (h : s.chip.rails = false) : execPowerOn s = .next { deviceReset cPowerOn 0 s with
    chip := { (deviceReset cPowerOn 0 s).chip with rails := true } } := by
  simp [execPowerOn, h]

/-- A rail lost in service, which no one took down in order (R411, R415). -/
theorem execBrownOut_resets {r : BitVec 3} (hr : r ≠ 7) (hrails : s.chip.rails = true) (hsleep : s.chip.sleep ≠ 2) (hpin : s.chip.pinHeld = false) :
    execBrownOut r s = .next { deviceReset cBrownOut r.toNat s with chip := { (deviceReset cBrownOut r.toNat s).chip with rails := false } } := by
  simp [execBrownOut, show r ≠ 7#3 from hr, hrails, hsleep, hpin]

theorem execResetPin_holds (hpin : s.chip.pinHeld = false) (hrails : s.chip.rails = true) : execResetPin s = .next { deviceReset cPin 0 s with
    chip := { (deviceReset cPin 0 s).chip with pinHeld := true, pins := put (deviceReset cPin 0 s).chip.pins 100 { level := false } } } := by
  simp [execResetPin, hpin, hrails]

theorem execResetRelease_boots {v : BitVec 5} (hrst : s.chip.inReset = true) (hrails : s.chip.rails = true) (hpin : s.chip.pinHeld = false) :
    execResetRelease v s = .next (sampleTamper 2 (sampleTamper 1 (setPd 1 .on { s with chip := { s.chip with inReset := false, straps := v.toNat } }))) := by
  simp [execResetRelease, hrst, hrails, hpin]

theorem execLockup_resets (keeper : Bool) (hrst : s.chip.inReset = false) :
    execLockup keeper s = .next (deviceReset cLockup (if keeper then 1 else 0) s) := by
  simp [execLockup, hrst, bitOf]

theorem execSoftwareDeviceReset_resets (hup : endpointUp s = true) (hlock : s.kpr.lockdown = false) :
    execSoftwareDeviceReset s = .next (deviceReset cSoftware 0 s) := by
  simp [execSoftwareDeviceReset, hup, hlock]

/-- In start-up a critical-state error resets the device, up to four times in a row (R388, R389). -/
theorem critical_startUp {store : Nat} {halt : State → State} (hrst : s.chip.inReset = false) (hsleep : s.chip.sleep ≠ 2) (herr : s.gaf.errorHalt = false)
    (hup : startUp s = true) (hstreak : s.chip.critStreak < 4) : critical store halt s = deviceReset cCrit store s := by
  simp [critical, hrst, hsleep, herr, hup, Nat.not_le.2 hstreak]

theorem execCritState_stored {st : BitVec 4} (hst : st = 7 ∨ st = 9) : ∃ halt, execCritState st s = .next (critical st.toNat halt s) :=
  ⟨_, congrArg Host.Outcome.next (if_pos (by simpa using hst))⟩

/-! ### The watchdog (R390) -/

theorem execWatchdogExpiry_runs (h : wdogRuns s = true) :
    execWatchdogExpiry s = .next (deviceReset cWatchdog 0 (clockTo (s.chip.wdog + wdogPeriod s * 1000000) s)) := by
  simp [execWatchdogExpiry, h]

theorem wdogRuns_paused (h : wdogPeriod s = 0 ∨ s.chip.inReset = true ∨ s.chip.sleep ≠ 0) : wdogRuns s = false := by
  rcases h with h | h | h <;> simp [wdogRuns, h]

theorem execWatchdogExpiry_paused (h : wdogRuns s = false) : execWatchdogExpiry s = .next s := by
  simp [execWatchdogExpiry, h]

theorem execWatchdogKick_restarts (hup : endpointUp s = true) (hserved : writesServed s = true) (hon : wdogPeriod s ≠ 0) :
    execWatchdogKick s = .next (wdogRestart s) := by
  simp [execWatchdogKick, hup, hserved, hon]

theorem execWatchdogKick_disabled (hoff : wdogPeriod s = 0) : execWatchdogKick s = .next s := by
  simp [execWatchdogKick, hoff]

theorem wdogRestart_eq (s : State) : wdogRestart s = { s with
    freeIx := s.freeIx + 1, now := s.now + Config.free s.freeIx, chip := { s.chip with wdog := s.now + Config.free s.freeIx } } := rfl

end DeviceReset

/-- Settles O56: the period by what a reset leaves of the registers, the expiry and the kick by whether the watchdog runs. -/
theorem watchdogRule : Obligations.WatchdogRule := by
  refine ⟨wdogPeriod_deviceReset, fun s => ⟨fun h => ?paused, fun h => ?expires, fun hup hserved hon => ?kick, fun hoff => ?disabled⟩⟩
  case paused => exact execWatchdogExpiry_paused (wdogRuns_paused h)
  case expires => exact ⟨_, execWatchdogExpiry_runs h, rfl, rfl, rfl⟩
  case kick => exact ⟨s.now + Config.free s.freeIx, Nat.le_add_right _ _, (execWatchdogKick_restarts hup hserved hon).trans (by rw [wdogRestart_eq])⟩
  case disabled => exact execWatchdogKick_disabled hoff

/-- Settles O54: each source by the condition under which it applies, what is kept by the fields of the reset state. -/
theorem deviceResets : Obligations.DeviceResets := by
  refine ⟨fun s => ⟨rfl, fun hrails => ?powerOn, fun r hr hrails hsleep hpin => ?brownOut, fun hpin hrails => ?pin, fun v hrst hrails hpin => ?release,
    fun h => ?watchdog, fun hup hserved hon => ?kick, fun hup hlock => ?software, rfl, fun keeper hrst => ?lockup, fun t e => rfl,
    fun st hst hrst hsleep herr hup hstreak => ?critState⟩, fun cause detail s => ?kept⟩
  case powerOn => exact execPowerOn_rises hrails
  case brownOut => exact execBrownOut_resets hr hrails hsleep hpin
  case pin => exact execResetPin_holds hpin hrails
  case release => exact execResetRelease_boots hrst hrails hpin
  case watchdog => exact execWatchdogExpiry_runs h
  case kick => exact execWatchdogKick_restarts hup hserved hon
  case software => exact execSoftwareDeviceReset_resets hup hlock
  case lockup => exact execLockup_resets keeper hrst
  case critState =>
    obtain ⟨halt, h⟩ := execCritState_stored (s := s) hst
    exact h.trans (by rw [critical_startUp hrst hsleep herr hup hstreak])
  case kept => exact ⟨rfl, rfl, rfl, rfl, rfl, rfl, rfl, rfl, rfl, rfl, rfl, rfl, rfl, rfl, rfl, rfl, rfl, rfl⟩

/-- A write to a map register or to a register of the keeper's block is ignored and counted (R436). -/
theorem endpointWrite_ignored {r : Reg} {s : State} (i v : Nat) (h : r.isMap = true ∨ r.place.1 = 1) : endpointWrite r i v s = bump .gafCsrStatus 0 48 16 1 s :=
  if_pos (by simpa using h)

/-- Settles O50: the write reaches its register, which ignores it. -/
theorem endpointWritesToMapAndKeeperRegisters : Obligations.EndpointWritesToMapAndKeeperRegisters := by
  intro a v r i s hup hserved halign hr h
  exact (execRegisterWrite_assigned hup hserved halign hr).trans (by rw [endpointWrite_ignored i v.toNat h])

end Sys2Proof.Machine

/-! Claims of pins, timers and buffers, and replica sets, issued alone (R50, R349, R424, R425, R447). -/

namespace Sys2Proof.Machine

section Claims

variable {d : Desc} {s : State}

/-! ### Pins -/

/-- A pin just connected: its function and polarity, at its safe level (R424, R425). -/
def connected (d : Desc) (x : Pin) : Pin :=
  { x with func := opf d 17 0 3, polarity := opf d 18 1 1 = 1, safe := true, level := false, stuck := false, edges := 0, tach := 0, epochOut := decide (8 ≤ opf d 16 0 4) }

/-- The DUTY field of a pin (Table 18.9). -/
def setDuty (n duty : Nat) (s : State) : State :=
  if n < 8 then setFld .pinGpfDutyLo 0 (8 * n) 8 duty s else setFld .pinGpfDutyHi 0 (8 * (n - 8)) 8 duty s

theorem setFld_dutyReg (n duty : Nat) (s : State) : setFld (dutyReg n).1 0 (dutyReg n).2 8 duty s = setDuty n duty s := by
  unfold dutyReg setDuty
  split <;> rfl

/-- PIN.SET_FUNCTION connects a free pin, with its level where it is an output and its duty where it is a PWM (R424, R425). -/
theorem applyPinSet_connects (hfree : (pin s (opf d 16 0 4)).func = 0) :
    let s1 := updPin (opf d 16 0 4) (connected d) s
    let s2 := if opf d 17 0 3 = 2 then setFld .pinGpfOut 0 (opf d 16 0 4) 1 (opf d 18 0 1) s1 else s1
    applyPinSet d s = good (if opf d 17 0 3 = 4 then setDuty (opf d 16 0 4) (opf d 19 0 8) s2 else s2) := by
  have hfunc : ((pin s (opf d 16 0 4)).func != 0) = false := by simp [hfree]
  simp only [applyPinSet, hfunc, Bool.false_eq_true, if_false, setFld_dutyReg]
  rfl

/-- RES.RELEASE of a connected pin disconnects it, at its safe level (R424). -/
theorem applyResRelease_pin (hcls : opf d 16 0 3 = 1) (hi : opf d 20 0 32 < 16) (hfunc : (pin s (opf d 20 0 32)).func ≠ 0) :
    applyResRelease d s = good (updPin (opf d 20 0 32) (fun x => { x with func := 0, safe := true, level := false, stuck := false, edges := 0, tach := 0 }) s) := by
  simp only [applyResRelease, if_pos hcls]
  exact if_pos (by simp [hi, hfunc])

/-! ### Timers and buffers -/

/-- A claim of a resource that no claim and no window holds (R50, R447). -/
theorem applyClaim_takes {held : State → Nat → Bool} (hfree : claimed s (opf d 16 0 3) (opf d 20 0 32) = false)
    (hheld : ¬(opf d 16 0 3 = 4 ∧ held s (opf d 20 0 32) = true)) :
    applyClaim held d s = good { s with gaf := { s.gaf with claims := put s.gaf.claims (opf d 16 0 3 * 2 ^ 32 + opf d 20 0 32) 0 } } := by
  refine if_neg fun h => ?_
  simp only [hfree, fresh, Bool.false_or, Bool.and_eq_true, decide_eq_true_eq] at h
  obtain ⟨hcls, hbusy, -⟩ := h
  exact hheld ⟨hcls, hbusy⟩

/-- RES.RELEASE of a claim gives the resource back (R424). -/
theorem applyResRelease_claim (hcls : opf d 16 0 3 ≠ 1) (hclaimed : claimed s (opf d 16 0 3) (opf d 20 0 32) = true) :
    applyResRelease d s = good { s with gaf := { s.gaf with claims := del s.gaf.claims (opf d 16 0 3 * 2 ^ 32 + opf d 20 0 32) } } := by
  simp only [applyResRelease, if_neg hcls]
  exact if_pos hclaimed

/-- TIMER.CLAIM names a resource of class 2 (R447). -/
theorem timer_of_stage (h : stageTimerClaim d = none) : opf d 16 0 3 = 2 :=
  Decidable.byContradiction fun hc => by simp [stageTimerClaim, hc] at h

/-! ### Replica sets (R349) -/

/-- The alternates that a REPLICA.SET names. -/
def alternates (d : Desc) : List Nat := (List.range (opf d 20 0 2)).map fun j => opf d (24 + 8 * j) 0 64

/-- An alternate lies at another node, to which a route leads. -/
def Reachable (s : State) (a : Nat) : Prop := s.fab.self ≠ some (bits a 48 14) ∧ (nodeRoute s (bits a 48 14)).isSome = true

theorem alternates_reachable (h : ∀ a ∈ alternates d, Reachable s a) :
    ((alternates d).any fun a => s.fab.self = some (bits a 48 14) || (nodeRoute s (bits a 48 14)).isNone) = false :=
  List.any_eq_false.2 fun a ha => by
    obtain ⟨hself, hroute⟩ := h a ha
    simp [hself, Option.isSome_iff_ne_none.1 hroute]

/-- REPLICA.SET gives a region its alternates. -/
theorem applyReplicaSet_sets {r : Region} (hn : 0 < opf d 20 0 2) (hr : region s (opf d 16 0 18) = some r) (hsealed : tentSealed s r.owner = false)
    (hroom : has s.kpr.replicas (opf d 16 0 18) = true ∨ s.kpr.replicas.length < 256) (hreach : ∀ a ∈ alternates d, Reachable s a) :
    applyReplicaSet d s = good { s with kpr := { s.kpr with replicas := put s.kpr.replicas (opf d 16 0 18) ⟨opf d 22 0 14, alternates d⟩ } } := by
  have hfull : (!has s.kpr.replicas (opf d 16 0 18) && decide (s.kpr.replicas.length ≥ 256)) = false := by
    rcases hroom with h | h
    · simp [h]
    · simp [Nat.not_le.2 h]
  have hany := alternates_reachable hreach
  unfold alternates at hany
  simp only [applyReplicaSet, hany, hr, hsealed, hfull, Nat.ne_of_gt hn, Bool.false_eq_true, if_false]
  rfl

/-- REPLICA.SET without alternates takes the region's away. -/
theorem applyReplicaSet_removes {r : Region} (hn : opf d 20 0 2 = 0) (hr : region s (opf d 16 0 18) = some r) (hset : has s.kpr.replicas (opf d 16 0 18) = true) :
    applyReplicaSet d s = good { s with kpr := { s.kpr with replicas := del s.kpr.replicas (opf d 16 0 18) } } := by
  simp [applyReplicaSet, hn, hr, hset]

/-- What is left of the field check of REPLICA.SET with alternates where no field is at fault: the fuse of replicas (R445). -/
theorem stageReplicaSet_fuse (h : stageReplicaSet d ≠ some stBadField) (hn : 0 < opf d 20 0 2) :
    stageReplicaSet d = if fused 10 = true then some stFeatureDisabled else none := by
  unfold stageReplicaSet at h ⊢
  dsimp only at h ⊢
  exact (fuse_of_ne_bad h).trans (by simp [hn])

end Claims

/-- Settles O36: each command by the state that it applies to, REPLICA.SET behind its fuse by `alone_fused`. -/
theorem claimAndPinCommandResults : Obligations.ClaimAndPinCommandResults := by
  refine fun q d s s0 => ⟨?pinSet, ?timer, ?buffer, ?release, ?releasePin, ?replica, ?replicaGone⟩
  case pinSet =>
    intro hf hfree s1 s2 s3 happ
    exact alone_applies happ (fun _ => stagePinSet) (fun _ => hf) (applyPinSet_connects hfree)
  case timer =>
    intro hf hfree s2 happ
    have hcls := timer_of_stage hf
    exact alone_applies happ (fun _ => stageTimerClaim) (fun _ => hf) (applyClaim_takes hfree (by simp [hcls]))
  case buffer =>
    intro hf hfree hheld s2 happ
    exact alone_applies happ (fun _ => stageBufferClaim) (fun _ => hf) (applyClaim_takes hfree hheld)
  case release =>
    intro hf hcls hclaimed s2 happ
    exact alone_applies happ (fun _ => stageResRelease) (fun _ => hf) (applyResRelease_claim hcls hclaimed)
  case releasePin =>
    intro hf hcls hi hfunc s2 happ
    exact alone_applies happ (fun _ => stageResRelease) (fun _ => hf) (applyResRelease_pin hcls hi hfunc)
  case replica =>
    rintro r m hf rfl hn hr hsealed hroom hreach x s2 s1 hfetched happ
    refine alone_fused hfetched happ (stageReplicaSet_fuse hf hn) (applyReplicaSet_sets hn hr hsealed hroom fun a ha => ?_)
    obtain ⟨j, hj, rfl⟩ := List.mem_map.1 ha
    exact hreach j (List.mem_range.1 hj)
  case replicaGone =>
    intro r hf hn hr hset s2 happ
    exact alone_applies happ (fun _ => stageReplicaSet) (fun _ => hf) (applyReplicaSet_removes hn hr hset)

end Sys2Proof.Machine

/-! CSR.READ and CSR.WRITE: a register read, a direct register written at once, a map register written at the epoch boundary (R437, R438, Table 19.2). -/

namespace Sys2Proof.Machine

section Registers

variable {q : QId} {d : Desc} {r : Reg} {i : Nat} {s s1 : State} {c : CRef}

/-! ### Reads -/

/-- CSR.READ of an assigned register that no fuse makes absent and whose domain runs passes its field checks (R437). -/
theorem fieldsCsrRead_ok (hr : regAt (opf d 16 0 24) = some (r, i)) (hf : onlyFields d [(16, 0, 24)] = true) (halign : opf d 16 0 24 % 8 = 0)
    (hpresent : regAbsent r = false) (hon : regOff s r i = false) : fieldsCsrRead s d = none := by
  simp [fieldsCsrRead, hr, hf, halign, hpresent, hon]

/-- It answers the register and clears what a read clears (R441). -/
theorem bodyCsrRead_answers (hr : regAt (opf d 16 0 24) = some (r, i)) (hf : fieldsCsrRead s d = none) :
    bodyCsrRead d c s = complete c stSuccess 0 (valueOf r i s).1 (clearRc r i (2 ^ 64 - 1) (valueOf r i s).2) := by
  simp only [bodyCsrRead, hf, hr, readReg]

/-! ### Writes -/

/-- Registers whose write takes an action of its own (R438). -/
def actingRegs : List Reg := [.gafCmdqCtl, .gafCmdqDoorbell, .gafCmdqStatus, .gafCmdqCqHead, .rstCtl, .rstWdogCtl, .pwrSleepCtl, .tryNbuCtl]

/-- A write to any other register only stores. -/
theorem writeReg_stores (hr : r ∉ actingRegs) (i v mask : Nat) (s : State) : writeReg r i v mask s = writeStored r i v mask s := by
  unfold writeReg
  split
  case h_9 => rfl
  all_goals exact absurd (by decide) hr

@[simp] theorem writeStored_chip (r : Reg) (i v mask : Nat) (s : State) : (writeStored r i v mask s).chip = s.chip := rfl

/-- A direct register without an action is written under its mask and answers its value after (R438). -/
theorem writeDirect_stores (hr : r ∉ actingRegs) (hmask : opf d 32 0 64 ≠ 0) (hrst : s.chip.inReset = false) :
    let t := writeStored r i (opf d 24 0 64) (opf d 32 0 64) s
    writeDirect r i d c s = complete c stSuccess 0 (valueOf r i t).1 (valueOf r i t).2 := by
  simp only [writeDirect, if_neg hmask, writeReg_stores hr, writeStored_chip, hrst, Bool.false_eq_true, if_false]

/-- CSR.WRITE issued alone whose fields are in order goes where its register's kind sends it. -/
theorem execCsrWrite_runs (h : Runs opSealedRule q d s s1) (hf : fieldsCsrWrite s1 d = none) :
    execCsrWrite q d s = .next (moved s (csrAlone d ⟨.csrWrite q d, []⟩ (crefOf q d s1) s1)) := by
  rw [execCsrWrite, fabricDo_eq, runE_alone h _ _ _ _ hf]

/-- A map register is written by a commit of its own (R437). -/
theorem execCsrWrite_map (h : Runs opSealedRule q d s s1) (hf : fieldsCsrWrite s1 d = none) (hr : regAt (opf d 16 0 24) = some (r, i)) (hmap : r.isMap = true) :
    execCsrWrite q d s = fabricDo (runE q d opSealedRule false (fun _ _ => none) (fun _ => []) (.csrWrite q d) alone) s := by
  rw [execCsrWrite_runs h hf, fabricDo_eq, runE_alone h _ _ _ _ rfl, csrAlone, hr]
  simp only [hmap, if_true]

theorem applyCsrWrite_map (hr : regAt (opf d 16 0 24) = some (r, i)) (hmap : r.isMap = true) :
    applyCsrWrite d s = applyMapValue r i (clampMap r (maskedWrite r (mapVal s r i) (opf d 24 0 64) (opf d 32 0 64))) s := by
  simp only [applyCsrWrite, hr, hmap, if_true]

end Registers

/-- Settles O30: the read by its body, a direct register by what a write stores, a map register by `alone_applies`. -/
theorem csrCommandResults : Obligations.CsrCommandResults := by
  refine fun q d s s1 r i hr => ⟨?read, ?direct, ?map⟩
  case read =>
    intro hrun hf halign hpresent hon v
    exact congrArg Host.Outcome.next ((runI_runs hrun _ _ rfl).trans (bodyCsrRead_answers hr (fieldsCsrRead_ok hr hf halign hpresent hon)))
  case direct =>
    intro hrun hf hdirect hplain hmask hrst s2
    refine (execCsrWrite_runs hrun hf).trans ?_
    rw [csrAlone, hr]
    simp only [hdirect, Bool.false_eq_true, if_false]
    exact congrArg (fun t => Host.Outcome.next (moved s t)) (writeDirect_stores hplain hmask hrst)
  case map =>
    rintro s0 s2 own hrun hf hmap rfl hready hwhole happly
    refine (execCsrWrite_map hrun hf hr hmap).trans (alone_applies ⟨s1, hrun, rfl, hready, hwhole⟩ _ (fun _ => rfl) ?_)
    exact (applyCsrWrite_map hr hmap).trans happly

end Sys2Proof.Machine

/-! Power domains, block resets, sleep and wake: the commands, and what goes on once a block, a domain or the device is idle or its time is up (R395, R396, R404 to R409). -/

namespace Sys2Proof.Machine

section PowerCommands

variable {d : Desc} {s : State} {c : CRef}

/-! ### PWR.SET_DOMAIN (R404) -/

/-- A domain that PWR.SET_DOMAIN may move: none of the switch core's, at rest, with no block in reset, while the device is awake. -/
structure Movable (n : Nat) (s : State) : Prop where
  beyondCore : 8 ≤ n
  awake : s.chip.sleepOp = none
  atRest : moving s n = false
  noReset : ∀ b ∈ domainBlocks n, has s.chip.resets b = false

theorem Movable.free {n : Nat} (h : Movable n s) : (moving s n || s.chip.sleepOp.isSome || (domainBlocks n).any (has s.chip.resets)) = false := by
  have hblocks : (domainBlocks n).any (has s.chip.resets) = false := List.any_eq_false.2 fun b hb => by simp [h.noReset b hb]
  simp [h.atRest, h.awake, hblocks]

/-- A domain that is off starts (R404, Table 17.11). -/
theorem setDomain_starts (hm : Movable (opf d 16 0 5) s) (hact : opf d 17 0 2 = 1) (hcore : pdState s 3 = .on) (hoff : pdState s (opf d 16 0 5) = .off) :
    setDomain d c s = setPd (opf d 16 0 5) .starting (updDomain (opf d 16 0 5) (fun x => { x with change := some (1, c, false, false) }) s) := by
  have h3 : opf d 16 0 5 ≠ 3 := by have := hm.beyondCore; omega
  simp [setDomain, hm.free, hact, hcore, hoff, h3]

/-- A domain that is off stays off. -/
theorem setDomain_offAlready (hm : Movable (opf d 16 0 5) s) (hact : opf d 17 0 2 = 0) (hoff : pdState s (opf d 16 0 5) = .off)
    (hholds : (domain s (opf d 16 0 5)).holds = []) : setDomain d c s = complete c 0 0 0 s := by
  have h3 : opf d 16 0 5 ≠ 3 := by have := hm.beyondCore; omega
  simp [setDomain, hm.free, hact, hoff, hholds, h3, reject, stSuccess]

/-- A domain that is on and that no keeper operation holds is asked to go idle (R404, Table 17.11). -/
theorem setDomain_stops (hm : Movable (opf d 16 0 5) s) (hact : opf d 17 0 2 = 0 ∨ opf d 17 0 2 = 2) (hon : pdState s (opf d 16 0 5) = .on)
    (hholds : (domain s (opf d 16 0 5)).holds = []) :
    setDomain d c s = askDomain (opf d 16 0 5) (setPd (opf d 16 0 5) .stopping (updDomain (opf d 16 0 5)
      (fun x => { x with change := some (opf d 17 0 2, c, false, false), deferred := false, timeout := opf d 20 0 32 }) s)) := by
  have h3 : opf d 16 0 5 ≠ 3 := by have := hm.beyondCore; omega
  have h7 : ¬opf d 16 0 5 ≤ 7 := by have := hm.beyondCore; omega
  rcases hact with hact | hact <;> simp [setDomain, hm.free, hact, hon, hholds, h3, h7]

theorem bodySetDomain_atOnce (h : s.gaf.commits = []) : bodySetDomain d c s = gafferWork (setDomain d c s) := by
  simp [bodySetDomain, h]

/-! ### BLOCK.RESET (R396) -/

/-- The state in which a block's reset has been asked for. -/
def resetAsked (d : Desc) (c : CRef) (s : State) : State := putReset (opf d 16 0 8) { step := 1, cref := some c, timeout := opf d 20 0 32 } s

/-- A block in a domain with power, out of reset and at rest, is asked to go idle, or waits for the keeper (R395, R406). -/
theorem bodyBlockReset_asks (hcode : opf d 16 0 8 ≠ 0xFF) (hpd : pdOff s (blockDomain (opf d 16 0 8)) = false) (hrst : has s.chip.resets (opf d 16 0 8) = false)
    (hrest : moving s (blockDomain (opf d 16 0 8)) = false) (hawake : s.chip.sleepOp = none) :
    bodyBlockReset d c s = if (domain (resetAsked d c s) (blockDomain (opf d 16 0 8))).holds.isEmpty then askReset (opf d 16 0 8) (resetAsked d c s)
      else defer [blockDomain (opf d 16 0 8)] (resetAsked d c s) := by
  simp [bodyBlockReset, resetAsked, hcode, hpd, hrst, hrest, hawake]

theorem bodyBlockReset_device (hcode : opf d 16 0 8 = 0xFF) : bodyBlockReset d c s = deviceReset cSoftware 0 s := if_pos hcode

/-! ### PWR.SLEEP (R408) -/

/-- The state in which PWR.SLEEP has blocked the ports and dropped the open takes. -/
def quieted (s : State) : State :=
  let blocked := (List.range 20).foldl (fun s p => updPort p (fun x => { x with blocked := true }) s) s
  holdDiff s { blocked with gaf := { blocked.gaf with takes := blocked.gaf.takes.filter fun e => e.2.state != .open } }

/-- Where no work bars it and the keeper holds no domain, sleep entry asks every block to go idle. -/
theorem bodySleep_asks (hcommits : s.gaf.commits = []) (hmap : s.gaf.oldMap = none) (hrst : s.chip.resets = []) (hrest : anyMoving s = false)
    (hholds : ∀ n, (domain (quieted s) n).holds = []) :
    bodySleep d c s = sleepAsk { quieted s with chip := { (quieted s).chip with
      sleepOp := some { state := opf d 16 0 2, wakeS := opf d 20 0 32, cref := c, keeper := false, timeout := opf d 24 0 32 } } } := by
  have hheld : ((keys (quieted s).chip.domains).filter fun n => !(domain (quieted s) n).holds.isEmpty) = [] := by simp [hholds]
  unfold quieted at hheld
  simp only [bodySleep, hcommits, hmap, hrst, hrest, hheld, List.isEmpty_nil, Bool.not_true, Option.isSome_none, Bool.or_false, Bool.false_eq_true, if_false, if_true]
  rfl

end PowerCommands

section PowerEvents

variable {s : State} {n : Nat} {b : BlockReset}

/-! ### Blocks, domains and the device go idle (R395, R404, R408) -/

theorem exec_blockIdle_block {c : Byte} (hb : find s.chip.resets c.toNat = some b) (hstep : b.step = 2) (hidle : inFlight s c.toNat = 0) :
    exec (.blockIdle false c) s = .next (moved s (holdReset c.toNat 0 0 s)) :=
  fabricDo_of (by simp [hb, hstep, hidle])

theorem exec_idleTimeout_block {c : Byte} (hb : find s.chip.resets c.toNat = some b) (hstep : b.step = 2) :
    exec (.idleTimeout false c) s = .next (moved s (holdReset c.toNat 0 (inFlight s c.toNat) (blockExpire c.toNat (limitOver (idleLimit false c.toNat) s)))) :=
  fabricDo_of (by simp [hb, hstep])

theorem exec_resetHoldEnd {c : Byte} (hb : find s.chip.resets c.toNat = some b) (hstep : b.step = 4) :
    exec (.resetHoldEnd c) s = .next (moved s (releaseReset c.toNat b s)) :=
  fabricDo_of (by simp [hb, hstep])

theorem exec_blockIdle_domain {c : Byte} (hc : c.toNat ≠ 0xFF) (hasked : stopAsked s c.toNat = true) (hidle : domainWork s c.toNat = 0) :
    exec (.blockIdle true c) s = .next (moved s (finishStop c.toNat 0 s)) :=
  fabricDo_of (by simp [hc, hasked, hidle])

theorem exec_idleTimeout_domain {c : Byte} (hc : c.toNat ≠ 0xFF) (hasked : stopAsked s c.toNat = true) :
    exec (.idleTimeout true c) s = .next (moved s (finishStop c.toNat (domainWork s c.toNat)
      ((domainBlocks c.toNat).foldl (fun s c => blockExpire c s) (limitOver (idleLimit true c.toNat) s)))) :=
  fabricDo_of (by simp [hc, hasked])

theorem exec_blockIdle_sleep {x : SleepOp} (hop : s.chip.sleepOp = some x) (hkeeper : x.keeper = false) (hidle : sleepWork s = 0) :
    exec (.blockIdle true 0xFF) s = .next (moved s (finishSleep 0 s)) :=
  fabricDo_of (by simp [hop, hkeeper, hidle])

theorem exec_idleTimeout_sleep {x : SleepOp} (hop : s.chip.sleepOp = some x) (hkeeper : x.keeper = false) :
    exec (.idleTimeout true 0xFF) s = .next (moved s (finishSleep (sleepWork s) (blockCodes.foldl (fun s c => blockExpire c s) (limitOver (idleLimit true 0xFF) s)))) :=
  fabricDo_of (by simp [hop, hkeeper])

/-! ### Start-up of a domain, and the keeper's operations (R404, R406) -/

theorem exec_domainStartupDone {d : BitVec 5} {act : Nat} {c : CRef} {deferred forced : Bool} (hstart : pdState s d.toNat = .starting)
    (hchange : (domain s d.toNat).change = some (act, c, deferred, forced)) :
    exec (.domainStartupDone d) s = .next (moved s (gafferWork (complete c 0 0 0 (startedUp d.toNat (updDomain d.toNat (fun x => { x with change := none }) s))))) :=
  fabricDo_of (by simp [hstart, hchange, reject, stSuccess])

theorem exec_keeperOpEnd {d : BitVec 5} {h : KHold} {hs : List KHold} (hholds : (domain s d.toNat).holds = h :: hs) :
    exec (.keeperOpEnd d) s = .next (moved s (resumeDomain d.toNat (endHold d.toNat h s))) :=
  fabricDo_of (by simp only [hholds])

theorem exec_keeperDeadline {d : BitVec 5} {h : KHold} {hs : List KHold} (hholds : (domain s d.toNat).holds = h :: hs) (hwaits : removalWaits s d.toNat = true) :
    exec (.keeperDeadline d) s = .next (moved s (resumeDomain d.toNat (updDomain d.toNat (fun x => { x with change := x.change.map fun y => (y.1, y.2.1, y.2.2.1, true) })
      (bump .pwrDeferStats 0 16 16 1 (abortHolds d.toNat (limitOver (keeperLimit d.toNat) s)))))) :=
  fabricDo_of (by simp [hholds, hwaits])

/-! ### Wake sources (R409) -/

/-- A wake while sleep is being entered takes effect when entry ends; the first source counts. -/
theorem wakeBy_entering {src : Nat} {x : SleepOp} (h : s.chip.sleepOp = some x) :
    wakeBy src s = { s with chip := { s.chip with sleepOp := some { x with wake := some (x.wake.getD src) } } } := by
  simp only [wakeBy, h]

theorem wakeBy_sleep1 {src : Nat} (h : s.chip.sleepOp = none) (hsleep : s.chip.sleep = 1) :
    wakeBy src s = wakeUp { s with chip := { s.chip with lastWake := src } } := by
  simp only [wakeBy, h, hsleep, if_true]

/-- A wake from SLEEP2 is a device reset. -/
theorem wakeBy_sleep2 {src : Nat} (h : s.chip.sleepOp = none) (hsleep : s.chip.sleep = 2) :
    wakeBy src s = { deviceReset cWake 0 s with chip := { (deviceReset cWake 0 s).chip with lastWake := src } } := by
  simp [wakeBy, h, hsleep]

theorem wakeBy_awake {src : Nat} (h : s.chip.sleepOp = none) (hsleep : s.chip.sleep = 0) : wakeBy src s = s := by
  simp [wakeBy, h, hsleep]

/-- WAKE_N accepted as low. -/
def wakePinLow (s : State) : State := updInput 1 (fun x => { x with level := false }) s

@[simp] theorem wakePinLow_sleepOp (s : State) : (wakePinLow s).chip.sleepOp = s.chip.sleepOp := rfl
@[simp] theorem wakePinLow_sleep (s : State) : (wakePinLow s).chip.sleep = s.chip.sleep := rfl

/-- An assertion of WAKE_N is a wake source. -/
theorem exec_wakeN_asserted {t : State} (h : (input s 1).level = true) (ht : wakeBy 1 (wakePinLow s) = t) : exec .wakeN s = .next (moved s t) :=
  fabricDo_of (by simp [acceptWake, h, ← ht, wakePinLow])

/-- WAKE_N that was low already wakes nothing. -/
theorem exec_wakeN_lowAlready (h : (input s 1).level = false) : exec .wakeN s = .next (moved s (wakePinLow s)) :=
  fabricDo_of (by simp [acceptWake, h, wakePinLow])

theorem exec_wakeTimer {t : State} (hsleep : s.chip.sleep ≠ 0) (hset : s.chip.wakeS ≠ 0) (ht : wakeBy 3 (limitOver wakeLimit s) = t) :
    exec .wakeTimer s = .next (moved s t) :=
  fabricDo_of (by simp [hsleep, hset, ht])

/-- WAKE written while the device sleeps or enters sleep is a wake source. -/
theorem exec_wakeBit {t : State} (hup : endpointUp s = true) (hserved : writesServed s = true) (h : s.chip.sleep = 1 ∨ s.chip.sleepOp.isSome = true)
    (ht : wakeBy 2 s = t) : exec .wakeBit s = .next (drain t) := by
  have hsleeps : (decide (s.chip.sleep = 1) || s.chip.sleepOp.isSome) = true := by simpa using h
  rw [show exec .wakeBit s = execWakeBit s from rfl]
  simp only [execWakeBit, hup, hserved, Bool.and_self, if_true, wakeWrite, hsleeps, ht]

theorem exec_wakeBit_awake (hop : s.chip.sleepOp = none) (hsleep : s.chip.sleep ≠ 1) : exec .wakeBit s = .next s := by
  rw [show exec .wakeBit s = execWakeBit s from rfl]
  simp [execWakeBit, wakeWrite, hop, hsleep]

end PowerEvents

/-- Settles O43: the commands by their bodies, each event by what is due, the wake sources by the sleep state that they meet. -/
theorem powerResults : Obligations.PowerResults := by
  refine ⟨fun q d s s1 hrun => ⟨?domain, ?block, ?device, ?sleep⟩, fun c s => ⟨fun b hb => ⟨?blockIdle, ?blockTimeout, ?holdEnd⟩, fun hc hasked => ⟨?domainIdle, ?domainTimeout⟩, ?sleepEntry⟩,
    fun d s => ⟨?started, fun h hs hholds => ⟨?keeperEnd, ?keeperDeadline⟩⟩, fun s => ⟨?low, ?entering, fun hop hsleep => ⟨?pin1, ?bit1, ?timer1⟩, fun hop hsleep => ⟨?pin2, ?timer2⟩, ?bitEntering, ?bitAwake⟩⟩
  case domain =>
    intro hf hcommits hn hawake hrest hrst
    have hm : Movable (opf d 16 0 5) s1 := ⟨hn, hawake, hrest, hrst⟩
    have hexec : exec (.pwrSetDomain q d) s = .next (moved s (gafferWork (setDomain d (crefOf q d s1) s1))) :=
      fabricDo_of ((runI_runs hrun _ _ hf).trans (bodySetDomain_atOnce hcommits))
    refine ⟨fun hact hcore hoff => ?_, fun hact hoff hholds => ?_, fun hact hon hholds => ?_⟩
    · rw [hexec, setDomain_starts hm hact hcore hoff]
    · rw [hexec, setDomain_offAlready hm hact hoff hholds]
    · rw [hexec, setDomain_stops hm hact hon hholds]
  case block =>
    intro hf hcode hpd hrst hrest hawake s2
    have hexec := fabricDo_of ((runI_runs hrun _ _ hf).trans (bodyBlockReset_asks (c := crefOf q d s1) hcode hpd hrst hrest hawake))
    exact ⟨fun hfree => hexec.trans (congrArg (fun t => Host.Outcome.next (moved s t)) (if_pos (List.isEmpty_iff.2 hfree))),
      fun hheld => hexec.trans (congrArg (fun t => Host.Outcome.next (moved s t)) (if_neg (mt List.isEmpty_iff.1 hheld)))⟩
  case device =>
    intro hf hcode
    exact fabricDo_of ((runI_runs hrun _ _ hf).trans (bodyBlockReset_device hcode))
  case sleep =>
    intro hf hcommits hmap hrst hrest _ s2 s3 hholds
    exact fabricDo_of ((runI_runs hrun _ _ hf).trans (bodySleep_asks hcommits hmap hrst hrest hholds))
  case blockIdle => exact exec_blockIdle_block hb
  case blockTimeout => exact exec_idleTimeout_block hb
  case holdEnd => exact exec_resetHoldEnd hb
  case domainIdle => exact exec_blockIdle_domain hc hasked
  case domainTimeout => exact exec_idleTimeout_domain hc hasked
  case sleepEntry =>
    rintro x rfl hop hkeeper
    exact ⟨exec_blockIdle_sleep hop hkeeper, exec_idleTimeout_sleep hop hkeeper⟩
  case started =>
    intro act c deferred forced hstart hchange
    exact exec_domainStartupDone hstart hchange
  case keeperEnd => exact exec_keeperOpEnd hholds
  case keeperDeadline => exact exec_keeperDeadline hholds
  case low =>
    intro h
    cases hlevel : (input s 1).level with
    | false => exact exec_wakeN_lowAlready hlevel
    | true =>
      obtain ⟨hop, hsleep⟩ := h.resolve_left (by simp [hlevel])
      exact exec_wakeN_asserted hlevel (wakeBy_awake hop hsleep)
  case entering => exact fun x hlevel hop => exec_wakeN_asserted hlevel (wakeBy_entering hop)
  case pin1 => exact fun hlevel => exec_wakeN_asserted hlevel (wakeBy_sleep1 hop hsleep)
  case bit1 => exact fun hup hserved => exec_wakeBit hup hserved (.inl hsleep) (wakeBy_sleep1 hop hsleep)
  case timer1 => exact fun hset => exec_wakeTimer (by omega) hset (wakeBy_sleep1 hop hsleep)
  case pin2 => exact fun hlevel => exec_wakeN_asserted hlevel (wakeBy_sleep2 hop hsleep)
  case timer2 => exact fun hset => exec_wakeTimer (by omega) hset (wakeBy_sleep2 hop hsleep)
  case bitEntering => exact fun x hup hserved hop => exec_wakeBit hup hserved (.inr (by simp [hop])) (wakeBy_entering hop)
  case bitAwake => exact exec_wakeBit_awake

end Sys2Proof.Machine

/-! Credits, completions, configuration requests and modules' answers; the limits of a request's transit and of the old map (R48, R76, R77, R372, R374, R377, R379, Table 16.10). The clause on configuration requests fails in a boot halt. -/

namespace Sys2Proof.Machine

section Completions

variable {p : Nat} {m m1 : Msg} {s s1 : State} {x : Txn}

/-! ### Credits and completions (R372, R374, Table 16.10) -/

theorem exec_init {p : BitVec 5} (ret : BitVec 128) (h : nativeUp s p.toNat = true) : exec (.init p ret) s = .next (moved s
    (updPort p.toNat (fun x => { x with credits := { x.credits with send := creditsOf ret } }) (linkHears p.toNat s))) :=
  fabricDo_of (if_pos h)

theorem exec_credit {p : BitVec 5} (ret : BitVec 128) (h : nativeUp s p.toNat = true) : exec (.credit p ret) s = .next (moved s (updPort p.toNat
    (fun x => { x with credits := { x.credits with send := List.zipWith (· + ·) x.credits.send (creditsOf ret) } }) (linkHears p.toNat s))) :=
  fabricDo_of (if_pos h)

/-- A completion whose frame is in order ends the request that it answers with its status; a read must not end well without its data. -/
theorem completionArrives_ends (h : Takes p 1 m s m1 s1) (hrsv : m1.rsv = false) (hhops : m1.hops ≠ 7) (hgsb : gsbOk 8 m1 = true)
    (hx : outstanding s1 p m1 = some x) (hst : x.ty = 1 → (unwire m1 s1).1.status ≠ 0) :
    completionArrives p false m s = endTxn x (unwire m1 s1).1.status.toNat [] 0 (unwire m1 s1).2 := by
  have hhops' : decide (m1.hops = 7) = false := decide_eq_false hhops
  have hread : (decide (x.ty = 1) && decide ((unwire m1 s1).1.status = 0)) = false := by simpa using hst
  rw [completionArrives, receive_takes h]
  simp only [hrsv, hhops', hgsb, hx, hread, Bool.false_and, Bool.or_self, Bool.not_true, Bool.false_eq_true, if_false]

/-- A completion that answers no request is counted. -/
theorem completionArrives_unanswered (h : Takes p 1 m s m1 s1) (hrsv : m1.rsv = false) (hhops : m1.hops ≠ 7) (hgsb : gsbOk 8 m1 = true)
    (hx : outstanding s1 p m1 = none) : completionArrives p false m s = bump .prtErrors p 16 16 1 s1 := by
  have hhops' : decide (m1.hops = 7) = false := decide_eq_false hhops
  rw [completionArrives, receive_takes h]
  simp only [hrsv, hhops', hgsb, hx, Bool.false_and, Bool.or_self, Bool.not_true, Bool.false_eq_true, if_false]

/-- A length that data may have (Table 16.8). -/
def DataLength (m : Msg) : Prop := 64 ≤ m.length.toNat ∧ m.length.toNat ≤ 4096 ∧ m.length.toNat % 64 = 0

/-- A completion with as much data as the read asked for ends it with that data. -/
theorem completionArrives_data {m2 : Msg} {s2 : State} (h : Takes p 1 m s m1 s1) (hrsv : m1.rsv = false) (hhops : m1.hops ≠ 7) (hgsb : gsbOk 9 m1 = true)
    (hlen : DataLength m1) (hx : outstanding s1 p m1 = some x) (hwire : unwire m1 s1 = (m2, s2)) (hread : x.ty = 1) (hfits : m2.data.length = x.len) :
    completionArrives p true m s = endTxn x wOk m2.data m2.mask.toNat s2 := by
  obtain ⟨hlow, hhigh, hlines⟩ := hlen
  have hhops' : decide (m1.hops = 7) = false := decide_eq_false hhops
  rw [completionArrives, receive_takes h]
  simp only [hrsv, hhops', hgsb, hx, hwire, hread, hfits, hlow, hhigh, hlines, decide_true, Bool.and_self, Bool.and_false, Bool.or_self, Bool.not_true, Bool.false_eq_true, if_false, if_true]

/-! ### Answers of modules (R379) -/

theorem exec_trayResponse_unasked {t : BitVec 3} {tag : BitVec 32} (st : BitVec 2) (bad : BitVec 64)
    (h : ∀ x ∈ s.fab.txns, ¬(x.stage = .tray t.toNat ∧ x.id % 2 ^ 32 = tag.toNat)) :
    exec (.trayResponse t tag st bad) s = .next (moved s (bump .tryErrors t.toNat 16 16 1 s)) := by
  have hnone : (s.fab.txns.find? fun x => decide (x.stage = .tray t.toNat) && decide (x.id % 2 ^ 32 = tag.toNat)) = none :=
    List.find?_eq_none.2 fun x hx => by simpa using h x hx
  exact fabricDo_of (by simp only [hnone])

/-- The read of an uncompressed tile has its outcome. -/
theorem trayCame_plain {k bad : Nat} {r : Region} (t : Nat) (hr : regionAt (underMap s x) (offOf x.addr) = some (k, r)) (hplain : r.coded = false) :
    trayCame t bad x s = readNow k r x (placeOf s r (tileOf r (viewFor (underMap s x) k r x.source) (granuleOf r (offOf x.addr)))).tier bad s := by
  simp only [trayCame, hr, hplain, Bool.not_false, Bool.true_or, if_true]

theorem exec_trayResponse_answers {t : BitVec 3} {tag : BitVec 32} (bad : BitVec 64)
    (hx : s.fab.txns.find? (fun x => x.stage = .tray t.toNat && x.id % 2 ^ 32 = tag.toNat) = some x) :
    exec (.trayResponse t tag 0 bad) s = .next (moved s (trayCame t.toNat bad.toNat x s)) :=
  fabricDo_of (by simp only [hx]; rfl)

end Completions

section Transit

variable {s : State}

/-! ### Limits of a request's transit (R76, R77) -/

/-- A request that still waits to leave. -/
def WaitsToLeave (x : Txn) : Prop := x.stage = .ready ∨ ∃ p, x.stage = .egress p ∨ x.stage = .pathHeld p

theorem exec_transitAgeExpiry {n : BitVec 32} {x : Txn} {d : Nat} (hx : s.fab.txns.find? (fun x => x.id % 2 ^ 32 = n.toNat) = some x) (hd : x.deadline = some d)
    (hgated : x.gated = false) (hwaits : WaitsToLeave x) : exec (.transitAgeExpiry n) s = .next (moved s
      (endTxn x wTransit [] 0 (unqueue (·.txn = some x.id) (clockTo d (bump .rngRouteStatus 0 48 16 1 s))))) := by
  refine fabricDo_of ?_
  rcases hwaits with h | ⟨p, h | h⟩ <;> simp only [hx, hd, hgated, h, Bool.not_true, Bool.or_self, Bool.false_eq_true, if_false]

theorem exec_failoverQuietEnd {ps : BitVec 20} {h : Hold} (hh : s.fab.holds.find? (·.ports = ps.toNat) = some h) :
    exec (.failoverQuietEnd ps) s = .next (moved s (wake (· = .pathHeld ps.toNat)
      (clockTo h.deadline { s with fab := { s.fab with holds := s.fab.holds.filter (·.ports != ps.toNat) } }))) :=
  fabricDo_of (by simp only [hh])

/-! ### The old map (R48) -/

variable {o : OldMap}

theorem exec_oldMapFreed_frees (ho : s.gaf.oldMap = some o) (hdone : oldRequests s o = []) :
    exec .oldMapFreed s = .next (moved s (gafferWork (freeOldMap s))) :=
  fabricDo_of (by simp [ho, hdone])

theorem exec_oldMapFreed_waits (ho : s.gaf.oldMap = some o) (hleft : oldRequests s o ≠ []) : exec .oldMapFreed s = .next (drain s) :=
  (fabricDo_of (t := s) (by simp [ho, hleft])).trans (by rw [moved_self])

/-- A request that the drain limit ends: one that no window has begun to take in. -/
def EndsAtLimit (x : Txn) : Prop := ∀ w, x.stage ≠ .window w

theorem exec_drainLimitExpiry_idle (ho : s.gaf.oldMap = some o) (hdone : oldRequests s o = []) :
    exec .drainLimitExpiry s = .next (moved s (gafferWork (freeOldMap (clockTo o.deadline s)))) :=
  fabricDo_of (by simp [ho, hdone])

/-- The drain limit ends what is left, and says so in GAF_ATTN. -/
theorem exec_drainLimitExpiry_ends (ho : s.gaf.oldMap = some o) (hleft : ∃ x ∈ oldRequests s o, EndsAtLimit x) :
    exec .drainLimitExpiry s = .next (moved s (gafferWork (freeOldMap (attn 2 ((oldRequests s o).foldl (fun s x => expireTxn x s) (clockTo o.deadline s)))))) := by
  obtain ⟨x, hx, hends⟩ := hleft
  have hany : ((oldRequests s o).any fun x => match x.stage with | .window _ => false | _ => true) = true := by
    refine List.any_eq_true.2 ⟨x, hx, ?_⟩
    split
    · next w hw => exact absurd hw (hends w)
    · rfl
  refine fabricDo_of ?_
  simp only [ho]
  exact congrArg (fun t => gafferWork (freeOldMap t)) (if_pos hany)

end Transit

section Configuration

/-! ### Configuration requests (R377, R453) -/

theorem drawBytes_length (n : Nat) (s : State) : (drawBytes n s).1.length = n := by simp [drawBytes]

theorem configData_length (p reg : Nat) (s : State) : (configData p reg s).1.length = 4 := by
  simp only [configData]
  split
  · split <;> simp [drawBytes_length]
  · split <;> simp [drawBytes_length]

/-- VENDOR ID (Table 19.5). -/
theorem configData_vendor (p : Nat) (s : State) : (configData p 0 s).1.take 2 = [0x9A, 0x1D] := rfl

/-- DEVICE ID of a port (Table 19.5). -/
theorem configData_device {p : Nat} (hp : p ≠ 20) (s : State) : (configData p 0 s).1.drop 2 = [0x20, 0x28] := by
  simp only [configData, if_true, if_neg hp]
  rfl

/-- REVISION ID of a port (Table 19.5). -/
theorem configData_revision {p : Nat} (hp : p ≠ 20) (s : State) : (configData p 2 s).1.take 1 = [0xB0] := by
  have hport : (p != 20) = true := bne_iff_ne.2 hp
  simp only [configData, hport]
  rfl

/-- The port or the endpoint hears configuration requests (R377). -/
def HearsConfig (p : BitVec 5) (s : State) : Prop :=
  p = 20 ∧ 1 ≤ s.gaf.stage ∨ p.toNat < 20 ∧ (port s p.toNat).link = .l0 ∧ wireMode (port s p.toNat) ≠ 1

/-- A configuration request that is heard is answered: with Retry Status until boot stage 6 and in a boot halt, else a write without and a read with data. -/
theorem execConfigRequest_heard {p : BitVec 5} {s : State} (h : HearsConfig p s) (tag : BitVec 16) (w : Bool) (reg : BitVec 10) :
    execConfigRequest p tag w reg s = .next (
      if s.gaf.stage < 6 ∨ s.gaf.bootHalt = true ∨ w = true then emit (.config p.toNat tag.toNat (decide (s.gaf.stage < 6) || s.gaf.bootHalt) []) s
      else emit (.config p.toNat tag.toNat false (configData p.toNat reg.toNat s).1) { s with freeIx := s.freeIx + 1 }) := by
  rcases h with ⟨rfl, hstage⟩ | ⟨hp, hlink, hmode⟩
  · simp [execConfigRequest, hstage, or_assoc]
    rfl
  · simp [execConfigRequest, hp, Nat.ne_of_lt hp, hlink, hmode, or_assoc]
    rfl

/-- What O45 says of a configuration request. -/
def ConfigAnswered (p : BitVec 5) (tag : BitVec 16) (w : Bool) (reg : BitVec 10) (s : State) : Prop :=
  HearsConfig p s →
    (s.gaf.stage < 6 → exec (.configRequest p tag w reg) s = .next (emit (.config p.toNat tag.toNat true []) s))
    ∧ (6 ≤ s.gaf.stage → w = true → exec (.configRequest p tag w reg) s = .next (emit (.config p.toNat tag.toNat false []) s))
    ∧ (6 ≤ s.gaf.stage → w = false → ∃ bs, bs.length = 4 ∧ exec (.configRequest p tag w reg) s = .next (emit (.config p.toNat tag.toNat false bs) { s with freeIx := s.freeIx + 1 })
        ∧ (reg = 0 → bs.take 2 = [0x9A, 0x1D]) ∧ (reg = 0 → p ≠ 20 → bs.drop 2 = [0x20, 0x28]) ∧ (reg = 2 → p ≠ 20 → bs.take 1 = [0xB0]))

/-- It holds of every state outside a boot halt. -/
theorem configAnswered_of_running {s : State} (hrun : s.gaf.bootHalt = false) (p : BitVec 5) (tag : BitVec 16) (w : Bool) (reg : BitVec 10) : ConfigAnswered p tag w reg s := by
  intro h
  have hexec : exec (.configRequest p tag w reg) s = _ := execConfigRequest_heard h tag w reg
  refine ⟨fun hearly => ?retry, fun hstage hw => ?write, fun hstage hw => ?read⟩
  case retry => exact hexec.trans (by simp [hearly])
  case write => exact hexec.trans (by simp [hw, hrun, Nat.not_lt.2 hstage])
  case read =>
    refine ⟨_, configData_length p.toNat reg.toNat s, hexec.trans (by simp [hw, hrun, Nat.not_lt.2 hstage]), ?_, ?_, ?_⟩
    · rintro rfl
      exact configData_vendor _ s
    · rintro rfl hp
      exact configData_device (fun h => hp (BitVec.eq_of_toNat_eq h)) s
    · rintro rfl hp
      exact configData_revision (fun h => hp (BitVec.eq_of_toNat_eq h)) s

end Configuration

/-! ### The clauses of O45 -/

/-- Every clause of O45 but that on configuration requests holds of every state. -/
theorem completionsAndTransit_iff : Obligations.CompletionsAndTransit ↔ ∀ p tag w reg s, ConfigAnswered p tag w reg s := by
  refine ⟨fun h => h.1.2.2.1, fun hconfig => ⟨⟨fun p ret s hup => ⟨exec_init ret hup, exec_credit ret hup⟩, fun p m m1 s s1 h hrsv hhops => ⟨?ends, ?unanswered, ?data⟩, hconfig,
    fun t tag st bad s => ⟨exec_trayResponse_unasked st bad, ?tray⟩⟩, fun n x d s hx hd hgated hwaits => exec_transitAgeExpiry hx hd hgated hwaits, fun ps h s => exec_failoverQuietEnd,
    fun s o ho => ⟨exec_oldMapFreed_frees ho, exec_oldMapFreed_waits ho, exec_drainLimitExpiry_idle ho, exec_drainLimitExpiry_ends ho⟩⟩⟩
  case ends => exact fun x hgsb hx hst => fabricDo_of (completionArrives_ends h hrsv hhops hgsb hx hst)
  case unanswered => exact fun hgsb hx => fabricDo_of (completionArrives_unanswered h hrsv hhops hgsb hx)
  case data =>
    intro x m2 s2 hgsb hlow hhigh hlines hx hwire hread hfits
    exact fabricDo_of (completionArrives_data h hrsv hhops hgsb ⟨hlow, hhigh, hlines⟩ hx hwire hread hfits)
  case tray =>
    rintro x k r hx hr rfl hplain
    rw [exec_trayResponse_answers bad hx, trayCame_plain _ hr hplain]

/-! ### The refutation -/

/-- A device held in reset with its lid latch set and its lid still open. -/
def lidOpen : State := { kpr := { lid := true }, chip := { rails := true, pins := [(102, { level := true })] } }

/-- The same device in a boot halt, which STATUS reports as stage 14 (R334). -/
def haltedAtBoot : State := bootHaltNow (setPd 1 .on { lidOpen with chip := { lidOpen.chip with inReset := false, straps := 0 } })

/-- The release of its reset leads there. -/
theorem exec_resetRelease_lidOpen : exec (.resetRelease 0) lidOpen = .next haltedAtBoot := rfl

/-- A write at the management endpoint is answered with Retry Status there. -/
theorem not_configAnswered : ¬ ConfigAnswered 20 0 true 0 haltedAtBoot := by
  intro h
  obtain ⟨-, hwrite, -⟩ := h (.inl ⟨rfl, by decide⟩)
  have hexec : exec (.configRequest 20 0 true 0) haltedAtBoot = .next (emit (.config 20 0 true []) haltedAtBoot) := rfl
  have hout := congrArg (fun t => t.fab.out) (Host.Outcome.next.inj (hexec.symm.trans (hwrite (by decide) rfl)))
  exact absurd hout (by decide)

/-- Refutes O45: from stage 6 on its clause on configuration requests has them served, but a boot halt, whose stage reads 14, still answers them with Retry Status; outside a boot halt it holds (`configAnswered_of_running`), and so does every other clause (`completionsAndTransit_iff`). -/
theorem not_completionsAndTransit : ¬ Obligations.CompletionsAndTransit :=
  fun h => not_configAnswered (completionsAndTransit_iff.1 h 20 0 true 0 haltedAtBoot)

end Sys2Proof.Machine

/-! The encodings of the Burpor instructions: the fields of a word of each format, the operands that a field names, and both directions between words and instructions (R167, R168, R198, Tables 8.3 to 8.13, 9.5 to 9.9). -/

namespace Sys2Proof

/-! ### Formats (Table 8.3) -/

section Formats

variable (w : BitVec 32) (m : BitVec 7) (d a b : BitVec 5)

/-- A word of the Register format, by its fields; its codes are read as numbers, as the decoder reads them. -/
theorem fmtR_eq_iff (n : BitVec 10) :
    fmtR m d a b n = w ↔ (wMajor w).toNat = m.toNat ∧ wDest w = d ∧ wSrc1 w = a ∧ wSrc2 w = b ∧ (wMinor w).toNat = n.toNat := by
  simp only [BitVec.toNat_inj, wMajor, wDest, wSrc1, wSrc2, wMinor, fmtR]
  constructor
  · rintro rfl
    refine ⟨?_, ?_, ?_, ?_, ?_⟩ <;> (ext i hi; grind)
  · rintro ⟨rfl, rfl, rfl, rfl, rfl⟩
    ext i hi
    grind

/-- See `fmtR_eq_iff`, for the Immediate, Memory and Branch formats. -/
theorem fmtI_eq_iff (n : BitVec 3) (i : BitVec 12) :
    fmtI m d a n i = w ↔ (wMajor w).toNat = m.toNat ∧ wDest w = d ∧ wSrc1 w = a ∧ (wCond w).toNat = n.toNat ∧ wImm12 w = i := by
  simp only [BitVec.toNat_inj, wMajor, wDest, wSrc1, wCond, wImm12, fmtI]
  constructor
  · rintro rfl
    refine ⟨?_, ?_, ?_, ?_, ?_⟩ <;> (ext i hi; grind)
  · rintro ⟨rfl, rfl, rfl, rfl, rfl⟩
    ext i hi
    grind

/-- See `fmtR_eq_iff`, for the Long format. -/
theorem fmtL_eq_iff (i : BitVec 20) : fmtL m d i = w ↔ (wMajor w).toNat = m.toNat ∧ wDest w = d ∧ wImm20 w = i := by
  simp only [BitVec.toNat_inj, wMajor, wDest, wImm20, fmtL]
  constructor
  · rintro rfl
    refine ⟨?_, ?_, ?_⟩ <;> (ext i hi; grind)
  · rintro ⟨rfl, rfl, rfl⟩
    ext i hi
    grind

/-- See `fmtR_eq_iff`, for the Vector format. -/
theorem fmtV_eq_iff (d a b t : BitVec 4) (p : BitVec 3) (n : BitVec 6) :
    fmtV m d a b t p n = w
      ↔ (wMajor w).toNat = m.toNat ∧ wVd w = d ∧ wVs1 w = a ∧ wVs2 w = b ∧ wTag w = t ∧ wPred w = p ∧ (wOp w).toNat = n.toNat := by
  simp only [BitVec.toNat_inj, wMajor, wVd, wVs1, wVs2, wTag, wPred, wOp, fmtV]
  constructor
  · rintro rfl
    refine ⟨?_, ?_, ?_, ?_, ?_, ?_, ?_⟩ <;> (ext i hi; grind)
  · rintro ⟨rfl, rfl, rfl, rfl, rfl, rfl, rfl⟩
    ext i hi
    grind

@[simp] theorem fields_fmtR (n : BitVec 10) :
    (wMajor (fmtR m d a b n)).toNat = m.toNat ∧ wDest (fmtR m d a b n) = d ∧ wSrc1 (fmtR m d a b n) = a ∧ wSrc2 (fmtR m d a b n) = b ∧ wMinor (fmtR m d a b n) = n := by
  simpa only [BitVec.toNat_inj] using (fmtR_eq_iff _ m d a b n).1 rfl

@[simp] theorem fields_fmtI (n : BitVec 3) (i : BitVec 12) :
    (wMajor (fmtI m d a n i)).toNat = m.toNat ∧ wDest (fmtI m d a n i) = d ∧ wSrc1 (fmtI m d a n i) = a ∧ wCond (fmtI m d a n i) = n ∧ wImm12 (fmtI m d a n i) = i := by
  simpa only [BitVec.toNat_inj] using (fmtI_eq_iff _ m d a n i).1 rfl

@[simp] theorem fields_fmtL (i : BitVec 20) : (wMajor (fmtL m d i)).toNat = m.toNat ∧ wDest (fmtL m d i) = d ∧ wImm20 (fmtL m d i) = i :=
  (fmtL_eq_iff _ m d i).1 rfl

@[simp] theorem fields_fmtV (d a b t : BitVec 4) (p : BitVec 3) (n : BitVec 6) :
    (wMajor (fmtV m d a b t p n)).toNat = m.toNat ∧ wVd (fmtV m d a b t p n) = d ∧ wVs1 (fmtV m d a b t p n) = a ∧ wVs2 (fmtV m d a b t p n) = b
      ∧ wTag (fmtV m d a b t p n) = t ∧ wPred (fmtV m d a b t p n) = p ∧ wOp (fmtV m d a b t p n) = n := by
  simpa only [BitVec.toNat_inj] using (fmtV_eq_iff _ m d a b t p n).1 rfl

end Formats

/-! ### Operands of a field (R167, R168, R198) -/

section Operands

variable {n k : Nat}

/-- A field of two parts, by its parts. -/
theorem append_eq_iff (f : BitVec (n + k)) (x : BitVec n) (y : BitVec k) : f = x ++ y ↔ f.extractLsb' k n = x ∧ f.extractLsb' 0 k = y := by
  constructor
  · rintro rfl
    exact ⟨by ext i hi; grind, by ext i hi; grind⟩
  · rintro ⟨rfl, rfl⟩
    ext i hi
    grind

theorem parts_append (x : BitVec n) (y : BitVec k) : (x ++ y).extractLsb' k n = x ∧ (x ++ y).extractLsb' 0 k = y := (append_eq_iff _ x y).1 rfl

/-- The parts of the immediate of a shift, of the minor of cmp, and of the minor of sel (Tables 8.6, 8.7). -/
@[simp] theorem parts_shift (j : BitVec 6) : BitVec.extractLsb' (n := 12) 6 6 (0#6 ++ j) = 0 ∧ BitVec.extractLsb' (n := 12) 0 6 (0#6 ++ j) = j := parts_append 0#6 j
@[simp] theorem parts_cmp (f : BitVec 3) : BitVec.extractLsb' (n := 10) 3 7 (0#7 ++ f) = 0 ∧ BitVec.extractLsb' (n := 10) 0 3 (0#7 ++ f) = f := parts_append 0#7 f
@[simp] theorem parts_sel (p : BitVec 3) : BitVec.extractLsb' (n := 10) 7 3 (p ++ 0x04#7) = p ∧ BitVec.extractLsb' (n := 10) 0 7 (p ++ 0x04#7) = 0x04#7 := parts_append p 0x04#7

/-- A field of two parts is 0 if both parts are. -/
theorem append_eq_zero (x : BitVec n) (y : BitVec k) : x ++ y = 0 ↔ x = 0 ∧ y = 0 := by
  rw [← BitVec.toNat_inj, ← BitVec.toNat_inj, ← BitVec.toNat_inj]
  simp

/-- A narrow operand in a wide field: the field names it only if its other bits are 0. -/
theorem narrow_eq_some (f : BitVec (n + k)) (y : BitVec k) :
    (if f.extractLsb' k n = 0 then some (f.extractLsb' 0 k) else none) = some y ↔ f = 0#n ++ y := by
  rw [append_eq_iff, Option.ite_none_right_eq_some, Option.some.injEq]
  rfl

theorem rP5_eq_some (f : BitVec 5) (p : BitVec 3) : rP5 f = some p ↔ f = p5 p := narrow_eq_some (n := 2) (k := 3) f p
theorem rV5_eq_some (f : BitVec 5) (v : BitVec 4) : rV5 f = some v ↔ f = v5 v := narrow_eq_some (n := 1) (k := 4) f v
theorem rX5_eq_some (f : BitVec 5) (x : BitVec 2) : rX5 f = some x ↔ f = x5 x := narrow_eq_some (n := 3) (k := 2) f x
theorem rP4_eq_some (f : BitVec 4) (p : BitVec 3) : rP4 f = some p ↔ f = p4 p := narrow_eq_some (n := 1) (k := 3) f p
theorem rX4_eq_some (f : BitVec 4) (x : BitVec 2) : rX4 f = some x ↔ f = x4 x := narrow_eq_some (n := 2) (k := 2) f x

theorem rCC_eq_some (f : BitVec 3) (cc : CC) : rCC f = some cc ↔ f = ccCode cc := by
  cases cc <;> revert f <;> decide

theorem rZero_eq_some (f : BitVec n) (i j : Instr) : rZero f i = some j ↔ f = 0 ∧ i = j := by
  rw [rZero, Option.ite_none_right_eq_some, Option.some.injEq]

@[simp] theorem rP5_p5 (p : BitVec 3) : rP5 (p5 p) = some p := (rP5_eq_some _ p).2 rfl
@[simp] theorem rV5_v5 (v : BitVec 4) : rV5 (v5 v) = some v := (rV5_eq_some _ v).2 rfl
@[simp] theorem rX5_x5 (x : BitVec 2) : rX5 (x5 x) = some x := (rX5_eq_some _ x).2 rfl
@[simp] theorem rP4_p4 (p : BitVec 3) : rP4 (p4 p) = some p := (rP4_eq_some _ p).2 rfl
@[simp] theorem rX4_x4 (x : BitVec 2) : rX4 (x4 x) = some x := (rX4_eq_some _ x).2 rfl
@[simp] theorem rCC_ccCode (cc : CC) : rCC (ccCode cc) = some cc := (rCC_eq_some _ cc).2 rfl
@[simp] theorem rZero_zero (i : Instr) : rZero 0#n i = some i := (rZero_eq_some _ i i).2 ⟨rfl, rfl⟩

end Operands

/-! ### From words to instructions -/

/-- What is decoded, if anything, has the word `w`. -/
def Spells (w : BitVec 32) (o : Option Instr) : Prop := ∀ i, o = some i → encodeBurpor i = some w

section Spells

variable {w : BitVec 32} {i : Instr}

theorem spells_none : Spells w none := fun _ h => absurd h.symm (Option.some_ne_none _)

theorem spells_some : Spells w (some i) ↔ encodeBurpor i = some w := by simp [Spells]

theorem spells_rZero {n : Nat} {f : BitVec n} : Spells w (rZero f i) ↔ (f = 0 → encodeBurpor i = some w) := by
  simp [Spells, rZero_eq_some]

theorem spells_bind {α : Type} {o : Option α} {f : α → Option Instr} : Spells w (o.bind f) ↔ ∀ a, o = some a → Spells w (f a) := by
  simp only [Spells, Option.bind_eq_some_iff]
  exact ⟨fun h a ha i hi => h i ⟨a, ha, hi⟩, fun h i ⟨a, ha, hi⟩ => h a ha i hi⟩

end Spells

section Decoders

variable {c : CellId} {w : BitVec 32}

/-! Each decoder below has a case for each of its codes. Its instruction's word is put together from the code and the fields that it read, and those are the fields of `w`. -/

theorem spells_decodeScalar (hM : (wMajor w).toNat = 0x01) : Spells w (decodeScalar c w) := by
  unfold decodeScalar
  split
  all_goals simp only [spells_none, spells_some, spells_rZero]
  all_goals intros; exact congrArg some ((fmtR_eq_iff ..).2 (by simp [*]))

theorem spells_decodeSystem (hM : (wMajor w).toNat = 0x18) : Spells w (decodeSystem c w) := by
  unfold decodeSystem
  split
  all_goals simp only [spells_none, spells_some, spells_rZero, append_eq_zero, and_imp]
  all_goals intros; exact congrArg some ((fmtR_eq_iff ..).2 (by simp [*]))

theorem spells_decodePred (hM : (wMajor w).toNat = 0x03) : Spells w (decodePred c w) := by
  unfold decodePred
  split
  · next hsel =>
    have hminor : wMinor w = (wMinor w).extractLsb' 7 3 ++ 0x04#7 := (append_eq_iff (n := 3) (k := 7) ..).2 ⟨rfl, hsel⟩
    exact spells_some.2 (congrArg some ((fmtR_eq_iff ..).2 ⟨hM, rfl, rfl, rfl, congrArg BitVec.toNat hminor⟩))
  · split
    all_goals simp only [spells_none, spells_rZero, spells_some, spells_bind, rP5_eq_some, Option.bind_eq_bind]
    all_goals intros; exact congrArg some ((fmtR_eq_iff ..).2 (by simp [*]))

theorem spells_decodeImm (hM : (wMajor w).toNat = 0x04) : Spells w (decodeImm c w) := by
  have hshift (h : (wImm12 w).extractLsb' 6 6 = 0) : wImm12 w = 0#6 ++ (wImm12 w).extractLsb' 0 6 := (append_eq_iff (n := 6) (k := 6) ..).2 ⟨h, rfl⟩
  unfold decodeImm
  split
  all_goals simp only [spells_none, spells_some, spells_rZero]
  case h_5 hcond | h_6 hcond | h_7 hcond => exact fun h => congrArg some ((fmtI_eq_iff ..).2 ⟨hM, rfl, rfl, hcond, hshift h⟩)
  all_goals exact congrArg some ((fmtI_eq_iff ..).2 (by simp [*]))

theorem spells_decodeMemory : Spells w (decodeMemory c w) := by
  unfold decodeMemory
  split
  all_goals simp only [spells_none, spells_some, spells_rZero]
  all_goals intros; exact congrArg some ((fmtI_eq_iff ..).2 (by simp [*]))

theorem spells_decodeBranch (hM : (wMajor w).toNat = 0x0C) : Spells w (decodeBranch c w) := by
  have hlt : (wCond w).toNat < 8 := (wCond w).isLt
  unfold decodeBranch
  split
  case h_8 =>
    have hcond : (wCond w).toNat = 7 := by
      simp only [imp_false] at *
      omega
    simp only [spells_rZero, spells_bind, rP5_eq_some]
    intros; exact congrArg some ((fmtI_eq_iff ..).2 (by simp [*]))
  all_goals simp only [spells_some, spells_rZero, spells_bind, rP5_eq_some]
  all_goals intros; exact congrArg some ((fmtI_eq_iff ..).2 (by simp [*]))

theorem spells_decodeElement (hM : (wMajor w).toNat = 0x40) : Spells w (decodeElement c w) := by
  unfold decodeElement
  split
  all_goals simp only [spells_none, spells_some, spells_rZero, spells_bind, rP4_eq_some, append_eq_zero, and_imp]
  all_goals intros; exact congrArg some ((fmtV_eq_iff ..).2 (by simp [*]))

theorem spells_decodeVector : Spells w (decodeVector c w) := by
  unfold decodeVector
  split
  all_goals simp only [spells_none, spells_some, spells_rZero, spells_bind, rX4_eq_some, append_eq_zero, and_imp]
  all_goals intros; exact congrArg some ((fmtV_eq_iff ..).2 (by simp [*]))

theorem spells_decodeVecMem : Spells w (decodeVecMem c w) := by
  unfold decodeVecMem
  split
  all_goals simp only [spells_none, spells_some, spells_bind, rV5_eq_some, rX5_eq_some]
  all_goals intros; exact congrArg some ((fmtI_eq_iff ..).2 (by simp [*]))

theorem spells_decodeVecMove (hM : (wMajor w).toNat = 0x4A) : Spells w (decodeVecMove c w) := by
  unfold decodeVecMove
  split
  all_goals simp only [spells_none, spells_some, spells_rZero, spells_bind, rV5_eq_some, rX5_eq_some]
  all_goals intros; exact congrArg some ((fmtR_eq_iff ..).2 (by simp [*]))

/-- The minor of a compare is its condition, under seven bits that are 0 (Table 8.7). -/
theorem encode_cmp {cc : CC} {p : BitVec 3} (hM : (wMajor w).toNat = 0x02) (hp : wDest w = p5 p) (hhigh : (wMinor w).extractLsb' 3 7 = 0)
    (hcc : (wMinor w).extractLsb' 0 3 = ccCode cc) : encodeBurpor (.cmp c cc p (wSrc1 w) (wSrc2 w)) = some w := by
  have hminor : wMinor w = 0#7 ++ ccCode cc := (append_eq_iff (n := 7) (k := 3) ..).2 ⟨hhigh, hcc⟩
  exact congrArg some ((fmtR_eq_iff ..).2 ⟨hM, hp, rfl, rfl, congrArg BitVec.toNat hminor⟩)

/-- What a word decodes to, if anything, has that word. -/
theorem spells_decodeBurpor : Spells w (decodeBurpor c w) := by
  unfold decodeBurpor
  split
  case h_1 hM => exact spells_decodeScalar hM
  case h_2 hM =>
    refine spells_bind.2 fun p hp => ?_
    split
    · next hhigh => exact spells_bind.2 fun cc hcc => spells_some.2 (encode_cmp hM ((rP5_eq_some ..).1 hp) hhigh ((rCC_eq_some ..).1 hcc))
    · exact spells_none
  case h_3 hM => exact spells_decodePred hM
  case h_4 hM => exact spells_decodeImm hM
  case h_5 hM =>
    refine spells_bind.2 fun p hp => spells_bind.2 fun cc hcc => spells_some.2 (congrArg some ((fmtI_eq_iff ..).2 ⟨hM, (rP5_eq_some ..).1 hp, rfl, ?_, rfl⟩))
    rw [(rCC_eq_some ..).1 hcc]
  case h_6 | h_7 | h_8 => exact spells_decodeMemory
  case h_9 hM => exact spells_decodeBranch hM
  case h_10 hM => exact spells_rZero.2 fun hz => congrArg some ((fmtI_eq_iff ..).2 ⟨hM, rfl, rfl, congrArg BitVec.toNat hz, rfl⟩)
  case h_11 hM | h_12 hM | h_13 hM | h_14 hM => exact spells_some.2 (congrArg some ((fmtL_eq_iff ..).2 ⟨hM, rfl, rfl⟩))
  case h_15 hM => exact spells_decodeSystem hM
  case h_16 hM => exact spells_decodeElement hM
  case h_17 | h_18 | h_19 | h_20 => exact spells_decodeVector
  case h_23 hM => exact spells_decodeVecMove hM
  case h_21 | h_22 | h_24 | h_25 => exact spells_decodeVecMem
  case h_26 => exact spells_none

end Decoders

/-- Settles O20: the decoder of each major reads every field, and checks those that its instruction does not use. -/
theorem encodeOfDecodedWord : Obligations.EncodeOfDecodedWord := fun _ _ _ h => spells_decodeBurpor _ h

/-! ### From instructions to words -/

/-- An instruction has a word, and the word decodes to it. -/
def RoundTrips (c : CellId) (i : Instr) : Prop := ∃ w : BitVec 32, encodeBurpor i = some w ∧ decodeBurpor c w = some i

/-- Settles O19: the word of each form is given by `encodeBurpor`, and each field of it reads back what was put there. -/
theorem decodeOfEncodedInstruction : Obligations.DecodeOfEncodedInstruction := by
  intro c cc d a b p q r i j u v w x t y z
  show ∀ k ∈ _, RoundTrips c k
  simp only [Machine.burporForms, List.forall_mem_append, List.forall_mem_cons, List.not_mem_nil, false_imp_iff, implies_true, and_true]
  and_intros
  all_goals refine ⟨_, rfl, ?_⟩
  all_goals simp [decodeBurpor, decodeScalar, decodeSystem, decodePred, decodeImm, decodeMemory, decodeBranch, decodeElement, decodeVector, decodeVecMem, decodeVecMove]

/-- Settles O21: every field of these words is a number, so the decoder runs. -/
theorem wordsOfTheEncodingTables : Obligations.WordsOfTheEncodingTables := fun _ => ⟨rfl, rfl, rfl, rfl, rfl, rfl, rfl, rfl, rfl⟩

end Sys2Proof

/-! The outcomes of an instruction on a ready cell, branches and jumps, and instructions whose tag is not accepted (R168, R170, R193, R198, Tables 8.8, 8.9). -/

namespace Sys2Proof.Machine

section Outcomes

variable {c : CellId} {s t : State} {i : Instr} {body : Cell → State → CellOut × State}

/-- An instruction that raises an exception in the state `t`. -/
theorem runCell_raise_in (h : Ready c s) {e a v : Nat} (hb : body (cellOf s (cellNum c)) s = (.raise e a v, t)) :
    runCell c i body s = faulted c e (wordOf i) a v t := by
  rw [runCell_ready h, hb]
  rfl

/-- An instruction that retires with new registers. -/
theorem runCell_done (h : Ready c s) {f : Cell → Cell} (hb : body (cellOf s (cellNum c)) s = (.done (f (cellOf s (cellNum c))), s))
    (hp : ∀ x, (f x).pc = x.pc) (hi : ∀ x, (f x).instrs = x.instrs) : runCell c i body s = retired c f s := by
  rw [runCell_ready h, hb]
  exact applyOut_done _ _ f s hp hi

/-- An instruction whose wait nothing ends at once. -/
theorem runCell_waits (h : Ready c s) {w : CellWait} (hb : body (cellOf s (cellNum c)) s = (.wait w, s)) (hw : settle (cellNum c) (waits c w s) = waits c w s) :
    runCell c i body s = waits c w s := by
  rw [runCell_ready h, hb]
  exact hw

/-- An instruction whose outcome is a jump retires with its registers and its pc. -/
theorem runPure_jump (h : Ready c s) (i : Instr) {f : Cell → CellOut} {g : Cell → Cell} {pc : Cell → U64}
    (hf : f (cellOf s (cellNum c)) = .jump (g (cellOf s (cellNum c))) (pc (cellOf s (cellNum c)))) (hi : ∀ x, (g x).instrs = x.instrs) :
    runPure c i f s = jumped c g pc s := by
  rw [runPure_ready h, hf]
  simp [applyOut, jumped, updCell, Cell.next, hi]

/-- A branch goes to its own address plus its scaled offset where its condition holds, else on. -/
theorem runBranch_taken (h : Ready c s) (i : Instr) (o : BitVec 12) {t : Cell → Bool} {taken : Bool} (ht : t (cellOf s (cellNum c)) = taken) :
    runBranch c i o t s = jumped c id (fun y => if taken then y.pc + BitVec.ofInt 64 (o.toInt * 4) else y.pc + 4) s := by
  rw [runBranch_ready h, ht, BitVec.ofInt_mul]
  rfl

end Outcomes

/-- Settles O6: the branches by their conditions, jalr by whether its target is a multiple of 4. -/
theorem branchAndJumpResults : Obligations.BranchAndJumpResults := by
  intro c d a b p o u s h x go
  have hBranch (i : Instr) {t : Cell → Bool} {taken : Bool} (ht : t x = taken) : (.next (runBranch c i o t s) : Res) = .next (go taken) :=
    congrArg _ (runBranch_taken h i o ht)
  refine ⟨hBranch _ rfl, hBranch _ rfl, hBranch _ rfl, hBranch _ ?bge, hBranch _ rfl, hBranch _ ?bgeu, hBranch _ rfl, hBranch _ rfl, ?jal, fun ht => ?aligned, fun ht => ?misaligned⟩
  case bge => exact ccHolds_eq (cc := .ge) (f := fun v w => decide (w.toInt ≤ v.toInt)) (by simp) _ _
  case bgeu => exact ccHolds_eq (cc := .geu) (f := fun v w => decide (w.toNat ≤ v.toNat)) (by simp) _ _
  case jal => exact congrArg _ (runPure_jump h _ (by rw [lpc_value]) (by simp))
  case aligned => exact congrArg _ (runPure_jump h _ (if_neg (mt bne_iff_ne.1 (not_not.2 ht))) (by simp))
  case misaligned => exact congrArg _ (runPure_raise h _ _ cMisaligned _ 0 (if_pos (bne_iff_ne.2 ht)))

/-- Settles O16: each instruction runs under the test of its tag, and xrd tests its tag itself. -/
theorem unacceptedTagsRaiseIllegal : Obligations.UnacceptedTagsRaiseIllegal := by
  intro c vd a b t q p d y s h
  have hRefused {ok : Bool} (hok : ok = false) (i : Instr) (f : Cell → CellOut) : (.next (runV c i ok f s) : Res) = .next (faulted c 0x01 (wordOf i) 0 0 s) :=
    congrArg _ (runV_refused h hok i f)
  refine ⟨fun i hi ht => ?numeric, fun i hi ht => ?integer, fun i hi ht => ?functions, fun i hi ht => ?accumulate, fun hp => hRefused (decide_eq_false hp) _ _,
    fun ht => hRefused ht _ _, fun ht => hRefused ht _ _, fun ht => ?xrd⟩
  case numeric | integer | accumulate =>
    repeat' rcases hi with _ | ⟨_, hi⟩
    all_goals exact hRefused ht _ _
  case functions =>
    have hFn (i : Instr) (g : FV → FV) : (.next (runFn c i vd a t p g s) : Res) = .next (faulted c 0x01 (wordOf i) 0 0 s) := by
      rw [runFn, runElem, hRefused ht]
    repeat' rcases hi with _ | ⟨_, hi⟩
    all_goals exact hFn _ _
  case xrd => exact congrArg _ (runCell_raise_in h (by simp only [ht]; rfl))

end Sys2Proof.Machine

/-! Clappers: additions and the waits that they fire, and the instructions on a clapper of the cell's tent (R53, R54, R177). -/

namespace Sys2Proof.Machine

section Additions

variable {s : State} {k : Nat} {x : Clapper}

/-- A sum past 64 bits saturates and sets the flag (R53). -/
theorem addCtr_eq (x : Clapper) (v : Nat) :
    addCtr x v = if x.ctr.toNat + v < 2 ^ 64 then { x with ctr := BitVec.ofNat 64 (x.ctr.toNat + v) } else { x with ctr := BitVec.ofNat 64 (2 ^ 64 - 1), ovf := true } := by
  by_cases h : x.ctr.toNat + v < 2 ^ 64
  · rw [addCtr, if_neg (by omega), if_pos h]
  · rw [addCtr, if_pos (by omega), if_neg h]
    rfl

/-- See `addCtr_eq`, for the counter alone. -/
theorem addCtr_ctr (x : Clapper) (v : Nat) :
    (addCtr x v).ctr = if x.ctr.toNat + v < 2 ^ 64 then BitVec.ofNat 64 (x.ctr.toNat + v) else BitVec.allOnes 64 := by
  rw [addCtr_eq]
  split <;> rfl

/-- Firing waits touches only what has fired and the cells that wait. -/
theorem fireWaits_rest (k : Nat) (s : State) : ∃ fired crw, fireWaits k s = { s with gaf := { s.gaf with fired := fired }, crw := crw } := by
  unfold fireWaits
  split
  · exact ⟨_, _, rfl⟩
  · exact ⟨_, _, rfl⟩

/-- So does an addition, but for the clapper itself. -/
theorem clapAdd_rest (k v : Nat) (s : State) :
    ∃ fired crw, clapAdd k v s = { s with gaf := { s.gaf with clappers := upd s.gaf.clappers k (addCtr · v), fired := fired }, crw := crw } :=
  fireWaits_rest k _

theorem clapper_clapAdd (k v j : Nat) (s : State) : clapper (clapAdd k v s) j = if j = k then (clapper s j).map (addCtr · v) else clapper s j := by
  obtain ⟨fired, crw, h⟩ := clapAdd_rest k v s
  simp only [h, clapper, find_upd]

/-- Entries put one after the other with one value: each key among them reads it. -/
theorem find_foldl_put {α β : Type} (a : α) {j : Nat} (es : List (Nat × β)) (t : List (Nat × α)) (h : find t j = some a ∨ j ∈ es.map Prod.fst) :
    find (es.foldl (fun t e => put t e.1 a) t) j = some a := by
  induction es generalizing t with
  | nil => simpa using h
  | cons e es ih =>
    refine ih _ ?_
    by_cases hj : j = e.1
    · exact .inl (hj ▸ find_put_same ..)
    · rw [find_put_other _ _ hj]
      exact h.imp_right fun hmem => (List.mem_cons.1 hmem).resolve_left hj

/-- A wait whose threshold the counter has reached, and that has not fired before, fires with the counter (R54). -/
theorem find_fired_fireWaits {w : Nat} {z : Wait} (hx : clapper s k = some x) (hw : (w, z) ∈ s.gaf.waits) (hk : z.clapper = k) (hreached : z.threshold ≤ x.ctr)
    (hnew : find s.gaf.fired w = none) : find (fireWaits k s).gaf.fired w = some x.ctr := by
  simp only [fireWaits, hx]
  refine find_foldl_put _ _ _ (.inr (List.mem_map.2 ⟨(w, z), ?_, rfl⟩))
  simp [hw, hk, hreached, has, hnew]

end Additions

section OfTheTent

variable {s : State} {n : Nat} {v : U64} {x : Clapper}

/-- A register that names a clapper of the cell's tent. -/
theorem cellClap_own (hv : v.toNat < 131072) (hx : clapper s v.toNat = some x) (ho : x.owner = some (cellTent s n)) : cellClap s n v = some x := by
  simp [cellClap, ownsClap, hv, hx, ho]

/-- A register that names none. -/
theorem cellClap_other (h : 131072 ≤ v.toNat ∨ ∀ x, clapper s v.toNat = some x → x.owner ≠ some (cellTent s n)) : cellClap s n v = none := by
  refine if_neg ?_
  simp only [ownsClap, Bool.and_eq_true, decide_eq_true_eq, Option.map_eq_some_iff, not_and, not_exists]
  exact fun hv x hx => h.elim (fun hk => absurd hv (Nat.not_lt.2 hk)) fun h => h x hx

end OfTheTent

/-- Settles O9: the instructions by the clapper that their register names, the addition by `clapper_clapAdd` and `find_fired_fireWaits`. -/
theorem clapperInstructionResults : Obligations.ClapperInstructionResults := by
  refine ⟨fun c d a b s h => ⟨fun v hlt hv ho => ?own, fun hother => ?other⟩, fun k v x s hx => ?addition⟩
  case own =>
    have hk := cellClap_own hlt hv ho
    refine ⟨?cadd, ?cld, fun hreached => ?reached, fun hearly => ?early⟩
    case cadd =>
      refine congrArg _ ((runCell_ready h _ _).trans ?_)
      simp only [hk, addCtr_ctr]
      rfl
    case cld => exact congrArg _ (runCell_done h (f := fun y => y.wg d v.ctr) (by simp only [hk]) (by simp) (by simp))
    case reached =>
      have hle : (cellOf s (cellNum c)).rg b ≤ v.ctr := hreached
      exact congrArg _ (runCell_done h (f := fun y => y.wg d v.ctr) (by simp only [hk, if_pos hle]) (by simp) (by simp))
    case early =>
      have hgt : ¬(cellOf s (cellNum c)).rg b ≤ v.ctr := Nat.not_le.2 hearly
      exact congrArg _ (runCell_waits h (by simp only [hk, if_neg hgt]) (by simp [settle, waits]))
  case other =>
    have hk := cellClap_other hother
    refine ⟨?_, ?_, ?_⟩
    all_goals exact congrArg _ (runCell_raise_in h (by simp only [hk]; rfl))
  case addition =>
    intro t y
    have hy : addCtr x v = y := addCtr_eq x v
    refine ⟨?same, fun j hj => ?others, fun w z hw hk hreached hnew => ?fires, ?rest⟩
    case same => rw [clapper_clapAdd, if_pos rfl, hx, ← hy]; rfl
    case others => rw [clapper_clapAdd, if_neg hj]
    case fires =>
      rw [← hy] at hreached ⊢
      exact find_fired_fireWaits (by simp [clapper, find_upd, show find s.gaf.clappers k = some x from hx]) hw hk hreached hnew
    case rest =>
      obtain ⟨fired, crw, ht⟩ := clapAdd_rest k v s
      simp [t, ht]

end Sys2Proof.Machine

/-! What an instruction may touch: the instructions that compute, branch or access local memory stay in their crew (R169, R180, R331). -/

namespace Sys2Proof.Machine

/-! ### States that agree outside a crew -/

/-- `t` is `s` but for the cells and the memory of the crew of cell `n`, and for free values that were drawn. -/
structure AgreeOutside (n : Nat) (s t : State) : Prop where
  rest : t = { s with crw := t.crw, freeIx := t.freeIx }
  cells : ∀ m, m / 32 ≠ n / 32 → cellOf t m = cellOf s m
  crews : ∀ m, m ≠ n / 32 → crewOf t m = crewOf s m

/-- The members of a barrier: the cells of its crew and its run that run or wait (R179). -/
theorem mem_barMembers {s : State} {m k g : Nat} :
    m ∈ barMembers s k g ↔ m / 32 = k ∧ (cellOf s m).group = g ∧ ((cellOf s m).state = .running ∨ (cellOf s m).state = .waiting) := by
  have hcrew : m ∈ crewCells k ↔ m / 32 = k := by
    simp only [crewCells, List.mem_map, List.mem_range]
    exact ⟨fun ⟨i, hi, hm⟩ => by omega, fun hm => ⟨m % 32, by omega, by omega⟩⟩
  simp [barMembers, hcrew]

namespace AgreeOutside

variable {n : Nat} {s t u : State}

theorem refl (s : State) : AgreeOutside n s s := ⟨rfl, fun _ _ => rfl, fun _ _ => rfl⟩

theorem trans (h : AgreeOutside n s t) (h' : AgreeOutside n t u) : AgreeOutside n s u :=
  ⟨by rw [h'.rest, h.rest], fun m hm => (h'.cells m hm).trans (h.cells m hm), fun m hm => (h'.crews m hm).trans (h.crews m hm)⟩

theorem updCell {m : Nat} (hm : m / 32 = n / 32) (f : Cell → Cell) (s : State) : AgreeOutside n s (updCell m f s) :=
  ⟨rfl, fun _ hj => cellOf_updCell_other f s fun h => hj (h ▸ hm), fun _ _ => rfl⟩

theorem updCrew (f : Crew → Crew) (s : State) : AgreeOutside n s (updCrew (n / 32) f s) :=
  ⟨rfl, fun _ _ => rfl, fun _ hj => crewOf_updCrew_other f s hj⟩

theorem drawNat (s : State) : AgreeOutside n s (drawNat s).2 := ⟨rfl, fun _ _ => rfl, fun _ _ => rfl⟩

theorem locWrite (l : Loc) (bs : List Byte) (s : State) : AgreeOutside n s (locWrite n l bs s) := by
  unfold Machine.locWrite
  split
  · exact updCell rfl _ s
  · exact updCrew _ s

theorem locMark (l : Loc) (b : Bool) (s : State) : AgreeOutside n s (locMark n l b s) := by
  unfold Machine.locMark
  dsimp only
  split
  · exact updCell rfl _ s
  · exact updCrew _ s

theorem foldl_updCell (f : Cell → Cell) {ms : List Nat} (hms : ∀ m ∈ ms, m / 32 = n / 32) (s : State) :
    AgreeOutside n s (ms.foldl (fun s m => Machine.updCell m f s) s) := by
  induction ms generalizing s with
  | nil => exact refl s
  | cons m ms ih => exact (updCell (hms m List.mem_cons_self) f s).trans (ih (fun m hm => hms m (List.mem_cons_of_mem _ hm)) _)

theorem releaseBar (group : Nat) (s : State) : AgreeOutside n s (releaseBar (n / 32) group s) := by
  unfold Machine.releaseBar
  dsimp only
  split
  · exact foldl_updCell _ (fun m hm => (mem_barMembers.1 hm).1) s
  · exact refl s

theorem raiseCell (cause instr addr value : Nat) (s : State) : AgreeOutside n s (raiseCell n cause instr addr value s) :=
  (updCell rfl _ s).trans (releaseBar _ _)

end AgreeOutside

/-! ### Outcomes that stay in the crew -/

/-- An outcome that does not wait. -/
def CellOut.ends : CellOut → Bool
  | .wait _ => false
  | _ => true

/-- What an instruction of cell `n` that computes leaves of `s`: it does not wait, and its state agrees outside the crew or counts an access to a bound accumulator area. -/
def StaysInCrew (n : Nat) (s : State) (r : CellOut × State) : Prop := r.1.ends = true ∧ (AgreeOutside n s r.2 ∨ r.2 = countXlock (n / 32) s)

section StaysInCrew

variable {n a len align : Nat} {s : State}

theorem pure_staysInCrew {o : CellOut} (h : o.ends = true) (s : State) : StaysInCrew n s (o, s) := ⟨h, .inl (.refl s)⟩

/-- A failed access leaves the state as it is, or counts it. -/
theorem accessFault_staysInCrew (cause : Nat) : StaysInCrew n s (accessFault n cause a s) := by
  refine ⟨rfl, ?_⟩
  unfold accessFault
  split
  · exact .inr rfl
  · exact .inl (.refl s)

theorem loadThen_staysInCrew {k : List Byte → CellOut} (h : ∀ bs, (k bs).ends = true) : StaysInCrew n s (loadThen n a len align k s) := by
  unfold loadThen
  split
  · exact accessFault_staysInCrew _
  · exact pure_staysInCrew (h _) s

theorem storeThen_staysInCrew {bs : List Byte} {x : Cell} : StaysInCrew n s (storeThen n a align bs x s) := by
  unfold storeThen
  split
  · exact accessFault_staysInCrew _
  · exact ⟨rfl, .inl (.locWrite ..)⟩

end StaysInCrew

section Outcomes

variable {c : CellId} {s t : State} {i : Instr} {body : Cell → State → CellOut × State}

theorem applyOut_agrees {n : Nat} (word : Nat) {o : CellOut} (h : o.ends = true) (s : State) : AgreeOutside n s (applyOut n word o s) := by
  unfold applyOut
  split
  · exact .updCell rfl _ s
  · exact .updCell rfl _ s
  · exact .raiseCell ..
  · cases h

/-- Whatever the state it runs in, such an instruction stays in its crew, but for the count of accesses to a bound area. -/
theorem runCell_agrees (hb : ∀ x s, StaysInCrew (cellNum c) s (body x s)) (s : State) :
    AgreeOutside (cellNum c) s (runCell c i body s) ∨ AgreeOutside (cellNum c) (countXlock (cellNum c / 32) s) (runCell c i body s) := by
  unfold runCell
  dsimp only
  split
  · exact .inl (.refl s)
  · split
    · exact .inl ((AgreeOutside.drawNat s).trans (.raiseCell ..))
    · split
      · exact .inr ((AgreeOutside.drawNat (countXlock (cellNum c / 32) s)).trans (.raiseCell ..))
      · obtain ⟨hends, hstays | hcounts⟩ := hb (cellOf s (cellNum c)) s
        · exact .inl (hstays.trans (applyOut_agrees _ hends _))
        · exact .inr (hcounts ▸ applyOut_agrees _ hends _)

end Outcomes

/-! ### The instructions that compute -/

/-- A change of the machine that is an instruction of cell `c` whose meaning stays in its crew. -/
def RunsInCrew (c : CellId) (i : Instr) (f : State → State) : Prop := ∃ body, (∀ x s, StaysInCrew (cellNum c) s (body x s)) ∧ ∀ s, f s = runCell c i body s

section RunsInCrew

variable {c : CellId} {i : Instr}

theorem runCell_runsInCrew {body : Cell → State → CellOut × State} (h : ∀ x s, StaysInCrew (cellNum c) s (body x s)) : RunsInCrew c i (runCell c i body) :=
  ⟨body, h, fun _ => rfl⟩

theorem runPure_runsInCrew {f : Cell → CellOut} (h : ∀ x, (f x).ends = true) : RunsInCrew c i (runPure c i f) :=
  runCell_runsInCrew fun x s => pure_staysInCrew (h x) s

theorem runG_runsInCrew (d : BitVec 5) (f : Cell → U64) : RunsInCrew c i (runG c i d f) := runPure_runsInCrew fun _ => rfl
theorem runRR_runsInCrew (d a b : BitVec 5) (f : U64 → U64 → U64) : RunsInCrew c i (runRR c i d a b f) := runG_runsInCrew d _
theorem runP_runsInCrew (p : BitVec 3) (f : Cell → BitVec 32) : RunsInCrew c i (runP c i p f) := runPure_runsInCrew fun _ => rfl

theorem runBranch_runsInCrew (o : BitVec 12) (taken : Cell → Bool) : RunsInCrew c i (runBranch c i o taken) :=
  runPure_runsInCrew fun x => by split <;> rfl

theorem runV_runsInCrew (ok : Bool) (g : Cell → Cell) : RunsInCrew c i (runV c i ok fun x => .done (g x)) :=
  runPure_runsInCrew fun x => by split <;> rfl

theorem runElem_runsInCrew (ok : Bool) (vd a b t : BitVec 4) (p : BitVec 3) (f : Nat → Nat → Nat → Nat) : RunsInCrew c i (runElem c i ok vd a b t p f) :=
  runV_runsInCrew ok _

theorem runFn_runsInCrew (vd a t : BitVec 4) (p : BitVec 3) (g : FV → FV) : RunsInCrew c i (runFn c i vd a t p g) :=
  runElem_runsInCrew (tagFn t) vd a a t p fun x _ _ => numOp1 t g id x

theorem runCompare_runsInCrew (pd : BitVec 3) (a b t : BitVec 4) (p : BitVec 3) (g : FV → FV → Bool) (h : Int → Int → Bool) :
    RunsInCrew c i (runCompare c i pd a b t p g h) := runV_runsInCrew _ _

theorem runReduce_runsInCrew (ok : Bool) (vd a t : BitVec 4) (p : BitVec 3) (f : List (Option Nat) → Nat) : RunsInCrew c i (runReduce c i ok vd a t p f) :=
  runV_runsInCrew ok _

theorem runLoad_runsInCrew (r b : BitVec 5) (o : BitVec 12) (len : Nat) (signed : Bool) : RunsInCrew c i (runLoad c i r b o len signed) :=
  runCell_runsInCrew fun _ _ => loadThen_staysInCrew fun _ => rfl

theorem runStore_runsInCrew (r b : BitVec 5) (o : BitVec 12) (len : Nat) : RunsInCrew c i (runStore c i r b o len) :=
  runCell_runsInCrew fun _ _ => storeThen_staysInCrew

theorem runDotM_runsInCrew (vd n b t : BitVec 4) (p : BitVec 3) (inc : Bool) : RunsInCrew c i (runDotM c i vd n b t p inc) := by
  refine runCell_runsInCrew fun x s => ?_
  split
  · exact pure_staysInCrew rfl s
  · exact loadThen_staysInCrew fun _ => rfl

theorem runPure_done_runsInCrew (g : Cell → Cell) : RunsInCrew c i (runPure c i fun x => .done (g x)) := runPure_runsInCrew fun _ => rfl
theorem runPure_jump_runsInCrew (g : Cell → Cell) (pc : Cell → U64) : RunsInCrew c i (runPure c i fun x => .jump (g x) (pc x)) := runPure_runsInCrew fun _ => rfl
theorem runPure_raise_runsInCrew (e a : Nat) (v : Cell → Nat) : RunsInCrew c i (runPure c i fun x => .raise e a (v x)) := runPure_runsInCrew fun _ => rfl

theorem runCell_load_runsInCrew (addr : Cell → Nat) (len align : Nat) (g : Cell → List Byte → Cell) :
    RunsInCrew c i (runCell c i fun x s => loadThen (cellNum c) (addr x) len align (fun bs => .done (g x bs)) s) :=
  runCell_runsInCrew fun _ _ => loadThen_staysInCrew fun _ => rfl

theorem runCell_store_runsInCrew (addr : Cell → Nat) (align : Nat) (bytes : Cell → List Byte) :
    RunsInCrew c i (runCell c i fun x s => storeThen (cellNum c) (addr x) align (bytes x) x s) :=
  runCell_runsInCrew fun _ _ => storeThen_staysInCrew

end RunsInCrew

/-- The command is such an instruction. -/
def ComputesInCrew (c : CellId) (i : Instr) : Prop := ∃ f, RunsInCrew c i f ∧ ∀ s, exec i s = .next (f s)

section ComputesInCrew

variable {c : CellId}

theorem jalr_computesInCrew (d a : BitVec 5) (o : BitVec 12) : ComputesInCrew c (.jalr c d a o) :=
  ⟨_, runPure_runsInCrew fun x => by dsimp only; split <;> rfl, fun _ => rfl⟩

theorem zline_computesInCrew (b : BitVec 5) (o : BitVec 12) : ComputesInCrew c (.zline c b o) := by
  refine ⟨_, runCell_runsInCrew fun x s => ?_, fun _ => rfl⟩
  dsimp only
  split
  · exact accessFault_staysInCrew _
  · exact ⟨rfl, .inl (.trans (.locWrite ..) (.locMark ..))⟩

theorem xrd_computesInCrew (d : BitVec 5) (xs : BitVec 2) (t : BitVec 4) : ComputesInCrew c (.xrd c d xs t) := by
  refine ⟨_, runCell_runsInCrew fun x s => ?_, fun _ => rfl⟩
  dsimp only
  split
  · split
    · exact ⟨rfl, .inl (.drawNat s)⟩
    · exact pure_staysInCrew rfl s
  · exact pure_staysInCrew rfl s

/-- The instructions of Table 8.13 that act on dollies, clappers, queues and barriers, and halt. -/
def systemForms (c : CellId) (d a b : BitVec 5) : List Instr :=
  [Instr.dsub c d a, .dwait c d, .dpoll c d, .cadd c d a b, .cld c d a, .cwait c d a b, .qput c d a b, .qget c d a b, .fence c, .bar c, .halt c]

/-- Every other Burpor instruction computes in its crew. -/
theorem computesInCrew {cc d a b p q r i j u v w x t y z} {k : Instr} (h : k ∈ burporForms c cc d a b p q r i j u v w x t y z) (hk : k ∉ systemForms c d a b) :
    ComputesInCrew c k := by
  revert k
  simp only [burporForms, List.forall_mem_append, List.forall_mem_cons, List.not_mem_nil, false_imp_iff, implies_true, and_true]
  simp only [systemForms, List.mem_cons, List.not_mem_nil, reduceCtorEq, or_false, or_true, not_false_eq_true, true_imp_iff, not_true_eq_false, false_imp_iff, true_and,
    jalr_computesInCrew, zline_computesInCrew, xrd_computesInCrew]
  and_intros
  all_goals refine ⟨_, ?_, fun _ => rfl⟩
  all_goals simp only [runG_runsInCrew, runRR_runsInCrew, runP_runsInCrew, runBranch_runsInCrew, runV_runsInCrew, runElem_runsInCrew, runFn_runsInCrew, runCompare_runsInCrew,
    runReduce_runsInCrew, runLoad_runsInCrew, runStore_runsInCrew, runDotM_runsInCrew, runPure_done_runsInCrew, runPure_jump_runsInCrew, runPure_raise_runsInCrew,
    runCell_load_runsInCrew, runCell_store_runsInCrew]

end ComputesInCrew

/-- Settles O58: such an instruction leaves a state that agrees outside the crew with the state before, or with that state and the access counted. -/
theorem computingInstructionsStayInTheirCrew : Obligations.ComputingInstructionsStayInTheirCrew := by
  intro c cc d a b p q r i j u v w x t y z k s hk hsystem
  obtain ⟨f, ⟨body, hbody, hf⟩, hexec⟩ := computesInCrew hk hsystem
  have hrun : exec k s = .next (runCell c k body s) := (hexec s).trans (congrArg _ (hf s))
  obtain ⟨hrest, hcells, hcrews⟩ | ⟨hrest, hcells, hcrews⟩ := runCell_agrees (i := k) hbody s
  · exact ⟨_, _, _, .inl rfl, hrun.trans (congrArg _ hrest), hcells, hcrews⟩
  · exact ⟨_, _, _, .inr rfl, hrun.trans (congrArg _ hrest), hcells, hcrews⟩

end Sys2Proof.Machine

/-! Exceptions: cells that execute nothing, fetches that fail, and loads and stores that a check refuses (R165, R170, R171, R173, R180, R207, R215, Table 8.14). -/

namespace Sys2Proof.Machine

/-! ### Cells that do not run, and the fetch -/

section Fetch

variable {c : CellId} {s t : State} {i : Instr} {body : Cell → State → CellOut × State}

theorem runCell_stopped (h : (cellOf s (cellNum c)).state ≠ .running) : runCell c i body s = s := by
  simp [runCell, h]

section Running

variable (hr : (cellOf s (cellNum c)).state = .running) (hd : (crewOf s (cellNum c / 32)).decode = none) (hk : relocking s (cellNum c / 512) = false)

include hr hd hk

/-- A fetch outside the text raises FETCH (R170). -/
theorem runCell_unfetched (hf : fetchable? s (cellNum c) (cellOf s (cellNum c)).pc.toNat = false) :
    runCell c i body s = faulted c 0x02 (Config.free s.freeIx % 2 ^ 32) (cellOf s (cellNum c)).pc.toNat 0 { s with freeIx := s.freeIx + 1 } := by
  simp [runCell, hr, hd, hk, hf]
  rfl

/-- A fetch inside a bound area raises XLOCK, which is counted (R215). -/
theorem runCell_locked (hf : fetchable? s (cellNum c) (cellOf s (cellNum c)).pc.toNat = true)
    (ha : inArea (crewOf s (cellNum c / 32)) ((cellOf s (cellNum c)).pc.toNat - crewBase) 4 = true) :
    runCell c i body s = faulted c 0x10 (Config.free s.freeIx % 2 ^ 32) (cellOf s (cellNum c)).pc.toNat 0 (countXlock (cellNum c / 32) { s with freeIx := s.freeIx + 1 }) := by
  simp [runCell, hr, hd, hk, hf, ha]
  rfl

end Running

/-- Work that asks for no line is done at once. -/
theorem ready_done {f : State → State} (h : (f s).coh = s.coh) : ready f s = f s := held_done (congrArg Coh.need h)

theorem faulted_coh (cause word addr value : Nat) (s : State) : (faulted c cause word addr value s).coh = s.coh := by
  have hfault : AgreeOutside (cellNum c) s (faulted c cause word addr value s) := .raiseCell ..
  rw [hfault.rest]

/-- Every Burpor instruction runs on its cell; a qget, whose entry may have to wait for a line, as work that may be held. -/
theorem exec_burporForm {cc d a b p q r j u v w x y z o m} {k : Instr} (h : k ∈ burporForms c cc d a b p q r o j u v w x y z m) :
    ∃ body, ∀ s, exec k s = .next (runCell c k body s) ∨ exec k s = .next (ready (runCell c k body) s) := by
  by_cases hk : k ∈ systemForms c d a b
  · simp only [systemForms, List.mem_cons, List.not_mem_nil, or_false] at hk
    rcases hk with rfl | rfl | rfl | rfl | rfl | rfl | rfl | rfl | rfl | rfl | rfl
    case inr.inr.inl => exact ⟨fun x s => (.done (x.wg d (BitVec.ofNat 64 x.retired)), s), fun _ => .inl rfl⟩
    case inr.inr.inr.inr.inr.inr.inr.inl => exact ⟨_, fun _ => .inr rfl⟩
    all_goals exact ⟨_, fun _ => .inl rfl⟩
  · obtain ⟨f, ⟨body, -, hf⟩, hexec⟩ := computesInCrew h hk
    exact ⟨body, fun s => .inl ((hexec s).trans (congrArg _ (hf s)))⟩

/-- Where every instruction of the cell leads to the same state, whatever its meaning, each of them leads there. -/
theorem exec_burporForm_eq {cc d a b p q r j u v w x y z o m} {k : Instr} (hk : k ∈ burporForms c cc d a b p q r o j u v w x y z m)
    (ht : ∀ body, runCell c k body s = t) (hcoh : t.coh = s.coh) : exec k s = .next t := by
  obtain ⟨body, hexec⟩ := exec_burporForm hk
  rcases hexec s with hplain | hready
  · rw [hplain, ht]
  · rw [hready, ready_done (by rw [ht, hcoh]), ht]

/-- A word of no instruction raises ILLEGAL on a ready cell (R168). -/
theorem execIllegalInstruction_ready (h : Ready c s) {w : BitVec 32} (hw : decodeBurpor c w = none) :
    execIllegalInstruction c w s = .next (faulted c 0x01 w.toNat 0 0 s) := by
  have hf := fetchable_of_ready h
  obtain ⟨hr, -, -, -, -, ha⟩ := h
  simp [execIllegalInstruction, hw, hr, hf, ha]
  rfl

end Fetch

/-! ### Checks of loads and stores -/

section Checks

variable {s : State} {n a len align : Nat} {l : Loc}

theorem loadCheck_misaligned (h : a % align ≠ 0) : loadCheck s n a len align = .error cMisaligned := by simp [loadCheck, h]

theorem loadCheck_unmapped (h : a % align = 0) (hl : locOf a len = none) : loadCheck s n a len align = .error cAccess := by simp [loadCheck, h, hl]

theorem loadCheck_locked (h : a % align = 0) (hl : locOf a len = some l) (ha : locArea s n l len = true) : loadCheck s n a len align = .error cXlock := by
  simp [loadCheck, h, hl, ha]

theorem loadCheck_poisoned (h : a % align = 0) (hl : locOf a len = some l) (ha : locArea s n l len = false) (hm : locMarked s n l len = true) :
    loadCheck s n a len align = .error cPoison := by simp [loadCheck, h, hl, ha, hm]

theorem storeCheck_misaligned (h : a % align ≠ 0) : storeCheck s n a len align = .error cMisaligned := by simp [storeCheck, h]

theorem storeCheck_unmapped (h : a % align = 0) (hl : locOf a len = none) : storeCheck s n a len align = .error cAccess := by simp [storeCheck, h, hl]

theorem storeCheck_text (h : a % align = 0) (hl : locOf a len = some l) (ht : locText s n l len = true) : storeCheck s n a len align = .error cAccess := by
  simp [storeCheck, h, hl, ht]

theorem storeCheck_locked (h : a % align = 0) (hl : locOf a len = some l) (ht : locText s n l len = false) (ha : locArea s n l len = true) :
    storeCheck s n a len align = .error cXlock := by simp [storeCheck, h, hl, ht, ha]

end Checks

/-- The state of a refused access: the fault, an XLOCK counted. -/
def refusedAccess (c : CellId) (e : Nat) (i : Instr) (a : Nat) (s : State) : State :=
  faulted c e (wordOf i) a 0 (if e = cXlock then countXlock (cellNum c / 32) s else s)

section Refused

variable {c : CellId} {s : State} {a len e : Nat} (h : Ready c s) (i : Instr)

include h

/-- A load that its check refuses loads nothing. -/
theorem runCell_load_refused {addr : Cell → Nat} {k : Cell → List Byte → CellOut} (ha : addr (cellOf s (cellNum c)) = a) (he : loadCheck s (cellNum c) a len len = .error e) :
    runCell c i (fun x s => loadThen (cellNum c) (addr x) len len (k x) s) s = refusedAccess c e i a s := by
  subst ha
  exact runCell_raise_in h (loadThen_fault he _)

/-- A store that its check refuses stores nothing. -/
theorem runCell_store_refused {addr : Cell → Nat} {bytes : Cell → List Byte} (hlen : (bytes (cellOf s (cellNum c))).length = len) (ha : addr (cellOf s (cellNum c)) = a)
    (he : storeCheck s (cellNum c) a len len = .error e) :
    runCell c i (fun x s => storeThen (cellNum c) (addr x) len (bytes x) x s) s = refusedAccess c e i a s := by
  subst ha hlen
  exact runCell_raise_in h (storeThen_fault he _)

theorem runLoad_refused {r b : BitVec 5} {o : BitVec 12} {signed : Bool} (ha : memAddr (cellOf s (cellNum c)) b o = a) (he : loadCheck s (cellNum c) a len len = .error e) :
    runLoad c i r b o len signed s = refusedAccess c e i a s := runCell_load_refused h i (addr := fun x => memAddr x b o) ha he

theorem runStore_refused {r b : BitVec 5} {o : BitVec 12} (ha : memAddr (cellOf s (cellNum c)) b o = a) (he : storeCheck s (cellNum c) a len len = .error e) :
    runStore c i r b o len s = refusedAccess c e i a s := runCell_store_refused h i (addr := fun x => memAddr x b o) (leBytes_length ..) ha he

theorem execZline_refused {b : BitVec 5} {o : BitVec 12} (ha : memAddr (cellOf s (cellNum c)) b o = a) (he : storeCheck s (cellNum c) a 64 64 = .error e) :
    execZline c b o s = .next (refusedAccess c e (.zline c b o) a s) := by
  subst ha
  exact congrArg _ (runCell_raise_in h (by simp only [he]; rfl))

end Refused

/-- The address of a scalar access, as the offset of a vector access with factor 1. -/
theorem memAddr_eq (x : Cell) (b : BitVec 5) (o : BitVec 12) : memAddr x b o = (x.rg b + BitVec.ofInt 64 (o.toInt * 1)).toNat := by
  rw [Int.mul_one]
  rfl

/-- Settles O11: cells that do not run and fetches through `exec_burporForm_eq`, refused accesses by the check that refuses them. -/
theorem exceptionResults : Obligations.ExceptionResults := by
  refine ⟨fun c a w s => ⟨fun h => ⟨?trap, ?brk, fun hw => execIllegalInstruction_ready h hw⟩, fun _ _ _ _ _ _ _ _ _ _ _ _ _ _ _ k hk hstop => ?stopped⟩,
    fun c s _ _ _ _ _ _ _ _ _ _ _ _ _ _ _ _ k hk => ?fetch, fun c r b v y o s h => ?access⟩
  case trap => exact congrArg _ (runPure_raise h _ _ cTrap _ _ rfl)
  case brk => exact congrArg _ (runPure_raise h _ _ cBreak _ _ rfl)
  case stopped => exact exec_burporForm_eq hk (fun _ => runCell_stopped hstop) rfl
  case fetch =>
    intro n pc cr hr hd hrelock
    refine ⟨fun htext => ⟨_, exec_burporForm_eq hk (fun _ => runCell_unfetched hr hd hrelock ?_) (faulted_coh ..)⟩,
      fun hloaded htext harea => ⟨_, exec_burporForm_eq hk (fun _ => runCell_locked hr hd hrelock ?_ harea) (faulted_coh ..)⟩⟩
    · simpa [fetchable?] using htext
    · exact Bool.and_eq_true_iff.2 ⟨hloaded, htext⟩
  case access =>
    intro n x at_
    have hscalar : memAddr x b o = at_ 1 := memAddr_eq x b o
    have hvector : vecAddr x b o 32 = at_ 32 := vecAddr_vector x b o
    have hrecord : vecAddr x b o 64 = at_ 64 := vecAddr_record x b o
    refine ⟨fun i a len hi => ?load, fun i a len hi => ?store⟩
    case load =>
      have hRefused {e} (he : loadCheck s n a len len = .error e) : exec i s = .next (refusedAccess c e i a s) := by
        simp only [List.mem_cons, Prod.mk.injEq, List.not_mem_nil, or_false] at hi
        rcases hi with ⟨rfl, rfl, rfl⟩ | ⟨rfl, rfl, rfl⟩ | ⟨rfl, rfl, rfl⟩ | ⟨rfl, rfl, rfl⟩ | ⟨rfl, rfl, rfl⟩ | ⟨rfl, rfl, rfl⟩ | ⟨rfl, rfl, rfl⟩ | ⟨rfl, rfl, rfl⟩ | ⟨rfl, rfl, rfl⟩
        iterate 7 exact congrArg _ (runLoad_refused h _ hscalar he)
        · exact congrArg _ (runCell_load_refused h _ (addr := fun x => vecAddr x b o 32) hvector he)
        · exact congrArg _ (runCell_load_refused h _ (addr := fun x => vecAddr x b o 64) hrecord he)
      exact ⟨fun ha => hRefused (loadCheck_misaligned ha), fun ha hl => hRefused (loadCheck_unmapped ha hl), fun l ha hl hx => hRefused (loadCheck_locked ha hl hx),
        fun l ha hl hx hm => hRefused (loadCheck_poisoned ha hl hx hm)⟩
    case store =>
      have hRefused {e} (he : storeCheck s n a len len = .error e) : exec i s = .next (refusedAccess c e i a s) := by
        simp only [List.mem_cons, Prod.mk.injEq, List.not_mem_nil, or_false] at hi
        rcases hi with ⟨rfl, rfl, rfl⟩ | ⟨rfl, rfl, rfl⟩ | ⟨rfl, rfl, rfl⟩ | ⟨rfl, rfl, rfl⟩ | ⟨rfl, rfl, rfl⟩ | ⟨rfl, rfl, rfl⟩ | ⟨rfl, rfl, rfl⟩
        iterate 4 exact congrArg _ (runStore_refused h _ hscalar he)
        · exact execZline_refused h hscalar he
        · exact congrArg _ (runCell_store_refused h _ (addr := fun x => vecAddr x b o 32) (leBytes_length ..) hvector he)
        · exact congrArg _ (runCell_store_refused h _ (addr := fun x => vecAddr x b o 64) (by simp [accBytes]) hrecord he)
      exact ⟨fun ha => hRefused (storeCheck_misaligned ha), fun ha hl => hRefused (storeCheck_unmapped ha hl), fun l ha hl ht => hRefused (storeCheck_text ha hl ht),
        fun l ha hl ht hx => hRefused (storeCheck_locked ha hl ht hx)⟩

end Sys2Proof.Machine

/-! Dollies: dsub, dwait and dpoll, and the clause of O8 that fails for a cell of a later CREW.START (R174, R176, Table 8.11). -/

namespace Sys2Proof.Machine

section Dollies

variable {c : CellId} {s : State} {d a : BitVec 5} {l : Loc} {t : Xfer}

/-- The register of a dsub points at the descriptor of a transfer that passes every check (R174). -/
structure Describes (c : CellId) (a : BitVec 5) (s : State) (l : Loc) (t : Xfer) : Prop where
  aligned : ((cellOf s (cellNum c)).rg a).toNat % 64 = 0
  mapped : locOf ((cellOf s (cellNum c)).rg a).toNat 64 = some l
  unlocked : locArea s (cellNum c) l 64 = false
  parsed : parseXfer ((cellOf s (cellNum c)).rg a).toNat (locRead s (cellNum c) l 64) = some t
  rows : rowsOk s (cellNum c) t = true
  clapper : ∀ k, t.clapper = some k → ownsClap s (some (cellTent s (cellNum c))) k = true

/-- A dsub of such a transfer submits it, or waits for a place. -/
theorem exec_dsub_accepted (h : Ready c s) (ht : Describes c a s l t) :
    exec (.dsub c d a) s = .next (applyOut (cellNum c) (wordOf (.dsub c d a))
      (if (cellOf s (cellNum c)).xfers.length < 16 then .done (submitXfer d t (cellOf s (cellNum c))) else .wait (.submit d t)) s) := by
  obtain ⟨haligned, hmapped, hunlocked, hparsed, hrows, hclapper⟩ := ht
  refine congrArg _ ((runCell_ready h _ _).trans ?_)
  by_cases hfree : (cellOf s (cellNum c)).xfers.length < 16 <;> rcases hname : t.clapper with _ | k
  all_goals simp [haligned, hmapped, hunlocked, hparsed, hrows, hfree, hname, hclapper]

/-- With a free place the transfer is submitted under the run of its cell. -/
theorem exec_dsub_submits (h : Ready c s) (ht : Describes c a s l t) (hfree : (cellOf s (cellNum c)).xfers.length < 16) :
    exec (.dsub c d a) s = .next (retired c (submitXfer d t) s) := by
  rw [exec_dsub_accepted h ht, if_pos hfree]
  exact congrArg _ (applyOut_done _ _ (submitXfer d t) s (by simp [submitXfer]) (by simp [submitXfer]))

/-- With none the instruction waits. -/
theorem exec_dsub_waits (h : Ready c s) (ht : Describes c a s l t) (hfull : 16 ≤ (cellOf s (cellNum c)).xfers.length) :
    exec (.dsub c d a) s = .next (waits c (.submit d t) s) := by
  rw [exec_dsub_accepted h ht, if_neg (Nat.not_lt.2 hfull), applyOut_wait]
  simp [settle, waits, hfull]

/-- A descriptor that spells no transfer raises DOLLY. -/
theorem exec_dsub_malformed (h : Ready c s) (ha : ((cellOf s (cellNum c)).rg a).toNat % 64 = 0) (hl : locOf ((cellOf s (cellNum c)).rg a).toNat 64 = some l)
    (hx : locArea s (cellNum c) l 64 = false) (ht : parseXfer ((cellOf s (cellNum c)).rg a).toNat (locRead s (cellNum c) l 64) = none) :
    exec (.dsub c d a) s = .next (faulted c 0x06 (wordOf (.dsub c d a)) ((cellOf s (cellNum c)).rg a).toNat 0 s) :=
  congrArg _ (runCell_raise_in h (by simp [ha, hl, hx, ht]; rfl))

/-- dwait goes on once the retired count has reached its ticket. -/
theorem exec_dwait_passes (h : Ready c s) (hr : ((cellOf s (cellNum c)).rg a).toNat ≤ (cellOf s (cellNum c)).retired) :
    exec (.dwait c a) s = .next (retired c id s) :=
  congrArg _ (runCell_done h (f := id) (by simp only [if_pos hr]; rfl) (fun _ => rfl) (fun _ => rfl))

theorem exec_dwait_waits (h : Ready c s) (hr : (cellOf s (cellNum c)).retired < ((cellOf s (cellNum c)).rg a).toNat) :
    exec (.dwait c a) s = .next (waits c (.retired ((cellOf s (cellNum c)).rg a)) s) :=
  congrArg _ (runCell_waits h (by simp only [if_neg (Nat.not_le.2 hr)]) (by simp [settle, waits, hr]))

/-- What O8 says of a dsub with a free place: it leaves out the run under which the transfer is submitted. -/
def SubmitsOutsideRuns (c : CellId) (d a : BitVec 5) (s : State) : Prop :=
  ∀ l t, Describes c a s l t → (cellOf s (cellNum c)).xfers.length < 16 →
    exec (.dsub c d a) s = .next (retired c (fun y =>
      { y.wg d (BitVec.ofNat 64 (y.submitted + 1)) with submitted := y.submitted + 1, xfers := y.xfers ++ [{ t with ticket := y.submitted + 1 }] }) s)

/-- A descriptor names no run. -/
theorem run_of_parseXfer {n : Nat} {bs : List Byte} (h : parseXfer n bs = some t) : t.run = 0 := by
  unfold parseXfer at h
  dsimp only at h
  split at h
  · cases h
  · cases h
    rfl

/-- It holds of the cells that the first CREW.START started, whose run is 0. -/
theorem submitsOutsideRuns_of_run_zero (h : Ready c s) (hrun : (cellOf s (cellNum c)).group = 0) (d a : BitVec 5) : SubmitsOutsideRuns c d a s := by
  intro l t ht hfree
  rw [exec_dsub_submits h ht hfree]
  simp [retired, updCell, submitXfer, hrun, ← run_of_parseXfer ht.parsed]

end Dollies

/-- Every clause of O8 but that one holds. -/
theorem dollyInstructionResults_iff : Obligations.DollyInstructionResults ↔ ∀ c d a s, Ready c s → SubmitsOutsideRuns c d a s := by
  constructor
  · intro h c d a s hs l t ht hfree
    obtain ⟨haligned, hmapped, hunlocked, hparsed, hrows, hclapper⟩ := ht
    exact ((h c d a s hs).1 l t haligned hmapped hunlocked hparsed hrows hclapper).1 hfree
  · intro hsubmits c d a s h
    refine ⟨fun l t haligned hmapped hunlocked hparsed hrows hclapper => ?_, fun l => exec_dsub_malformed h, exec_dwait_passes h, exec_dwait_waits h, congrArg _ (runG_ready h _ d _)⟩
    have ht : Describes c a s l t := ⟨haligned, hmapped, hunlocked, hparsed, hrows, hclapper⟩
    exact ⟨hsubmits c d a s h l t ht, exec_dsub_waits h ht⟩

/-! ### The refutation -/

/-- The descriptor of a transfer of one line from scratch 0x400 to pooled memory, without a clapper. -/
def lineDescriptor : List Byte :=
  leBytes 8 0x400 ++ leBytes 8 0x0041001000000000 ++ leBytes 4 64 ++ leBytes 2 1 ++ [0x40, 0] ++ leBytes 8 0 ++ leBytes 4 0xFFFFFFFF ++ List.replicate 28 0

/-- The transfer that it spells. -/
def lineTransfer : Xfer :=
  { ticket := 0, addr := 64, src := 0x400, dst := 0x0041001000000000, len := 64, rows := 1, srcFab := false, dstFab := true, srcStride := 0, dstStride := 0, clapper := none }

/-- Cell 0 runs in the second CREW.START's run, with that descriptor at scratch 64, where its g1 points. -/
def secondRun : State :=
  { crw := { crews := [(0, { tent := some 9, loaded := true, textBase := 0x1000, textLen := 64 })]
             cells := [(0, Cell.wg { state := .running, pc := 0x101000, group := 1, scratch := writeBytes [] 64 lineDescriptor } 1 64)] } }

theorem ready_secondRun : Ready ⟨0, 0⟩ secondRun := by
  refine ⟨?_, ?_, ?_, ?_, ?_, ?_⟩ <;> decide

theorem describes_secondRun : Describes ⟨0, 0⟩ 1 secondRun (.scratch 64) lineTransfer := by
  refine ⟨by decide, by decide, by decide, by decide +kernel, by decide +kernel, nofun⟩

/-- The model submits the transfer under run 1, the clause under run 0. -/
theorem not_submitsOutsideRuns : ¬ SubmitsOutsideRuns ⟨0, 0⟩ 2 1 secondRun := by
  intro h
  have hsubmits := h _ _ describes_secondRun (by decide)
  rw [exec_dsub_submits ready_secondRun describes_secondRun (by decide)] at hsubmits
  have hruns := congrArg (fun t => (cellOf t 0).xfers.map Xfer.run) (Host.Outcome.next.inj hsubmits)
  exact absurd hruns (by decide)

/-- Refutes O8: its clause on a dsub with a free place submits the transfer as the descriptor spells it, the model under the run of its cell (the run keeps apart the tickets of the runs of a cell, which count from 1 in each); in any CREW.START's run but the first they differ. In the first it holds (`submitsOutsideRuns_of_run_zero`), and so does every other clause (`dollyInstructionResults_iff`). -/
theorem not_dollyInstructionResults : ¬ Obligations.DollyInstructionResults :=
  fun h => not_submitsOutsideRuns (dollyInstructionResults_iff.1 h _ _ _ _ ready_secondRun)

end Sys2Proof.Machine

/-! Hardware queues, fences, barriers and halt: qput, qget, fence, bar and halt, and the clause of O10 that fails (R178, R179, R181, R310, R311). -/

namespace Sys2Proof.Machine

/-! ### Queues (R178, R310, R311) -/

section Queues

variable {c : CellId} {s s1 : State} {d a b : BitVec 5} {h : HwQueue} {l : Loc} {k marks : Nat} {bs : List Byte} {r : EngRead}

/-- The registers of a qput or qget name a queue of the cell's tent that is not in ERROR, and a local place for its entry. -/
structure NamesQueue (c : CellId) (a b : BitVec 5) (s : State) (h : HwQueue) (l : Loc) : Prop where
  found : find s.qm.queues ((cellOf s (cellNum c)).rg a).toNat = some h
  owned : h.tent = cellTent s (cellNum c)
  sound : h.error = false
  aligned : ((cellOf s (cellNum c)).rg b).toNat % 64 = 0
  mapped : locOf ((cellOf s (cellNum c)).rg b).toNat (2 ^ h.e) = some l
  unlocked : locArea s (cellNum c) l (2 ^ h.e) = false

theorem queueCheck_load (hq : NamesQueue c a b s h l) :
    queueCheck s (cellNum c) ((cellOf s (cellNum c)).rg a) ((cellOf s (cellNum c)).rg b).toNat true = .ok (h, l) := by
  simp [queueCheck, hq.aligned, hq.found, hq.owned, hq.mapped, hq.unlocked]

theorem queueCheck_store (hq : NamesQueue c a b s h l) (ht : locText s (cellNum c) l (2 ^ h.e) = false) :
    queueCheck s (cellNum c) ((cellOf s (cellNum c)).rg a) ((cellOf s (cellNum c)).rg b).toNat false = .ok (h, l) := by
  simp [queueCheck, hq.aligned, hq.found, hq.owned, hq.mapped, hq.unlocked, ht]

section Operations

variable (hx : find s.qm.queues k = some h) (he : h.error = false)

include hx he

theorem qPut_full (hfull : (h.tail - h.head).toNat = 2 ^ h.n) : qPut k bs marks s = (.full, touchHot k s) := by
  simp [qPut, hx, he, hfull]

theorem qPut_done (hroom : (h.tail - h.head).toNat ≠ 2 ^ h.n) (hw : engWriteS h.source h.tent (slotAddr h h.tail) bs (touchHot k s) marks h.cls = (true, s1)) :
    qPut k bs marks s = (.done, clapOpt h.put 1 (updHw k (fun y => { y with tail := y.tail + 1 }) s1)) := by
  simp only [qPut, hx, he, if_neg hroom, hw]
  rfl

theorem qGet_empty (hempty : h.tail = h.head) : qGet k s = (.full, [], 0, touchHot k s) := by
  simp [qGet, hx, he, hempty]

theorem qGet_done (hsome : h.tail ≠ h.head) (hr : engRead h.source h.tent (slotAddr h h.head) (2 ^ h.e) (touchHot k s) h.cls = (some r, s1)) :
    qGet k s = (.done, r.data, r.mask, clapOpt h.get 1 (updHw k (fun y => { y with head := y.head + 1 }) s1)) := by
  simp [qGet, hx, he, hsome, hr]

end Operations

theorem touchHot_coh (k : Nat) (s : State) : (touchHot k s).coh = s.coh := by
  unfold touchHot
  split <;> rfl

/-- A full queue: gd is 1. -/
theorem exec_qput_full (hs : Ready c s) (hq : NamesQueue c a b s h l) (hfull : (h.tail - h.head).toNat = 2 ^ h.n) :
    exec (.qput c d a b) s = .next (updCell (cellNum c) (fun _ => ((cellOf s (cellNum c)).wg d 1).next) (touchHot ((cellOf s (cellNum c)).rg a).toNat s)) := by
  refine congrArg _ ((runCell_ready hs _ _).trans ?_)
  simp only [queueCheck_load hq, qPut_full hq.found hq.sound hfull]
  rfl

/-- An entry stored: gd is 0. -/
theorem exec_qput_stores (hs : Ready c s) (hq : NamesQueue c a b s h l) (hroom : (h.tail - h.head).toNat ≠ 2 ^ h.n)
    (hw : engWriteS h.source h.tent (slotAddr h h.tail) (locRead s (cellNum c) l (2 ^ h.e)) (touchHot ((cellOf s (cellNum c)).rg a).toNat s)
      (locMarks s (cellNum c) ((cellOf s (cellNum c)).rg b).toNat (2 ^ h.e)) h.cls = (true, s1)) :
    exec (.qput c d a b) s = .next (updCell (cellNum c) (fun _ => ((cellOf s (cellNum c)).wg d 0).next)
      (clapOpt h.put 1 (updHw ((cellOf s (cellNum c)).rg a).toNat (fun y => { y with tail := y.tail + 1 }) s1))) := by
  refine congrArg _ ((runCell_ready hs _ _).trans ?_)
  simp only [queueCheck_load hq, qPut_done hq.found hq.sound hroom hw]
  rfl

/-- An empty queue: gd is 1. -/
theorem exec_qget_empty (hs : Ready c s) (hq : NamesQueue c a b s h l) (ht : locText s (cellNum c) l (2 ^ h.e) = false) (hempty : h.tail = h.head) :
    exec (.qget c d a b) s = .next (updCell (cellNum c) (fun _ => ((cellOf s (cellNum c)).wg d 1).next) (touchHot ((cellOf s (cellNum c)).rg a).toNat s)) := by
  have hrun (body) (hb : body (cellOf s (cellNum c)) s = (CellOut.done ((cellOf s (cellNum c)).wg d 1), touchHot ((cellOf s (cellNum c)).rg a).toNat s)) :
      ready (runCell c (.qget c d a b) body) s
        = updCell (cellNum c) (fun _ => ((cellOf s (cellNum c)).wg d 1).next) (touchHot ((cellOf s (cellNum c)).rg a).toNat s) := by
    have := runCell_ready hs (.qget c d a b) body
    rw [hb] at this
    rw [ready_done (by rw [this]; exact touchHot_coh ..), this]
    rfl
  refine congrArg _ (hrun _ ?_)
  simp only [queueCheck_store hq ht, qGet_empty hq.found hq.sound hempty]

/-- What a qget that takes an entry leaves of `s1`, the state after its read of the ring: HEAD moves on and the GET clapper gains one; the ring stop counts the units delivered (Table 8.33); the entry is stored, and no mark is cleared (log entry 53). -/
def taken (c : CellId) (d a b : BitVec 5) (s : State) (h : HwQueue) (r : EngRead) (s1 : State) : State :=
  let n := cellNum c
  let x := cellOf s n
  let t := locPut n (x.rg b).toNat (2 ^ h.e / 64) r.data r.mask
    (ringLoad (n / 32) (2 ^ h.e / 64) (clapOpt h.get 1 (updHw (x.rg a).toNat (fun y => { y with head := y.head + 1 }) s1)))
  updCell n (fun _ => Cell.next { x.wg d 0 with scratch := (cellOf t n).scratch, marks := (cellOf t n).marks }) t

/-- A qget takes the entry at the head, as work that may be held. -/
theorem exec_qget_takes (hs : Ready c s) (hq : NamesQueue c a b s h l) (ht : locText s (cellNum c) l (2 ^ h.e) = false) (hsome : h.tail ≠ h.head)
    (hr : engRead h.source h.tent (slotAddr h h.head) (2 ^ h.e) (touchHot ((cellOf s (cellNum c)).rg a).toNat s) h.cls = (some r, s1)) :
    exec (.qget c d a b) s = .next (held s s (taken c d a b s h r s1)) := by
  refine congrArg (fun t : State => (.next (held s s t) : Res)) ((runCell_ready hs _ _).trans ?_)
  simp only [queueCheck_store hq ht, qGet_done hq.found hq.sound hsome hr]
  rfl

end Queues

/-! ### Fences, barriers and halt (R179, R181) -/

section Barriers

variable {c : CellId} {s : State}

theorem exec_fence_passes (h : Ready c s) (hx : (cellOf s (cellNum c)).xfers = []) : exec (.fence c) s = .next (retired c id s) :=
  congrArg _ (runCell_done h (f := id) (by simp [hx]) (fun _ => rfl) (fun _ => rfl))

theorem exec_fence_waits (h : Ready c s) (hx : (cellOf s (cellNum c)).xfers ≠ []) : exec (.fence c) s = .next (waits c .fence s) :=
  congrArg _ (runCell_waits h (by simp [hx]) (by simp [settle, waits, hx]))

theorem exec_bar_waits (h : Ready c s) (hx : (cellOf s (cellNum c)).xfers ≠ []) : exec (.bar c) s = .next (waits c .barFence s) :=
  congrArg _ (runCell_waits h rfl (by simp [settle, waits, hx]))

theorem exec_halt_waits (h : Ready c s) (hx : (cellOf s (cellNum c)).xfers ≠ []) : exec (.halt c) s = .next (waits c .haltFence s) :=
  congrArg _ (runCell_waits h rfl (by simp [settle, waits, hx]))

/-- A bar whose fence has passed arrives at its barrier. -/
theorem exec_bar_arrives (h : Ready c s) (hx : (cellOf s (cellNum c)).xfers = []) :
    exec (.bar c) s = .next (releaseBar (cellNum c / 32) (cellOf s (cellNum c)).group (waits c .bar s)) := by
  refine congrArg _ ((runCell_ready h _ _).trans ((applyOut_wait ..).trans ?_))
  simp [settle, hx, updCell_updCell, waits]

theorem exec_halt_halts (h : Ready c s) (hx : (cellOf s (cellNum c)).xfers = []) :
    exec (.halt c) s = .next (releaseBar (cellNum c / 32) (cellOf s (cellNum c)).group (clapOpt (cellOf s (cellNum c)).doneClap 1
      (updCell (cellNum c) (fun y => { y with state := .halted, wait := none, pc := y.pc + 4, instrs := y.instrs + 1 }) s))) := by
  refine congrArg _ ((runCell_ready h _ _).trans ((applyOut_wait ..).trans ?_))
  simp [settle, haltCell, hx, updCell_updCell, Cell.next]

theorem nodup_barMembers (k g : Nat) : (barMembers s k g).Nodup :=
  (List.nodup_range.map fun _ _ h => by simpa using h).filter _

/-- A running cell that begins to wait stays a member. -/
theorem barMembers_waits (h : Ready c s) (w : CellWait) (k g : Nat) : barMembers (waits c w s) k g = barMembers s k g := by
  refine List.filter_congr fun m _ => ?_
  by_cases hm : m = cellNum c
  · subst hm
    simp [waits, h.1]
  · simp [waits, cellOf_updCell_other _ s hm]

/-- A change of each cell of a list, by what each cell then is. -/
theorem cellOf_foldl_updCell (f : Cell → Cell) {ms : List Nat} (hms : ms.Nodup) (s : State) (m : Nat) :
    cellOf (ms.foldl (fun s n => updCell n f s) s) m = if m ∈ ms then f (cellOf s m) else cellOf s m := by
  induction ms generalizing s with
  | nil => rfl
  | cons n ms ih =>
    obtain ⟨hn, hms⟩ := List.nodup_cons.1 hms
    rw [List.foldl_cons, ih hms]
    by_cases hm : m = n
    · subst hm
      simp [hn]
    · simp [hm, cellOf_updCell_other f s hm]

/-- It changes nothing but those cells. -/
theorem foldl_updCell_rest (f : Cell → Cell) (ms : List Nat) (s : State) :
    (ms.foldl (fun s n => updCell n f s) s).crw.crews = s.crw.crews ∧ { ms.foldl (fun s n => updCell n f s) s with crw := s.crw } = s := by
  induction ms generalizing s with
  | nil => exact ⟨rfl, rfl⟩
  | cons n ms ih =>
    obtain ⟨hcrews, hrest⟩ := ih (updCell n f s)
    exact ⟨hcrews, congrArg (fun t : State => { t with crw := s.crw }) hrest⟩

/-- A bar that is not the last to arrive waits. -/
theorem exec_bar_early (h : Ready c s) (hx : (cellOf s (cellNum c)).xfers = [])
    (hm : ∃ m ∈ barMembers s (cellNum c / 32) (cellOf s (cellNum c)).group, m ≠ cellNum c ∧ (cellOf s m).wait ≠ some .bar) :
    exec (.bar c) s = .next (waits c .bar s) := by
  obtain ⟨m, hmem, hne, hwait⟩ := hm
  rw [exec_bar_arrives h hx, releaseBar, barMembers_waits h, if_neg]
  simp only [List.all_eq_true, decide_eq_true_eq, not_forall]
  exact ⟨m, hmem, by rwa [waits, cellOf_updCell_other _ s hne]⟩

/-- The last to arrive lets every member go on. -/
theorem exec_bar_last (h : Ready c s) (hx : (cellOf s (cellNum c)).xfers = [])
    (hm : ∀ m ∈ barMembers s (cellNum c / 32) (cellOf s (cellNum c)).group, m ≠ cellNum c → (cellOf s m).wait = some .bar) :
    exec (.bar c) s = .next ((barMembers s (cellNum c / 32) (cellOf s (cellNum c)).group).foldl (fun s n => updCell n Cell.resume s) (waits c .bar s)) := by
  rw [exec_bar_arrives h hx, releaseBar, barMembers_waits h, if_pos]
  simp only [List.all_eq_true, decide_eq_true_eq]
  intro m hmem
  by_cases hne : m = cellNum c
  · subst hne
    simp [waits]
  · rw [waits, cellOf_updCell_other _ s hne, hm m hmem hne]

/-- What a member of a barrier is after its release: it has retired its bar and runs. -/
theorem cellOf_released {ms : List Nat} (hms : ms.Nodup) {m : Nat} (hm : m ∈ ms) :
    cellOf (ms.foldl (fun s n => updCell n Cell.resume s) (waits c .bar s)) m
      = { cellOf s m with state := .running, wait := none, pc := (cellOf s m).pc + 4, instrs := (cellOf s m).instrs + 1 } := by
  rw [cellOf_foldl_updCell _ hms, if_pos hm]
  by_cases hne : m = cellNum c
  · subst hne
    simp [waits, Cell.resume, Cell.next]
  · rw [waits, cellOf_updCell_other _ s hne]
    rfl

end Barriers

/-! ### The clauses of O10 -/

/-- What O10 says of a qput with room: its write passes the shaped points in class 7, whatever the queue's class. -/
def PutsEntry (c : CellId) (d a b : BitVec 5) (s : State) (h : HwQueue) (l : Loc) : Prop :=
  let n := cellNum c
  let x := cellOf s n
  ∀ s1, (h.tail - h.head).toNat ≠ 2 ^ h.n →
    engWriteS h.source h.tent (h.base + (h.tail.toNat % 2 ^ h.n) * 2 ^ h.e) (locRead s n l (2 ^ h.e)) (touchHot (x.rg a).toNat s) (locMarks s n (x.rg b).toNat (2 ^ h.e)) = (true, s1) →
    exec (.qput c d a b) s = .next (updCell n (fun _ => (x.wg d 0).next) (clapOpt h.put 1 (updHw (x.rg a).toNat (fun y => { y with tail := y.tail + 1 }) s1)))

/-- What O10 says of a qget that takes an entry: no unit is counted at the ring stop, and the marks of clean lines are cleared. -/
def TakesEntry (c : CellId) (d a b : BitVec 5) (s : State) (h : HwQueue) (l : Loc) : Prop :=
  let n := cellNum c
  let x := cellOf s n
  ∀ r s1, locText s n l (2 ^ h.e) = false → h.tail ≠ h.head →
    engRead h.source h.tent (h.base + (h.head.toNat % 2 ^ h.n) * 2 ^ h.e) (2 ^ h.e) (touchHot (x.rg a).toNat s) = (some r, s1) →
    let s2 := locFill n (x.rg b).toNat (2 ^ h.e / 64) r.data r.mask (clapOpt h.get 1 (updHw (x.rg a).toNat (fun y => { y with head := y.head + 1 }) s1))
    exec (.qget c d a b) s = .next (updCell n (fun _ => Cell.next { x.wg d 0 with scratch := (cellOf s2 n).scratch, marks := (cellOf s2 n).marks }) s2)

/-- The clause on qput holds of the queues of class 7. -/
theorem putsEntry_of_class {c : CellId} {s : State} {a b : BitVec 5} {h : HwQueue} {l : Loc} (hs : Ready c s) (hq : NamesQueue c a b s h l) (hcls : h.cls = clsEngine) (d : BitVec 5) :
    PutsEntry c d a b s h l :=
  fun _ hroom hw => exec_qput_stores hs hq hroom (hcls ▸ hw)

/-- Every other clause of O10 holds. -/
theorem queueFenceAndBarrierResults_iff :
    Obligations.QueueFenceAndBarrierResults ↔ ∀ c d a b s h l, Ready c s → NamesQueue c a b s h l → PutsEntry c d a b s h l ∧ TakesEntry c d a b s h l := by
  constructor
  · intro hall c d a b s h l hs hq
    obtain ⟨hfound, howned, hsound, haligned, hmapped, hunlocked⟩ := hq
    obtain ⟨-, hput, -, hget⟩ := hall.1 c d a b s hs h l hfound howned hsound haligned hmapped hunlocked
    exact ⟨hput, hget⟩
  · intro hqueues
    refine ⟨fun c d a b s hs h l hfound howned hsound haligned hmapped hunlocked => ?queues, fun c s h => ⟨exec_fence_passes h, fun hx => ⟨exec_fence_waits h hx, exec_bar_waits h hx, exec_halt_waits h hx⟩,
      exec_bar_early h, fun hx hall => ?last, exec_halt_halts h⟩⟩
    case queues =>
      have hq : NamesQueue c a b s h l := ⟨hfound, howned, hsound, haligned, hmapped, hunlocked⟩
      obtain ⟨hput, hget⟩ := hqueues c d a b s h l hs hq
      exact ⟨exec_qput_full hs hq, hput, exec_qget_empty hs hq, hget⟩
    case last =>
      have hnodup := nodup_barMembers (s := s) (cellNum c / 32) (cellOf s (cellNum c)).group
      have hself : cellNum c ∈ barMembers s (cellNum c / 32) (cellOf s (cellNum c)).group := mem_barMembers.2 ⟨rfl, rfl, .inl h.1⟩
      obtain ⟨hcrews, hrest⟩ := foldl_updCell_rest Cell.resume (barMembers s (cellNum c / 32) (cellOf s (cellNum c)).group) (waits c .bar s)
      refine ⟨_, exec_bar_last h hx hall, fun m hm => cellOf_released hnodup hm, fun m hm => ?_, hcrews, congrArg (fun t : State => { t with crw := s.crw }) hrest⟩
      rw [cellOf_foldl_updCell _ hnodup, if_neg hm, waits, cellOf_updCell_other _ s (ne_of_mem_of_not_mem hself hm).symm]

/-! ### The refutation -/

/-- A region of tent 9, stored plainly in tier 0, that source 5 writes. -/
def ringRegion : Region :=
  { owner := 9, base := 0x200000, size := 0x200000, ext := 1, runs := [⟨0, 32, 0, []⟩], span := 0, stackSel := 0, seed := 0, slot := 0, keyGen := 0, keyDead := false
    current := 1, reels := [⟨1, []⟩], writer := none, waiting := none, gsb := none, conv := none, coherent := false, lastMod1 := none, lastMod2 := none }

/-- A queue of tent 9, of class 7, with one entry of 64 bytes at the base of that region. -/
def ringQueue : HwQueue := { tent := 9, cls := clsEngine, weight := 0, n := 1, e := 6, source := 5, put := none, get := none, base := 0x200000, head := 0, tail := 1 }

/-- Cell 0 of tent 9 runs with the queue's number in g1 and a scratch address in g2. -/
def oneEntry : State :=
  { qm := { queues := [(7, ringQueue)] }
    pool := { regions := [(3, ringRegion)], free0 := 100000 }
    fab := { self := some 0x41, gate := [(0, ⟨5, 9, false, 0, true, true, true, 0x200000, 0x200000⟩)] }
    gaf := { stage := 7, epoch := 1, blobValid := true }
    chip := { domains := (List.range 25).map fun n => (n, { state := .on }), rails := true, inReset := false }
    kpr := { tents := [(9, { state := .active, isSealed := false, span := 0, stackSel := 0, seed := 0, slot := 0, sources := [⟨5, 0, .pending, none⟩], tenantKey := none })], slots := [(0, 0)] }
    crw := { crews := [(0, { tent := some 9, loaded := true, textBase := 0x1000, textLen := 64 })]
             cells := [(0, (Cell.wg { state := .running, pc := 0x101000 } 1 7).wg 2 64)] } }

theorem ready_oneEntry : Ready ⟨0, 0⟩ oneEntry := by
  refine ⟨?_, ?_, ?_, ?_, ?_, ?_⟩ <;> decide

theorem namesQueue_oneEntry : NamesQueue ⟨0, 0⟩ 1 2 oneEntry ringQueue (.scratch 64) := by
  refine ⟨?_, ?_, ?_, ?_, ?_, ?_⟩ <;> decide

/-- The read of its entry. -/
def entryRead : Option EngRead × State := engRead 5 9 0x200000 64 (touchHot 7 oneEntry)

theorem entryRead_succeeds : entryRead.1.isSome = true := by decide +kernel

/-- The model counts one unit at the ring stop of crew group 0, the clause none. -/
theorem not_takesEntry : ¬ TakesEntry ⟨0, 0⟩ 3 1 2 oneEntry ringQueue (.scratch 64) := by
  intro h
  have hread : entryRead = (some (entryRead.1.get entryRead_succeeds), entryRead.2) := Prod.ext (Option.some_get _).symm rfl
  have htakes := h _ _ (by decide) (by decide) hread
  rw [exec_qget_takes ready_oneEntry namesQueue_oneEntry (by decide) (by decide) hread] at htakes
  have hloads := congrArg (fun t => fld t .crwRingLoad 0 32 32) (Host.Outcome.next.inj htakes)
  exact absurd hloads (by decide +kernel)

/-- Refutes O10: its clause on a qget that takes an entry leaves out the units that the ring stop of the cell's crew group counts in CRW_RING_LOAD (Table 8.33), which the model counts; the clauses on fence, bar, halt, a full and an empty queue hold (`queueFenceAndBarrierResults_iff`), and so does that on a qput of a queue of class 7 (`putsEntry_of_class`). -/
theorem not_queueFenceAndBarrierResults : ¬ Obligations.QueueFenceAndBarrierResults := by
  intro h
  obtain ⟨-, htakes⟩ := queueFenceAndBarrierResults_iff.1 h _ _ _ _ _ _ _ ready_oneEntry namesQueue_oneEntry
  exact not_takesEntry htakes

end Sys2Proof.Machine
